-- ==== Sys2Proof/Word.lean ====
section
/-! DEFINITION. The machine's word types (R7, R8): registers are 32 bits, memories hold bytes. -/

namespace Sys2Proof

/-- A register of the register space (R8). -/
abbrev Word := BitVec 32

/-- A byte of a packet, a container or Basin (R7). -/
abbrev Byte := BitVec 8

end Sys2Proof
end

