-- ==== Sys2Proof/Syntax.lean ====
section
/-! DEFINITION. The commands of the block: one constructor of `Instr` for each row of spec/opcode_table.json, and the
types of their operands. An operand is what the outside supplies: who writes a register and what value, the port
or lane an event strikes, a packet's bytes, a measured quantity. -/

namespace Sys2Proof

/-- Who writes or reads a register (R60): the rack manager by MCTP endpoint ID (level 2), the host over the Obvo link
(level 3), or Col firmware by core number (level 5). -/
inductive Src where
  | trail (eid : Byte)
  | obvo
  | col (core : Bool)
  deriving DecidableEq, Repr

/-- The two Obvo ports (R395). -/
inductive Side where
  | obIn
  | obOut
  deriving DecidableEq, Repr

/-- A packet header (R146). -/
structure Header where
  seq : BitVec 16
  srcId : BitVec 16
  dstId : BitVec 16
  slice : BitVec 8
  op : BitVec 8
  len : BitVec 6
  vc : BitVec 4
  cls : BitVec 3
  order : Bool
  spec : Bool
  mark : Bool
  echo : Bool
  hops : BitVec 6
  viaV : Bool
  via : BitVec 12
  rsv : BitVec 20
  fmt : BitVec 8
  deriving DecidableEq, Repr

/-- A packet (R142, R149): header, payload, and the tail's reserved bits, VERDICT and CRC; `pad` is what follows the
tail in the last cell (R143). -/
structure Packet where
  hdr : Header
  payload : List Byte
  tailRsv : BitVec 24
  verdict : BitVec 8
  crc : BitVec 32
  pad : List Byte
  deriving DecidableEq, Repr

/-- The IDENT block's fields (R112). -/
structure Ident where
  dir : BitVec 3
  roleLane0 : BitVec 9
  lane0 : BitVec 9
  trayPos : BitVec 2
  coord : BitVec 12
  fwVer : BitVec 32
  lproto : BitVec 16
  part : BitVec 16
  vendor : BitVec 16
  serial : BitVec 64
  remap : Bool
  coordV : Bool
  stomp : Bool
  switch : Bool
  deriving DecidableEq, Repr

/-- A column of codewords of a port as its lanes receive it (R79, R87): each lane's 5,440 bits in LANE_IN_PORT order, bit i the
i-th sent, and the core cycle of the frame at which the column has arrived. A lane in HUNT gives the bits at the position it
tests (R91). -/
structure Column where
  words : List (BitVec 5440)
  cycle : BitVec 9
  deriving DecidableEq, Repr

/-- The link sideband words of a column (R84, R85): each lane's in LANE_IN_PORT order, none where the codeword was
uncorrectable (R81), and the core cycle of the frame at which the column has arrived. -/
structure Sideband where
  words : List (Option (BitVec 238))
  cycle : BitVec 9
  deriving DecidableEq, Repr

/-- A part of the device (R21, R41): a core or lane die by its index 0-11, a stack, or a bridge. -/
inductive Part where
  | die (i : Fin 12)
  | stack (s : Fin 8)
  | bridge (b : Fin 15)
  deriving DecidableEq, Repr

/-- What an uncorrectable bridge word belonged to (R28): a switched cell of packet `id` toward output `out`, a
contribution or partial, a Fan item of a round, or a Basin request or completion. -/
inductive BridgeItem where
  | cell (id : Nat) (out : BitVec 7)
  | cat (id : Nat)
  | fan (id : Nat)
  | basin (id : Nat)
  deriving DecidableEq, Repr

/-- What the read of a cell from a buffer slice meets (R173, R177): whether a word of it is uncorrectable, and the pointer it was read
through where that is not the one handed out. -/
structure BufRead where
  uncorr : Bool := false
  ptr : Option Word := none
  deriving DecidableEq, Repr

/-- The straps of R529. -/
structure Straps where
  coord : BitVec 12
  trayPos : BitVec 2
  coordSrc : Bool
  pwrCeil : BitVec 2
  deriving DecidableEq, Repr

/-- An Obvo packet as a forwarding device sees it (R398, R400). -/
structure ObvoPkt where
  ty : Byte
  inbound : Bool
  hop : BitVec 3
  tag : BitVec 16
  arg : BitVec 64
  body : List Byte
  crcOk : Bool
  deriving DecidableEq, Repr

/-- What the device finds at a frame boundary beside the inputs that wait for it: its estimate of the draw (R448), whether a
comparator still sees 115 °C (R460), the parts whose calibration, training or test has ended well since the last boundary (R40,
R41), and the words with one corrected symbol that bridges, cell buffers, stores and stacks met since then (R28, R173, R251,
R355). -/
structure FrameIn where
  pEst : BitVec 16
  hot : Bool := false
  passed : List Part := []
  bridgeCe : List (Fin 15 × Nat) := []
  bufCe : List (Fin 4 × Nat) := []
  storeCe : List (Fin 4 × Nat) := []
  basinCe : List (Fin 8 × Nat) := []
  deriving DecidableEq, Repr

/-- What a patrol scrub visit finds at the word it visits (R356). -/
inductive ScrubFind where
  | clean
  | corrected
  | uncorr
  deriving DecidableEq, Repr

/-- The commands of the block, in the order of spec/opcode_table.json but for the last two. -/
inductive Instr where
  | frameBoundary (f : FrameIn)
  /-- TICKSYNC_PULSE (R48, R49): the core cycles of the frame in progress at the pulse's edge. -/
  | ticksyncPulse (cyc : BitVec 9)
  | ticksyncMiss
  | rackclkLost
  | rackclkReturn
  | frmArm (src : Src) (v : Word)
  | frmNoLoRead (src : Src)
  | pairLoRead (src : Src) (addr : Word)
  | pairHiRead (src : Src) (addr : Word)
  | registerWrite (src : Src) (addr : Word) (v : Word)
  | peerSkewClear (p : BitVec 7)
  | boundMiss (p : BitVec 7) (id : Nat)
  | laneEnable (src : Src) (l : BitVec 9) (v : Word)
  | laneDisable (src : Src) (l : BitVec 9) (v : Word)
  | retrain (src : Src) (l : BitVec 9) (v : Word)
  | loopbackSelect (src : Src) (l : BitVec 9) (v : Word)
  | equaliserSettled (l : BitVec 9)
  | lockAcquired (l : BitVec 9)
  | lockLost (l : BitVec 9)
  /-- EQI_UPDATE (R96): for each eye, the samples of the upper and of the lower level over the window, by histogram bin. -/
  | eqiUpdate (l : BitVec 9) (up1 low0 up2 low1 up3 low2 : List (Byte × Nat))
  | txeqRequest (l : BitVec 9) (req : BitVec 16)
  | trainTimeout (l : BitVec 9)
  | signalLost (l : BitVec 9)
  | laneclkLost (d : BitVec 3)
  /-- PORT_DESKEW (R88): the largest skew between two lanes in ns, and whether WIDTH and LANE_IN_PORT agree. -/
  | portDeskew (p : BitVec 7) (skewNs : Nat) (consistent : Bool)
  | codewordDecode (p : BitVec 7) (col : Column)
  | lswReceive (p : BitVec 7) (w : Sideband)
  | eiEnter (p : BitVec 7)
  | eiEnterReceived (p : BitVec 7)
  | wakeStart (p : BitVec 7)
  | wakeComplete (p : BitVec 7)
  | wakeFail (p : BitVec 7)
  | rxWake (p : BitVec 7)
  | rxWakeFail (p : BitVec 7)
  | patternGeneratorSet (src : Src) (l : BitVec 9) (v : Word)
  | patternCheckerSet (src : Src) (l : BitVec 9) (v : Word)
  | chkLock (l : BitVec 9)
  /-- CHECKER_RESEED (R105): the PAM4 levels received since the last count, and the register from which the checker's own
  sequence then ran. -/
  | checkerReseed (l : BitVec 9) (rx : List (BitVec 2)) (seed : BitVec 31)
  | laneInjGo (src : Src) (l : BitVec 9) (v : Word)
  | laneInjEnd (l : BitVec 9)
  /-- IDENT_RECEIVED (R115): the block's payload as received. -/
  | identReceived (p : BitVec 7) (i : BitVec 256)
  | timeProbe (p : BitVec 7) (n : BitVec 3) (turnaround : BitVec 16)
  /-- TIME_REPLY (R115): probe number, cycles from the probe's departure to the reply's arrival, and the turnaround
  it reports. -/
  | timeReply (p : BitVec 7) (n : BitVec 3) (cycles turnaround : Nat)
  | portCheck (p : BitVec 7)
  | swapWaitExpire (p : BitVec 7)
  | exchangeTimeout (p : BitVec 7)
  | upReady (p : BitVec 7)
  | upReadyTimeout (p : BitVec 7)
  | nbMissing (p : BitVec 7)
  | linkQclr (src : Src) (p : BitVec 7) (v : Word)
  | portDisable (src : Src) (p : BitVec 7)
  | portEnable (src : Src) (p : BitVec 7)
  | retryReqReceived (p : BitVec 7) (ack : BitVec 12) (reqId : BitVec 6)
  | retryStartReceived (p : BitVec 7) (reqId : BitVec 6)
  | reqTimeout (p : BitVec 7)
  | ackReceived (p : BitVec 7) (ack : BitVec 12)
  | protoErrReceived (p : BitVec 7) (code : Byte)
  /-- TRAIN_SELECT (R133, R173, R177): how the next cell is read. -/
  | trainSelect (p : BitVec 7) (b : BufRead)
  | trainComplete (p : BitVec 7)
  /-- HEADER_LOOKUP (R157, R132): the packet whose first cell arrived on the port, and the core cycles from the first
  column that carried XOFF for its VC to the column its first cell began in. -/
  | headerLookup (p : BitVec 7) (pk : Packet) (sinceXoff : Nat)
  | cellConfirm (id : Nat)
  | cellStomp (id : Nat)
  /-- ADMISSION_ROUND (R183): the round of the frame. -/
  | admissionRound (r : BitVec 4)
  | orderPresent (id : Nat)
  | orderRelease (id : Nat)
  | orderTimeout (id : Nat)
  | sampleConsume (src : Src) (k : BitVec 2) (v : Word)
  | coreWmarkClr (src : Src)
  /-- BRIDGE_UNCORR (R28): bridge, receiving die, and the item the word belonged to. -/
  | bridgeUncorr (b : Fin 15) (die : Fin 12) (it : BridgeItem)
  | partFault (part : Part)
  | coordWrite (src : Src) (v : Word)
  | routeActGo (src : Src) (v : Word)
  | routeActCancel (src : Src) (v : Word)
  | drainStart
  | activated
  | parkedRepresent (p : BitVec 7)
  | bypassDetect (v : BitVec 12)
  | bypassMessage (id : Nat)
  | catContrib (id : Nat)
  | catPartial (id : Nat)
  | clusterAdmit (id : Nat)
  /-- ACCUMULATE (R244, R251): whether a word of the store, or of the spill frame, is uncorrectable. -/
  | accumulate (id : Nat) (uncorr : Bool)
  | retract (id : Nat)
  | chunkComplete (g : BitVec 12) (c : BitVec 32)
  | partialEmit (g : BitVec 12) (c : BitVec 32)
  | resultHandover (g : BitVec 12) (c : BitVec 32)
  | catLaunchGo (src : Src) (v : Word)
  | catLaunchAbort (src : Src) (v : Word)
  | launchStart (g : BitVec 12)
  | launchDone (g : BitVec 12)
  | stepTimeout (g : BitVec 12)
  | catHold (id : Nat)
  | catResult (id : Nat)
  | catAbort (id : Nat)
  | abortFrame (g : BitVec 12)
  | catFenceWrite (src : Src) (w : BitVec 2) (v : Word)
  | scoreboardSelect (src : Src) (addr : Word) (v : Word)
  | fanRoundGo (src : Src) (v : Word)
  | fanRoundAbort (src : Src) (v : Word)
  | roundOpen (r : BitVec 4)
  | roundClose (r : BitVec 4)
  | rank (r : BitVec 4)
  | rankFallback (r : BitVec 4)
  | roundDone (r : BitVec 4)
  | roundTimeout (r : BitVec 4)
  | fanDispatch (id : Nat)
  | dispatchAdmit (id : Nat)
  | fanCopy (id : Nat)
  | windowBoundary (e : BitVec 14)
  | fanOutForward (id : Nat)
  | fanOutCombine (id : Nat)
  | fanRetract (id : Nat)
  | fanNotice (id : Nat)
  | combineSend (p : BitVec 7) (round : BitVec 16) (token : BitVec 32)
  | fanAbortMessage (id : Nat)
  | fanAbortFrame (r : BitVec 4)
  | basRead (id : Nat)
  | basWrite (id : Nat)
  | basMread (id : Nat)
  | basAdd (id : Nat)
  | basCas (id : Nat)
  | basinAdmit (id : Nat)
  /-- SEGMENT_GRANT (R345): the request's slot. -/
  | segmentGrant (slot : Nat)
  /-- SCRUB_VISIT (R356): the device address of the word visited and what the visit finds. -/
  | scrubVisit (da : BitVec 38) (f : ScrubFind)
  | platLoadStart (src : Src)
  | platLoadClear (src : Src)
  | platLoadInstall (src : Src)
  | platVerify
  | platActGo (src : Src) (v : Word)
  | platActCancel (src : Src) (v : Word)
  | platDrainStart
  | platActivate
  | bootRestore
  | obvoRd (side : Side) (tag : BitVec 16) (addr : Word) (count : BitVec 16)
  | obvoWr (side : Side) (tag : BitVec 16) (addr : Word) (vals : List Word)
  | obvoWrm (side : Side) (tag : BitVec 16) (addr : Word) (mask v : Word)
  | dmaWr (side : Side) (tag : BitVec 16) (target : Byte) (off : BitVec 40) (data : List Byte)
  | dmaRd (side : Side) (tag : BitVec 16) (target : Byte) (off : BitVec 40) (rlen : BitVec 16)
  | beacon (side : Side) (passed : BitVec 3) (fromB : Bool)
  | obvoForward (side : Side) (pk : ObvoPkt)
  | obvoPortUp (side : Side)
  | obvoPortDown (side : Side)
  | beaconTimeout (side : Side)
  | eventSend
  | pecBad
  | setEndpointId (eid : Byte)
  | getEndpointId
  | getMctpVersionSupport
  | getMessageTypeSupport
  | getVersion
  | getCapabilities
  | negotiateAlgorithms
  | getDigests
  | getCertificate
  | challenge
  | getMeasurements
  | spdmUnsupportedRequest
  | status (eid inst : Byte)
  | regRead (eid inst : Byte) (addr : Word) (count : BitVec 16)
  | regWrite (eid inst : Byte) (addr : Word) (vals : List Word)
  | capSet (eid inst : Byte) (watts : BitVec 16)
  | holdoffSet (eid inst : Byte)
  | holdoffClear (eid inst : Byte)
  | locate (eid inst : Byte) (st : Byte)
  | platStart (eid inst : Byte) (len : Word)
  | platData (eid inst : Byte) (off : Word) (data : List Byte)
  | platClear (eid inst : Byte)
  | platInstall (eid inst : Byte)
  | recovStart (eid inst : Byte) (kind : Byte) (len : Word)
  | recovData (eid inst : Byte) (off : Word) (data : List Byte)
  | recovRun (eid inst : Byte)
  | colRecovStart (src : Src) (v : Word)
  | colRecovRun (src : Src) (v : Word)
  | alertResponse
  /-- BOOT_ROM (R425): whether the engine and TRNG self-tests pass, and whether SFDP discovery and the reads do. -/
  | bootRom (selfTestOk flashOk : Bool)
  | colReady (src : Src)
  | colRestart (src : Src)
  | wdogKick (src : Src) (v : Word)
  | wdogExpire
  | cfgLock (src : Src) (v : Word)
  | tokenCheck (src : Src) (v : Word)
  | tokenCheckDone
  | tokenExpire (p : BitVec 7)
  | colPacketSend (pk : Packet)
  | colMessage (id : Nat)
  | colFlashWrite (off : Word) (data : List Byte)
  | avsFault (k : BitVec 2)
  | avsRecover (k : BitVec 2)
  | avsStep (k : BitVec 2) (target : BitVec 10)
  | capViolation400
  | brakeStepDown
  | brake (low : Bool)
  /-- DIODE_READ (R459): the 80 readings in 0.25 °C, and the diodes that fail test NO_RISE on the estimator's data. -/
  | diodeRead (temps : List Int) (noRise : List Nat)
  | thermStepDown
  | thermTrip (i : Fin 80)
  /-- TRIP_CLR (R460): `hot`: some comparator sees 115 °C or more as the command is sampled. -/
  | tripClr (src : Src) (v : Word) (hot : Bool)
  /-- LEAK_MEASURE (R461): the loops' resistances in ohms. -/
  | leakMeasure (ra rb : Nat)
  | leakClr (src : Src) (v : Word)
  | diodeRetry (src : Src) (v : Word)
  | pwrCapHost (src : Src) (v : Word)
  | pwrHoldSet (src : Src) (v : Word)
  | pwrHoldClr (src : Src) (v : Word)
  | coldReset (st : Straps)
  | resetNAssert
  | resetNRelease (st : Straps)
  | dpReset (src : Src) (v : Word)
  | dataPathUp
  | partInitTimeout
  | perPortReset (src : Src) (w : BitVec 2) (v : Word)
  | railLoss
  | railReturn
  | stbyLoss
  | ledRefresh
  | locateHost (src : Src) (v : Word)
  | cntSnap (src : Src) (v : Word)
  | cntWmarkClr (src : Src) (v : Word)
  | cntWinWrite (src : Src) (v : Word)
  | bwWindowEnd
  | cntViewWrite (src : Src) (addr : Word) (v : Word)
  | cntRead (id : Nat)
  | witPatGo (src : Src) (i : BitVec 3) (v : Word)
  | witPatStop (src : Src) (i : BitVec 3) (v : Word)
  | patStart (i : BitVec 3)
  | patPresent (i : BitVec 3)
  | patResume (i : BitVec 3)
  | witCapGo (src : Src) (c : BitVec 3) (v : Word)
  | witCapStop (src : Src) (c : BitVec 3) (v : Word)
  | capStart (c : BitVec 3)
  | captureWrite (c : BitVec 3)
  | witInjGo (src : Src) (p : BitVec 7) (v : Word)
  | extest
  | idcode
  | samplePreload (bits : List Bool)
  | extestPulse
  | extestTrain
  | clamp
  | highz
  | bypass
  | testLogicReset
  | laneclkReturn (d : BitVec 3)
  /-- LOADER_COMMIT (R431): whether the programming and read-back succeeded. -/
  | loaderCommit (ok : Bool)
  | partInitFail (part : Part)
  | trailCmdUndefined (eid inst : Byte) (cmd : Byte)
  | obvoCmdUndefined (side : Side) (tag : BitVec 16) (ty : Byte)
  | mainRailsUp
  | unsupportedMessageType
  deriving DecidableEq, Repr

end Sys2Proof
end

