-- ==== Sys2Proof/Machine/Bits.lean ====
section
/-! DEFINITION. Fields of registers (R6, R12) and little-endian byte strings (R7). -/

namespace Sys2Proof.Machine

/-- Bits [lo+len-1:lo] of a register. -/
def fld (w : Word) (lo len : Nat) : Nat := (w.toNat >>> lo) % 2 ^ len

/-- The register with bits [lo+len-1:lo] replaced by `v` (taken modulo 2^len). -/
def setFld (w : Word) (lo len v : Nat) : Word :=
  (w &&& ~~~((BitVec.ofNat 32 (2 ^ len - 1)) <<< lo)) ||| ((BitVec.ofNat 32 (v % 2 ^ len)) <<< lo)

/-- A word with `v` in bits [lo+len-1:lo] and 0 elsewhere. -/
def at32 (lo len v : Nat) : Word := BitVec.ofNat 32 ((v % 2 ^ len) <<< lo)

/-- Bit `i` of a register. -/
def bit (w : Word) (i : Nat) : Bool := w.getLsbD i

/-- 1 for true. -/
def b2n (b : Bool) : Nat := if b then 1 else 0

/-- The 32-bit register that holds `n`, saturating at FFFF_FFFFh. -/
def sat32 (n : Nat) : Word := BitVec.ofNat 32 (min n 0xFFFFFFFF)

/-- The number a little-endian byte string holds (R7). -/
def leNat : List Byte → Nat
  | [] => 0
  | b :: bs => b.toNat + 256 * leNat bs

/-- The `n` little-endian bytes of a number (R7). -/
def leBytes : Nat → Nat → List Byte
  | 0, _ => []
  | n + 1, v => BitVec.ofNat 8 v :: leBytes n (v / 256)

/-- The little-endian number in bytes off .. off+len-1 of a byte string. -/
def leAt (bs : List Byte) (off len : Nat) : Nat := leNat ((bs.drop off).take len)

/-- Whether bytes off .. off+len-1 of a byte string are all 00h. -/
def zeroAt (bs : List Byte) (off len : Nat) : Bool := ((bs.drop off).take len).all (· == 0)

/-- `n` bytes 00h. -/
def zeros (n : Nat) : List Byte := List.replicate n 0

/-- A byte string padded with 00h to `n` bytes. -/
def padTo (n : Nat) (bs : List Byte) : List Byte := (bs ++ zeros (n - bs.length)).take n

/-- ⌈a / b⌉. -/
def cdiv (a b : Nat) : Nat := (a + b - 1) / b

/-- The two's complement value of the low `len` bits of `n`. -/
def sInt (len n : Nat) : Int :=
  let m := n % 2 ^ len
  if m < 2 ^ (len - 1) then (m : Int) else (m : Int) - 2 ^ len

/-- The low `len` bits of an integer in two's complement. -/
def uInt (len : Nat) (i : Int) : Nat := (i % (2 ^ len : Nat)).toNat

end Sys2Proof.Machine
end

