-- ==== Sys2Proof/Machine/RegMap.lean ====
section
/-! DEFINITION. The register space (R8-R15): addresses of the registers the model names, reset values, and the bits a
write reaches. An address that is not listed holds no register or one whose fields software cannot write, and reads
as its reset value 0 until hardware or a plat writes it. -/

namespace Sys2Proof.Machine

/-- Block code of a register address (R8). -/
def blk (a : Nat) : Nat := a / 0x1000000

/-- Offset in a block's window. -/
def off (a : Nat) : Nat := a % 0x1000000

/-- Address of a register that exists once (R8). -/
def ra (b o : Nat) : Nat := b * 0x1000000 + o

/-- Address of a per-port register (R9). -/
def rp (b o p : Nat) : Nat := b * 0x1000000 + o + p * 0x4000

/-- Address of a per-lane register (R9). -/
def rl (o l : Nat) : Nat := 0x02000000 + o + l * 0x1000

/-- Port of a per-port register of an offset, and its offset in the port's window. -/
def pOf (o : Nat) : Nat := o / 0x4000
def pOff (o : Nat) : Nat := o % 0x4000

/-- The COND register a condition word is held in: per lane for LANE, per port for LINK (R110, R140), else the
block's. -/
def condAddr (b idx : Nat) : Nat :=
  if b = 2 then rl 0x80 idx else if b = 3 then rp 3 0x80 idx else ra b 0x30

/-- Reset values that are not 0 (Reset columns of the chapters). -/
def regRst (a : Nat) : Word :=
  let o := off a
  match blk a with
  | 0 => if o = 0x44 then 0x01000000 else 0
  | 2 => if o < 0x200000 then
      (if o % 0x1000 = 0 then 0x00406010 else if o % 0x1000 = 0x70 then 0x00010000 else 0) else 0
  | 3 => if o < 0x200000 ∧ pOff o = 0xC then 0x1000 else 0
  | 4 => if o = 0 then 0x00100000 else if o = 4 then 0x1F40 else 0
  | 7 => if o = 0 then 0x06000000 else 0
  | 9 => if o = 0 then 0x320 else if o = 4 then 0x18 else 0
  | 0xB => if o = 8 then 0x3FFFF else 0
  | 0xE => if o = 0xC then 0xFA else if 0x100 ≤ o ∧ o < 0x120 then 0x0018183F else 0
  | 0xF => if o = 0x18 then 0x5DC else if o = 0x1C then 0x64 else 0
  | 0x10 => if o = 0 then 0xD else 0
  | 0x11 =>
    if o < 0x200000 then (if pOff o = 0x110 then 0x00010000 else 0)
    else if 0x400000 ≤ o ∧ o < 0x400200 ∧ o % 0x40 = 0 then 0x7F000 else 0
  | _ => 0

/-- Bits of a register that a write sets (RW and RWL fields). -/
def regRw (a : Nat) : Word :=
  let o := off a
  match blk a with
  | 0 =>
    if o = 0x38 then 0xFFFFFFFF
    else if 0x60 ≤ o ∧ o < 0x70 then 0xFFFFFFFF
    else if o = 0x70 then 1 else if o = 0x74 then 3 else 0
  | 1 => if o = 0xC then 1 else if o = 0x10 then 0xFFFFFFFF else if o = 0x14 then 0x3F else 0
  | 2 =>
    if o < 0x200000 then
      match o % 0x1000 with
      | 0 => 0x00FFFFFD
      | 0x50 => 0x77
      | 0x54 => 0xFFFFFFFF
      | 0x58 => 0xFFFFFFFF
      | 0x70 => 0x00FF1F03
      | _ => 0
    else 0
  | 3 => if o < 0x200000 ∧ pOff o = 0 then 1 else 0
  | 5 =>
    if o < 0x200000 then (if pOff o = 0x300 then 0xC000FFFF else 0)
    else if 0x400000 ≤ o ∧ o < 0x404000 ∧ o % 0x1000 = 0xF14 then 0x3FF else 0
  | 6 => if o = 0x40 then 0x000F7F7F else if o = 0x44 then 0xFFFFFFFF else if o = 0x48 then 0xFFFF else 0
  | 7 =>
    if o = 0x40 then 0xFFFF0FFF
    else if o = 0x44 ∨ o = 0x48 ∨ o = 0x4C then 0xFFFFFFFF
    else if o = 0x50 then 0xFFFFFF3F
    else if o = 0x54 then 0x7FFEFFFF
    else if o = 0x58 then 0xFFF
    else if o = 0x60 then 0xFF000FFF
    else if o = 0x64 then 0xFFFFFFFF
    else if 0x80 ≤ o ∧ o < 0x90 ∧ o % 4 = 0 then 0xFFFFFFFF else 0
  | 8 =>
    if 0x40 ≤ o ∧ o < 0x60 ∧ o % 4 = 0 then (if o = 0x44 then 0xFF0FFF3F else 0xFFFFFFFF)
    else if o = 0x60 then 0xFFFF else 0
  | 9 => if o = 4 then 0xFFFF else 0
  | 0xA => if o = 8 then 0xFFFFFF else if o = 0x40 then 0x7F else if o = 0x44 then 0xFFFFFFFF
      else if o = 0x48 then 0xFFFF else 0
  | 0xB => if o = 8 then 0x3FFFF else 0
  | 0xC => if o = 8 then 0x3FFFF else 0
  | 0xD => if o = 8 then 0xFF else if o = 0xC then 0x3FFFFF else 0
  | 0xE =>
    if o = 0xC then 0xFFF
    else if 0x100 ≤ o ∧ o < 0x120 ∧ o % 4 = 0 then 0x00FFFF3F
    else if 0x200 ≤ o ∧ o < 0x3C0 ∧ o % 4 = 0 then 0xFFFFFFFF else 0
  | 0xF => if o = 0xC ∨ o = 0x10 then 0xFFFF else 0
  | 0x10 =>
    if o = 0 then 0x1F
    else if 0x400000 ≤ o ∧ o < 0x402000 then
      (if o % 0x20 = 0 then 1 else if o % 0x20 < 0x14 ∧ o % 4 = 0 then 0xFFFFFFFF else 0)
    else 0
  | 0x11 =>
    if o < 0x200000 then (if pOff o = 0x110 then 0x07FFFFFF else 0)
    else if 0x400000 ≤ o ∧ o < 0x400200 then
      match o % 0x40 with
      | 0 => 0x03E7F07F
      | 4 => 0xFFFF0FFF
      | 0x10 => 0xFFFFFFFF
      | 0x14 => 0xFFFF
      | 0x18 => 0xFFFFFFFF
      | _ => 0
    else if 0x401000 ≤ o ∧ o < 0x401200 then
      match o % 0x40 with
      | 0 => 0x00C0007F
      | 4 => 0xFFF
      | 0x10 => 0xFFFFFFFF
      | 0x14 => 0xFFFF
      | _ => 0
    else 0
  | _ => 0

/-- Bits of a register that a write of 1 clears (W1C): PENDING of every COND_STS, and BAS_STAT.LOST. -/
def regW1c (a : Nat) : Word :=
  let o := off a
  match blk a with
  | 2 => if o < 0x200000 ∧ o % 0x1000 = 0x84 then 1 else 0
  | 3 => if o < 0x200000 ∧ pOff o = 0x84 then 1 else 0
  | 9 => if o = 0x34 ∨ o = 8 then 1 else 0
  | b => if b ≤ 0x11 ∧ o = 0x34 then 1 else 0

/-- Whether the register's writable fields are RWL (R441). -/
def isRwl (a : Nat) : Bool :=
  blk a = 0xE ∧ (off a = 0xC ∨ (0x100 ≤ off a ∧ off a < 0x120 ∧ off a % 4 = 0))

/-- The section of a plat that may write a register (R367) and the bits of the register's fields; 0 for none. -/
def platSec (a : Nat) : Nat × Word :=
  let o := off a
  let all : Word := 0xFFFFFFFF
  if a % 4 ≠ 0 then (0, 0) else
  match blk a with
  | 2 => if o < 0x200000 ∧ o % 0x1000 = 0 then (2, 0x00FFFFFD) else (0, 0)
  | 3 =>
    if o < 0x200000 then
      match pOff o with
      | 8 => (2, 0x1FF)
      | 0xC => (2, 0x1FFF)
      | 0x20 => (4, all)
      | 0x24 => (4, 0xFF)
      | _ => (0, 0)
    else (0, 0)
  | 4 =>
    if o = 0 then (1, 0x003FFFFF)
    else if o = 4 then (4, 0xFFFF)
    else if o < 0x200000 ∧ pOff o = 0x100 then (3, 3)
    else if 0x400000 ≤ o ∧ o < 0x402000 then
      (if o % 0x20 = 0 then (5, 1) else if o % 0x20 < 0x14 then (5, all) else (0, 0))
    else if 0x800000 ≤ o ∧ o < 0x880000 then
      (if o % 8 = 0 then (5, 0xFFF03F07) else (5, 0xFFFEFFFF))
    else (0, 0)
  | 5 =>
    if o < 0x200000 then
      let q := pOff o
      if 0x100 ≤ q ∧ q < 0x170 ∧ q % 0x10 = 0 then (4, 0xFF00FFFF)
      else if q = 0x180 ∨ q = 0x184 then (4, 0xFFFF)
      else if q = 0x304 then (4, 0x00FFFF00)
      else (0, 0)
    else if 0x400000 ≤ o ∧ o < 0x404000 ∧ o % 0x1000 = 0xA0 then (4, 0x7FFFF)
    else (0, 0)
  | 6 =>
    if o = 4 then (1, 0x037F8FFF)
    else if o = 8 then (1, all)
    else if 0x10 ≤ o ∧ o < 0x20 then (5, 0xC0000FFF)
    else if o = 0x50 then (5, 0xFFFFFF3F)
    else if o = 0x54 then (5, 0xFF)
    else if o = 0x58 then (8, 0x80000FFF)
    else if 0x64 ≤ o ∧ o < 0x7C then (5, 0xFFFF)
    else if o < 0x200000 ∧ pOff o = 0x100 then (3, 7)
    else if 0x400000 ≤ o ∧ o < 0x408000 then (5, 0xFC00FC00)
    else if 0x800000 ≤ o ∧ o < 0x810000 then
      (5, match o % 0x10 with
        | 0 => 0x7F7F0000
        | 4 => 0xFFFF00F1
        | 8 => all
        | _ => 0)
    else if 0xC00000 ≤ o ∧ o < 0xC40000 then
      (if o % 0x20 < 0x10 then (5, all) else if o % 0x20 = 0x10 then (5, 0xFFF3000F) else (0, 0))
    else (0, 0)
  | 7 =>
    if o = 0 then (6, 0x1F0003FF)
    else if o = 4 then (6, 0x03FF0FFF)
    else if o < 0x200000 ∧ pOff o = 0x100 then (5, 0xFFFF)
    else if 0x800000 ≤ o ∧ o < 0x820000 then
      (5, match o % 0x20 with
        | 0x10 => 0xFFFF0000
        | 0x14 => 0xFCCFFF01
        | 0x18 => 0x00FF80FF
        | 0x1C => 0xFFF8FFF0
        | _ => all)
    else (0, 0)
  | 8 =>
    if o = 0 then (7, 0x1F)
    else if 0x600000 ≤ o ∧ o < 0x600100 then (5, 0xFFFF)
    else if 0x800000 ≤ o ∧ o < 0x840000 then
      (5, match o % 0x10 with
        | 0 => 0
        | 4 => 0xFF03FFF1
        | _ => all)
    else (0, 0)
  | 9 =>
    if o = 0 then (8, 0x03FF03FF)
    else if 0x800000 ≤ o ∧ o < 0x810000 then
      (8, match o % 0x10 with
        | 0 => 0
        | 4 => 0xFF070001
        | 8 => 0xF8FFFFFF
        | _ => all)
    else if 0xC00004 ≤ o ∧ o < 0xC00400 then (8, all)
    else (0, 0)
  | 0xA =>
    if o = 0x50 then (1, 0xC0FFFFFF)
    else if o < 0x200000 then
      match pOff o with
      | 0x100 => (3, 0x800701FF)
      | 0x110 => (1, 0xF01FFFFF)
      | 0x114 => (1, 0)
      | 0x118 => (1, all)
      | 0x11C => (1, all)
      | _ => (0, 0)
    else (0, 0)
  | 0xF => if o = 0x18 then (9, 0xFFFF) else if o = 0x1C then (9, 0x1FF) else (0, 0)
  | 0x11 =>
    if o < 0x200000 then
      match pOff o with
      | 0x100 => (10, 7)
      | 0x104 => (10, 0x1FFFF)
      | 0x108 => (10, all)
      | 0x10C => (10, all)
      | _ => (0, 0)
    else (0, 0)
  | _ => (0, 0)

end Sys2Proof.Machine
end

