-- ==== Sys2Proof/Config.lean ====
section
/-! DEFINITION. What one part fixes at manufacture, and the free values: constants without a body, so that no
proof can rest on a value the spec does not give. Each names the rule that leaves it open and its log row. -/

namespace Sys2Proof.Config

/-- The n-th number of the true random number generator (R207, R442). Free; log 3. -/
opaque trng : Nat → Word

/-- How the device moves S inside its stage ceiling (R452, R454): the ceiling bounds it, the spec fixes no
algorithm. Free; log 4. -/
opaque scaleChoice : Nat → Nat

/-- DETAIL of FRM 01h where the offset does not fit its 16 bits (R49, R74). Free; log 8. -/
opaque slipDetail : Int → BitVec 16

/-- The position a sender gives the window of a slot, among those the accumulator allows (R249). Free; log 9. -/
opaque slotPos : Int → Nat

/-- The core cycle an event record is stamped with (R408), by its sequence number: commands carry none. Free; log 11. -/
opaque evCycle : Nat → Byte

/-- The core cycle a captured packet is stamped with (R512), by record number. Free; log 11. -/
opaque capCycle : Nat → Byte

/-- The bytes of an SPDM answer, whose layout the DMTF standard gives and the spec does not (R412). Free; log 5. -/
opaque spdmBody : Nat → List Byte

/-- The n-th MCTP control answer's standard-defined bytes (R411). Free; log 5. -/
opaque mctpBody : Nat → List Byte

/-- The fused 64-bit serial (GLB_SERIAL, R38). Log 6. -/
opaque serial : BitVec 64

/-- The fused stepping, letter in [15:8] and digit in [7:0] (GLB_STEP). Log 6. -/
opaque stepping : BitVec 16

/-- The stepping number of IDCODE [31:28] (R520). Log 6. -/
opaque idStepping : BitVec 4

/-- The link protocol version fixed by the stepping (GLB_LPROTO). Log 6. -/
opaque lproto : BitVec 16

/-- The fused power ceiling in watts (PWR_FUSE_W, R422). Log 6. -/
opaque fuseW : BitVec 16

/-- SHA-256 of the Paltia firmware public key (PALTIA_KEY_HASH, R422). Log 6. -/
opaque paltiaKeyHash : List Byte

/-- SHA-256 of the boot ROM (measurement 1, R433). Log 6. -/
opaque romHash : List Byte

/-- SHA-256 of the identity leaf certificate fused at manufacture (IDENT_CERT_HASH, R422). Log 6. -/
opaque identCertHash : List Byte

/-- The signature the RSA engine makes with IDENT_KEY, which nothing can read (R422, R432). Free; log 5. -/
opaque identSign : List Byte → List Byte

/-- Spare rows a stack leaves manufacture with (R357, BAS_HS_s_RPR.SPARE). Log 6. -/
opaque spareRows : Nat → BitVec 16

/-- The width of the boundary register, given by the BSDL file and not by the spec (R520). Log 7. -/
opaque bsrLen : Nat

/-- PPM_EST of a lane in a frame, which is measured (R90). Free; log 21. -/
opaque ppmEst : Nat → Nat → BitVec 16

/-- Measured voltage and current of a core rail in a frame (PWR_AVS_k, R446). Free; log 21. -/
opaque avsMeas : Nat → Nat → Word

/-- Where the pool manager begins its search for a free buffer (R177), by the number of choices so far. Free; log 86. -/
opaque bufFirst : Nat → Nat

/-- The request a receiver makes of its partner's transmitter (R93), by lane and number of choices so far: the spec gives no
algorithm. Free; log 87. -/
opaque tapAsk : Nat → Nat → BitVec 16

end Sys2Proof.Config
end

