-- ==== Sys2Proof/Machine/Pcs.lean ====
section
/-! DEFINITION. What a lane's bits mean: PAM4 levels (R76), RS(544,514) codewords (R78, R81), their layout and scrambling (R79, R80),
blocks (R82, R111, R112), the link sideband word (R84, R93, R124, R135), lock (R91, R92), test patterns (R105) and injection (R107). -/

namespace Sys2Proof.Machine

/-! ## PAM4 (R76) -/

/-- The level of a pair of bits, the first the more significant: 00b, 01b, 11b, 10b are levels 0 to 3. -/
def pamLevel (first second : Bool) : BitVec 2 :=
  match first, second with
  | false, false => 0
  | false, true => 1
  | true, true => 2
  | true, false => 3

/-- The 2,720 levels by which a codeword's 5,440 bits are sent. -/
def pamLevels (w : BitVec 5440) : List (BitVec 2) :=
  (List.range 2720).map (fun k => pamLevel (w.getLsbD (2 * k)) (w.getLsbD (2 * k + 1)))

/-! ## The field of 1,024 elements (R78; PRESUMED, log 82) -/

/-- Multiplication by the root α of x^10 + x^3 + 1. -/
def gfDouble (a : Nat) : Nat := if a < 512 then 2 * a else (2 * a) ^^^ 0x409

/-- The product of two elements: the bits of `b` from the highest, by Horner's rule. -/
def gfMul (a b : Nat) : Nat :=
  [9, 8, 7, 6, 5, 4, 3, 2, 1, 0].foldl (fun r i => gfDouble r ^^^ (if b.testBit i then a else 0)) 0

/-- α^n. -/
def gfAlpha : Nat → Nat
  | 0 => 1
  | n + 1 => gfDouble (gfAlpha n)

/-- The inverse: a^1022, the product of a^2, a^4, ..., a^512. -/
def gfInv (a : Nat) : Nat :=
  ((List.range 9).foldl (fun (m : Nat × Nat) _ => let q := gfMul m.1 m.1; (q, gfMul m.2 q)) (a, 1)).2

/-! ## RS(544,514) (R78, R81) -/

/-- Multiply a polynomial, highest coefficient first, by (x + r). -/
def polyTimes (r : Nat) (p : List Nat) : List Nat :=
  List.zipWith (· ^^^ ·) (p ++ [0]) (0 :: p.map (fun c => gfMul r c))

/-- The generator polynomial (x + 1)(x + α)...(x + α^29), highest coefficient first. -/
def rsGen : List Nat := (List.range 30).foldl (fun p j => polyTimes (gfAlpha j) p) [1]

/-- The number of a list of symbols, the first sent lowest. -/
def symbolsNat (l : List Nat) : Nat := l.foldr (fun s n => s + 1024 * n) 0

/-- The generator's lower coefficients times α^b, as 300-bit numbers: what bit `b` of a feedback symbol adds to the remainder. -/
def rsTaps : List Nat := (List.range 10).map (fun b => symbolsNat (rsGen.tail.map (gfMul (gfAlpha b))))

/-- The 30 parity symbols of a message, in the order in which they are sent: the remainder of m(x) x^30 by the generator, the highest
coefficient lowest in the number. -/
def rsParity (msg : List Nat) : Nat :=
  let taps := rsTaps.zipIdx
  msg.foldl (fun rem s =>
    let f := s ^^^ (rem % 1024)
    taps.foldl (fun r t => if f.testBit t.2 then r ^^^ t.1 else r) (rem >>> 10)) 0

/-- The 10-bit symbols of a number of `n` symbols, first sent first. -/
def symbolsOf (n w : Nat) : List Nat := (List.range n).map (fun s => (w >>> (10 * s)) % 1024)

/-- A codeword of 5,140 message bits. -/
def rsEncode (m : BitVec 5140) : BitVec 5440 :=
  BitVec.ofNat 5440 (m.toNat + 2 ^ 5140 * rsParity (symbolsOf 514 m.toNat))

/-- The value of a received word, highest coefficient first, at α^j. -/
def rsAt (w : List Nat) (j : Nat) : Nat := let a := gfAlpha j; w.foldl (fun v s => gfMul v a ^^^ s) 0

/-- The 30 syndromes. -/
def syndromes (w : List Nat) : List Nat := (List.range 30).map (rsAt w)

/-- A polynomial, lowest coefficient first, at a point. -/
def polyAt (p : List Nat) (x : Nat) : Nat := p.foldr (fun c v => gfMul v x ^^^ c) 0

/-- The sum of two polynomials, lowest coefficient first. -/
def polyAdd : List Nat → List Nat → List Nat
  | [], q => q
  | p, [] => p
  | a :: p, b :: q => (a ^^^ b) :: polyAdd p q

/-- What the search for the error locator carries: the locator, the last one that was too short with its discrepancy, how many
steps ago, and the locator's degree. -/
structure Locator where
  now : List Nat := [1]
  old : List Nat := [1]
  disc : Nat := 1
  gap : Nat := 1
  deg : Nat := 0

/-- Take one more syndrome in. -/
def Locator.next (syn : List Nat) (x : Locator) (n : Nat) : Locator :=
  let d := (List.range (x.deg + 1)).foldl (fun s i => s ^^^ gfMul (x.now.getD i 0) (syn.getD (n - i) 0)) 0
  if d = 0 then { x with gap := x.gap + 1 }
  else
    let f := gfMul d (gfInv x.disc)
    let mended := polyAdd x.now (List.replicate x.gap 0 ++ x.old.map (gfMul f))
    if 2 * x.deg ≤ n then { now := mended, old := x.now, disc := d, gap := 1, deg := n + 1 - x.deg }
    else { x with now := mended, gap := x.gap + 1 }

/-- The places of the errors: the powers of α, as exponents, whose inverse is a root of the locator. -/
def errorPlaces (loc : List Nat) : List Nat :=
  (List.range 544).filter (fun e => polyAt loc (gfInv (gfAlpha e)) == 0)

/-- The error at α^e, by the locator and the syndromes. -/
def errorValue (loc syn : List Nat) (e : Nat) : Nat :=
  let x := gfInv (gfAlpha e)
  let omega := (List.range 30).map (fun n =>
    (List.range (n + 1)).foldl (fun s i => s ^^^ gfMul (loc.getD i 0) (syn.getD (n - i) 0)) 0)
  let slope := (loc.zipIdx.filter (fun c => c.2 % 2 == 1)).foldl (fun s c =>
    s ^^^ gfMul c.1 ((List.range (c.2 - 1)).foldl (fun v _ => gfMul v x) 1)) 0
  gfMul (gfMul (gfAlpha e) (polyAt omega x)) (gfInv slope)

/-- Decode a received codeword: the corrected word and the symbols corrected, none where it is uncorrectable (R81). -/
def rsDecode (w : BitVec 5440) : Option (BitVec 5440 × Nat) :=
  let syms := symbolsOf 544 w.toNat
  if rsParity (syms.take 514) = w.toNat >>> 5140 then some (w, 0)
  else
    let syn := syndromes syms
    let x := (List.range 30).foldl (Locator.next syn) {}
    let places := errorPlaces x.now
    if 15 < x.deg ∨ places.length ≠ x.deg then none
    else
      let mended := syms.zipIdx.map (fun c =>
        let e := 543 - c.2
        if e ∈ places then c.1 ^^^ errorValue x.now syn e else c.1)
      if (syndromes mended).all (· == 0) then some (BitVec.ofNat 5440 (symbolsNat mended), x.deg) else none

/-! ## Scrambling (R80) -/

/-- Scramble or descramble `39 n` bits (the last bits of `d` may be short): history `h` holds the last 58 bits as sent, the oldest in
bit 0. Each bit takes the ones sent 58 and 39 before it. `back` descrambles. -/
def scramBits (back : Bool) : Nat → Nat → Nat → Nat → Nat × Nat
  | 0, h, _, _ => (0, h)
  | n + 1, h, left, d =>
    let k := min 39 left
    let i := d % 2 ^ k
    let o := (i ^^^ (h >>> 19) ^^^ h) % 2 ^ k
    let sent := if back then i else o
    let r := scramBits back n ((h + 2 ^ 58 * sent) >>> k) (left - k) (d >>> k)
    (o + 2 ^ k * r.1, r.2)

/-- Scramble the 5,102 payload and sideband bits of one codeword. -/
def scramble (h : BitVec 58) (d : Nat) : Nat × BitVec 58 := let r := scramBits false 131 h.toNat 5102 d; (r.1, BitVec.ofNat 58 r.2)
def descramble (h : BitVec 58) (d : Nat) : Nat × BitVec 58 := let r := scramBits true 131 h.toNat 5102 d; (r.1, BitVec.ofNat 58 r.2)

/-! ## Blocks (R82, R111, R112) -/

/-- A block: its header and payload. -/
abbrev Block := BitVec 2 × BitVec 256

/-- A data block and a control block; the first bit sent of a header is its bit 0 (log 83). -/
def dataBlk (p : BitVec 256) : Block := (1, p)
def ctlBlk (p : Nat) : Block := (2, BitVec.ofNat 256 p)

/-- FILL, TRAIN with a countdown, and EI_ENTER. -/
def fillBlk : Block := ctlBlk 0
def trainBlk (n : Nat) : Block := ctlBlk (2 + 256 * n)
def eiBlk : Block := ctlBlk 3

/-- Type of a control block. -/
def Block.type (b : Block) : Nat := b.2.toNat % 256
def isData (b : Block) : Bool := b.1 == 1
def isFill (b : Block) : Bool := b.1 == 2 && b.2 == 0
def isLinkCtl (b : Block) : Bool := b.1 == 2 && decide (0x10 ≤ Block.type b ∧ Block.type b < 0x80)

/-- The header is 01b or 10b (R82). -/
def headerOk (b : Block) : Bool := b.1 == 1 || b.1 == 2

/-- An invalid header, or a control block of an undefined type: what the lane discards and counts (R83). -/
def blkBad (b : Block) : Bool :=
  ! headerOk b || (b.1 == 2 && ((Block.type b == 1) || decide (4 ≤ Block.type b ∧ Block.type b < 0x10) || decide (0x80 ≤ Block.type b)))

/-- A received link control block of a reserved type (R111). -/
def typeReserved (b : Block) : Bool := b.1 == 2 && decide (0x15 ≤ Block.type b ∧ Block.type b < 0x80)

/-- Payload of a link control block (R111). -/
def upReadyBlk : Nat := 0x11
def probeBlk (n : Nat) : Nat := 0x12 + 256 * (n % 8)
def replyBlk (n turnaround : Nat) : Nat := 0x13 + 256 * (n % 8) + 2 ^ 16 * (turnaround % 2 ^ 16)
def protoErrBlk (code count fno : Nat) (quar : Bool) : Nat :=
  0x14 + 256 * (code % 256) + 2 ^ 16 * min count 255 + 2 ^ 24 * (fno % 2 ^ 16) + 2 ^ 40 * b2n quar

/-- A number with fields of (place, width, value). -/
def packed (l : List (Nat × Nat × Nat)) : Nat := (l.map (fun f => (f.2.2 % 2 ^ f.2.1) <<< f.1)).sum

/-- The IDENT block of an identity, and what a received one says (R112). -/
def identBlk (i : Ident) : Nat :=
  packed [(194, 3, i.dir.toNat), (185, 9, i.roleLane0.toNat), (176, 9, i.lane0.toNat), (172, 2, i.trayPos.toNat),
    (160, 12, i.coord.toNat), (128, 32, i.fwVer.toNat), (112, 16, i.lproto.toNat), (96, 16, i.part.toNat), (80, 16, i.vendor.toNat),
    (16, 64, i.serial.toNat), (11, 1, b2n i.remap), (10, 1, b2n i.coordV), (9, 1, b2n i.stomp), (8, 1, b2n i.switch), (0, 8, 0x10)]
def identOf (b : BitVec 256) : Ident :=
  { dir := b.extractLsb' 194 3, roleLane0 := b.extractLsb' 185 9, lane0 := b.extractLsb' 176 9, trayPos := b.extractLsb' 172 2
    coord := b.extractLsb' 160 12, fwVer := b.extractLsb' 128 32, lproto := b.extractLsb' 112 16, part := b.extractLsb' 96 16
    vendor := b.extractLsb' 80 16, serial := b.extractLsb' 16 64, remap := b.getLsbD 11, coordV := b.getLsbD 10
    stomp := b.getLsbD 9, switch := b.getLsbD 8 }

/-! ## The link sideband word (R84, R93, R124, R135) -/

/-- The fields of a sideband word. -/
structure Lsw where
  eqiEcho : BitVec 8 := 0
  txeqAck : BitVec 8 := 0
  txeqReq : BitVec 16 := 0
  bad1 : Option (BitVec 12) := none
  bad0 : Option (BitVec 12) := none
  upToV : Bool := false
  upTo : BitVec 12 := 0
  markFrame : BitVec 16 := 0
  markCycle : BitVec 8 := 0
  ack : BitVec 12 := 0
  rop : BitVec 2 := 0
  reqId : BitVec 6 := 0
  xoff : BitVec 16 := 0
  idle : BitVec 2 := 0
  fillMap : BitVec 19 := 0
  cwSeq : BitVec 8 := 0
  width : BitVec 3 := 0
  laneInPort : BitVec 4 := 0
  deriving DecidableEq, Repr

/-- A VERD_BAD field: [12] valid, [11:0] the tag. -/
def badField (t : Option (BitVec 12)) : Nat := match t with | some x => 4096 + x.toNat | none => 0
def badOf (w : BitVec 13) : Option (BitVec 12) := if w.getLsbD 12 then some (w.extractLsb' 0 12) else none

def Lsw.bits (w : Lsw) : BitVec 238 :=
  BitVec.ofNat 238 (packed [(165, 8, w.eqiEcho.toNat), (157, 8, w.txeqAck.toNat), (141, 16, w.txeqReq.toNat), (128, 13, badField w.bad1),
    (115, 13, badField w.bad0), (114, 1, b2n w.upToV), (102, 12, w.upTo.toNat), (86, 16, w.markFrame.toNat), (78, 8, w.markCycle.toNat),
    (66, 12, w.ack.toNat), (64, 2, w.rop.toNat), (58, 6, w.reqId.toNat), (38, 16, w.xoff.toNat), (35, 2, w.idle.toNat),
    (16, 19, w.fillMap.toNat), (8, 8, w.cwSeq.toNat), (4, 3, w.width.toNat), (0, 4, w.laneInPort.toNat)])

def lswOf (b : BitVec 238) : Lsw :=
  { eqiEcho := b.extractLsb' 165 8, txeqAck := b.extractLsb' 157 8, txeqReq := b.extractLsb' 141 16, bad1 := badOf (b.extractLsb' 128 13)
    bad0 := badOf (b.extractLsb' 115 13), upToV := b.getLsbD 114, upTo := b.extractLsb' 102 12, markFrame := b.extractLsb' 86 16
    markCycle := b.extractLsb' 78 8, ack := b.extractLsb' 66 12, rop := b.extractLsb' 64 2, reqId := b.extractLsb' 58 6
    xoff := b.extractLsb' 38 16, idle := b.extractLsb' 35 2, fillMap := b.extractLsb' 16 19, cwSeq := b.extractLsb' 8 8
    width := b.extractLsb' 4 3, laneInPort := b.extractLsb' 0 4 }

/-! ## Codewords (R79, R80, R91, R92) -/

/-- The payloads of 19 blocks and the sideband word as one number, first bit sent first. -/
def bodyNat (blks : List Block) (lsw : BitVec 238) : Nat :=
  (blks.zipIdx.map (fun b => b.1.2.toNat <<< (256 * b.2))).sum + lsw.toNat <<< 4864

/-- A codeword of 19 blocks and a sideband word: payloads and sideband word scrambled, headers not, parity over all as sent. -/
def codeword (h : BitVec 58) (blks : List Block) (lsw : BitVec 238) : BitVec 5440 × BitVec 58 :=
  let (s, h1) := scramble h (bodyNat blks lsw)
  let laid := (blks.zipIdx.map (fun b => b.1.1.toNat <<< (258 * b.2) + ((s >>> (256 * b.2)) % 2 ^ 256) <<< (258 * b.2 + 2))).sum
  (rsEncode (BitVec.ofNat 5140 (laid + (s >>> 4864) <<< 4902)), h1)

/-- The 19 headers of a codeword, as received. -/
def headersOf (w : BitVec 5440) : List (BitVec 2) := (List.range 19).map (fun i => w.extractLsb' (258 * i) 2)

/-- The blocks and the sideband word of a codeword, descrambled. -/
def openWord (h : BitVec 58) (w : BitVec 5440) : List Block × BitVec 238 × BitVec 58 :=
  let s := ((List.range 19).map (fun i => (w.extractLsb' (258 * i + 2) 256).toNat <<< (256 * i))).sum +
    (w.extractLsb' 4902 238).toNat <<< 4864
  let (d, h1) := descramble h s
  ((headersOf w).zipIdx.map (fun x => (x.1, BitVec.ofNat 256 (d >>> (256 * x.2)))), BitVec.ofNat 238 (d >>> 4864), h1)

/-- Headers checked one by one: the number checked so far, and the ordinals of the invalid among the last 1,024 (R92). -/
def headerRun (m : Nat × List Nat) (hs : List (BitVec 2)) : Nat × List Nat :=
  hs.foldl (fun m h =>
    let kept := m.2.filter (fun i => decide (m.1 < i + 1024))
    (m.1 + 1, if h == 1 || h == 2 then kept else kept ++ [m.1])) m

/-- Consecutive valid headers at a candidate position; the first invalid one abandons it (R91). -/
def lockRun (n : Nat) (hs : List (BitVec 2)) : Nat := hs.foldl (fun n h => if h == 1 || h == 2 then n + 1 else 0) n

/-! ## Test patterns and injection (R105, R107) -/

/-- One bit of PRBS13 (x^13 + x^12 + x^2 + x + 1; PRESUMED, log 84) or PRBS31, and the register after it; the newest bit is bit 0. -/
def prbsStep (wide : Bool) (r : Nat) : Bool × Nat :=
  let b := if wide then Bool.xor (r.testBit 30) (r.testBit 27)
    else Bool.xor (Bool.xor (r.testBit 12) (r.testBit 11)) (Bool.xor (r.testBit 1) (r.testBit 0))
  (b, (2 * r + b2n b) % 2 ^ 31)

/-- `n` levels of a pattern from a register: PRBS13Q, PRBS31, or USER, whose register counts the bits sent of its 64. -/
def patternRun (kind : Nat) (user : Nat) : Nat → Nat → List (BitVec 2) × Nat
  | 0, r => ([], r)
  | n + 1, r =>
    let (a, b, r2) := if kind = 3 then (user.testBit (r % 64), user.testBit ((r + 1) % 64), (r + 2) % 64)
      else
        let x := prbsStep (kind == 2) r
        let y := prbsStep (kind == 2) x.2
        (x.1, y.1, y.2)
    let rest := patternRun kind user n r2
    (pamLevel a b :: rest.1, rest.2)

/-- RS symbols 0, 17, 34, ... of a codeword, `n` of them, with all 10 bits inverted. -/
def invertSymbols (n : Nat) (w : BitVec 5440) : BitVec 5440 :=
  w ^^^ BitVec.ofNat 5440 (((List.range n).map (fun i => 1023 <<< (170 * i))).sum)

/-- Levels 0, 17, 34, ... of a generated stretch, `n` of them, moved from L to 3 - L (which of them is log 85). -/
def invertLevels (n : Nat) (l : List (BitVec 2)) : List (BitVec 2) :=
  l.zipIdx.map (fun x => if x.2 % 17 = 0 ∧ x.2 / 17 < n then 3 - x.1 else x.1)

/-! ## Eye quality (R96) -/

/-- Bins occupied by a level: at least 2 of its samples. -/
def occupied (h : List (Byte × Nat)) : List Nat := (h.filter (fun e => decide (2 ≤ e.2))).map (fun e => e.1.toNat)

/-- An eye's opening: between the lowest bin of the upper level and the highest bin of the lower one. -/
def eyeOpen (up low : List (Byte × Nat)) : Nat :=
  (occupied up).foldl min 256 - (occupied low).foldl max 0 - 1

/-- EQI of three openings. -/
def eqiOf (o1 o2 o3 : Nat) : Nat := min 255 (4 * min o1 (min o2 o3))

end Sys2Proof.Machine
end

