-- ==== Sys2Proof/Machine/SMap.lean ====
section
/-! DEFINITION. Finite maps from numbers in one canonical form: keys strictly rising, and no entry equal to what an
unlisted key reads as. Registers, lanes, ports, tables and Basin's bytes are kept this way, so that equal contents
are equal data. -/

namespace Sys2Proof.Machine

/-- What key `k` holds, or `d` where it is unlisted. -/
def mapGet {α : Type} (d : α) : List (Nat × α) → Nat → α
  | [], _ => d
  | (a, v) :: m, k => if a = k then v else mapGet d m k

/-- Remove key `k`. -/
def mapErase {α : Type} : List (Nat × α) → Nat → List (Nat × α)
  | [], _ => []
  | (a, v) :: m, k => if a = k then mapErase m k else (a, v) :: mapErase m k

/-- Enter `v` at key `k`, in rising order. -/
def mapPut {α : Type} : List (Nat × α) → Nat → α → List (Nat × α)
  | [], k, v => [(k, v)]
  | (a, w) :: m, k, v =>
    if k < a then (k, v) :: (a, w) :: m
    else if a = k then (k, v) :: m
    else (a, w) :: mapPut m k v

/-- Write `v` at key `k`; `d` is what an unlisted `k` reads as. -/
def mapSet {α : Type} [DecidableEq α] (d : α) (m : List (Nat × α)) (k : Nat) (v : α) : List (Nat × α) :=
  if v = d then mapErase m k else mapPut m k v

/-- Every key of the map is above `b`, and keys strictly rise. -/
def risingFrom {α : Type} : Nat → List (Nat × α) → Bool
  | _, [] => true
  | b, (a, _) :: m => decide (b ≤ a) && risingFrom (a + 1) m

/-- The canonical form of a map whose unlisted keys read as `d`. -/
def mapWf {α : Type} [DecidableEq α] (d : α) (m : List (Nat × α)) : Bool :=
  risingFrom 0 m && m.all (fun e => decide (e.2 ≠ d))

end Sys2Proof.Machine
end

