-- ==== Sys2Proof/Machine/State.lean ====
section
/-! DEFINITION. The state of the block, as plain data. `Dev` is what a reset of the package clears, `Nv` what flash and
fuses keep, `mem` the bytes of Basin; `pending` is the queue of commands, first in, first out. -/

namespace Sys2Proof.Machine

/-- Reasons to stop with a fault. No meaning raises one: the spec gives the block no stuck state. -/
inductive Fault where
  /-- Raised by no meaning; it stands for the outcome type of the interface. Safe: nothing can reach it. -/
  | unreachable
  deriving DecidableEq, Repr

/-- Reasons to refuse a command. -/
inductive Refusal where
  /-- Raised by an arm of `exec` whose command has no meaning yet. Safe: nothing is concluded of it. -/
  | notModelled (mnemonic : String)
  deriving DecidableEq, Repr

/-- Alignment states of the frame (FRM_STAT.STATE, R51). -/
inductive FrmSt where
  | free | locked | holdover | lost
  deriving DecidableEq, Repr

/-- State of a die, stack or bridge (R40). -/
inductive PartSt where
  | off | init | up | fault
  deriving DecidableEq, Repr

/-- Lane states (R98). -/
inductive LaneSt where
  | off | adapt | hunt | tune | ready | service | ei | wake | test | fault
  deriving DecidableEq, Repr

/-- Port states (R113). -/
inductive PortSt where
  | down | exchange | check | up | quar | disabled
  deriving DecidableEq, Repr

/-- The frame counter and its alignment (R44-R54). -/
structure Frm where
  /-- The 48-bit frame number. -/
  no : BitVec 48 := 0
  st : FrmSt := .free
  /-- Frames begun since the reset, and the core cycles by which a stretched frame was longer than 256, by its ordinal: what bounds
  and timeouts are timed by (R48, R50). -/
  elapsed : Nat := 0
  extra : List (Nat × Nat) := []
  /-- Core cycles of the frame in progress (R48). -/
  len : Nat := 256
  /-- Number of the next frame where an armed pulse has set it (R48). -/
  nextNo : Option (BitVec 48) := none
  /-- FRM_TSKEW as the last armed pulse took it. -/
  skew : BitVec 6 := 0
  /-- Expected edges passed in a row without a pulse. -/
  missRun : Nat := 0
  /-- RACKCLK has been back for 1,024 periods: FREE at the next boundary (R51). -/
  rackBack : Bool := false
  /-- FRM_NO_HI as latched for the trail port, Obvo and Col (R54). -/
  latTrail : BitVec 16 := 0
  latObvo : BitVec 16 := 0
  latCol : BitVec 16 := 0
  deriving DecidableEq, Repr

/-- One lane (R76-R108). -/
structure Lane where
  st : LaneSt := .off
  /-- The receiver is idle, and signal is present (R99, R102). -/
  rxEi : Bool := false
  sig : Bool := false
  eqi : BitVec 8 := 0
  eqiLow : BitVec 8 := 0
  /-- No update since the lane entered TUNE; its receiver has locked on a wake burst, or in far-end loopback (R96, R102, R106). -/
  eqiNew : Bool := false
  rxLock : Bool := false
  /-- Consecutive updates at or above the threshold in TUNE, or below it in service (R97). -/
  run : Nat := 0
  /-- Taps c(-2), c(-1), c(0), c(+1) (R94); preset 4 at reset. -/
  taps : List Int := [0, -6, 47, -10]
  /-- TXEQ_ACK being sent, the last REQ_ID answered, and the device's own TXEQ_REQ (R93). -/
  ack : BitVec 8 := 0
  lastReq : Option (BitVec 6) := none
  ask : BitVec 16 := 0
  /-- LANE condition 0Bh was raised in this training (R94). -/
  limited : Bool := false
  /-- Consecutive training timeouts, and the frame (elapsed) of entry to ADAPT of a lane not READY since (R99). -/
  timeouts : Nat := 0
  tAdapt : Option Nat := none
  chkLock : Bool := false
  /-- Injection in progress: codewords left, none for continuous (R107). -/
  inj : Option (Option Nat) := none
  /-- Codewords of this frame whose corruption LANE_INJ_END has already counted (R107). -/
  injOwed : Nat := 0
  /-- Frame (elapsed, plus 1) of the last GO that started one, and in which the lane last left SERVICE (R108). -/
  tInj : Nat := 0
  tLeft : Nat := 0
  /-- Consecutive valid headers at the candidate position (R91); headers checked since lock, and the ordinals of the invalid among
  the last 1,024 (R92). -/
  found : Nat := 0
  headers : Nat × List Nat := (0, [])
  /-- The last 58 scrambled bits sent and received (R80). -/
  txScr : BitVec 58 := 0
  rxScr : BitVec 58 := 0
  /-- Occupancy of the elastic buffer in 1/8,192 block, and the core cycle of the last column (R90). -/
  level : Nat := 0
  levelAt : Nat := 0
  /-- Register of the pattern generator (R105). -/
  gen : Nat := 1
  /-- The transmitter sends, and is not in electrical idle (R98). -/
  sending : Bool := false
  /-- Far-end loopback: blocks to be sent back and the last sideband word received (R106). -/
  back : List Block := []
  backLsw : BitVec 238 := 0
  deriving DecidableEq, Repr

/-- One cell of a replay buffer (R125): its RSEQ, its tag, the packet and which of its cells it is, and whether its verdict was bad. -/
structure RCell where
  rseq : BitVec 12
  tag : BitVec 12
  pid : Nat
  idx : Nat
  pk : Packet
  bad : Bool
  /-- Its packet was counted as a drop already, or as a stomp (R128, R191). -/
  counted : Bool := false
  deriving DecidableEq, Repr

/-- A change of a port's state that waits for the next boundary (R113). -/
inductive Due where
  | down | exchange | check | up
  | quar (cause : Nat)
  /-- Quarantined as one of a swapped pair with another port (R121). -/
  | swapped (q : Nat)
  deriving DecidableEq, Repr

/-- What waits in a port's block stream: a block, or the place where a replay starts (R127). -/
inductive TxItem where
  | blk (b : Block)
  | start (id : BitVec 6)
  deriving DecidableEq, Repr

/-- One port (R111-R138, R101-R104, R53). -/
structure Port where
  st : PortSt := .down
  /-- QCAUSE (R123). -/
  cause : Nat := 0
  /-- Changes of state due at the next boundary (R113). -/
  due : List Due := []
  /-- The port whose role this port plays where a remap holds (R121). -/
  role : Option Nat := none
  fwDiff : Bool := false
  /-- Established identity, and the last IDENT not yet repeated (R115). -/
  ident : Option Ident := none
  cand : Option Ident := none
  /-- The one REMAP change of ROLE_LANE0 was taken (R122). -/
  remapSeen : Bool := false
  /-- Round trips measured, by probe number, and LINK_DELAY (R115). -/
  trips : List (Nat × Nat) := []
  delay : Option Nat := none
  decided : Bool := false
  upReady : Bool := false
  /-- Waiting in CHECK for the evaluation of the other port of a possible pair, or for its partner's REMAP (R121). -/
  swapWait : Option Nat := none
  remapWait : Option Nat := none
  /-- Frame (elapsed) of entry to EXCHANGE, CHECK, of the decision, of the last time out of UP, of QUAR. -/
  tExch : Nat := 0
  tCheck : Nat := 0
  tDecide : Nat := 0
  tOut : Nat := 0
  tQuar : Nat := 0
  /-- Frames of EXCHANGE that R115's wait does not count (R116). -/
  tWaited : Nat := 0
  /-- Was in UP after the last activation (R227), and missing under R390. -/
  wasUp : Bool := false
  missing : Bool := false
  /-- CAUSE of a LINK_QCLR that waits for the activation of its frame (R141). -/
  qclrHeld : Option Nat := none
  violCount : Nat := 0
  /-- Violation codes announced in this frame (R136). -/
  protoSent : List Nat := []
  /-- Receive side of retry (R124, R126): what is acknowledged, tag and RSEQ of the next packet's first cell, cells that have arrived
  (R86), data blocks of the cell in progress; the REQ outstanding, the ACK_RSEQ it carries, the ACK_RSEQ of the run of REQ_IDs, and
  whether the column that answers it has arrived. -/
  ackRseq : BitVec 12 := 0
  rxTag : BitVec 12 := 0
  rxNext : BitVec 12 := 0
  rxSeen : BitVec 12 := 0
  rxBlocks : Nat := 0
  reqId : BitVec 6 := 0
  reqOpen : Bool := false
  reqAck : BitVec 12 := 0
  reqTries : Nat := 0
  reqFor : Option (BitVec 12) := none
  resumed : Bool := false
  reqAt : Nat := 0
  /-- Send side of retry (R125, R127). -/
  sndRseq : BitVec 12 := 0
  txTag : BitVec 12 := 0
  replay : List RCell := []
  served : Option (BitVec 6) := none
  fullSeen : Bool := false
  /-- Tags of stomped cells still to be named to the partner; cells sent whose verdict is still to come, by tag and packet
  (R72, R86). -/
  badTags : List (BitVec 12) := []
  unsure : List (BitVec 12 × Nat) := []
  /-- FC_XOFF last decoded and being sent (R131, R130). -/
  rxXoff : BitVec 16 := 0
  txXoff : BitVec 16 := 0
  /-- Key of the queue entry whose train is in progress, and its cells sent. -/
  train : Option Nat := none
  cellsSent : Nat := 0
  /-- Link control blocks that wait to be sent (R133), by payload. -/
  ctlBlocks : List Nat := []
  /-- The block stream not yet laid out in columns; block slots since the last link control block (R133); slots of a lane since its
  last FILL (R89); columns sent since the port entered EXCHANGE or CHECK, or decided UP (R111, R115, R119). -/
  stream : List TxItem := []
  sinceCtl : Nat := 64
  sinceFill : Nat := 0
  columns : Nat := 0
  /-- The next TIME_PROBE (R115). -/
  probe : Nat := 0
  /-- ACK_RSEQ as last sent (R517). -/
  ackSent : BitVec 12 := 0
  /-- Round robin over LL-COLL, LL-MEM, LL-GEN, BE, SMP: class served, whether its visit is open, deficits, and the VC
  position from which each class is served next (R134). -/
  rr : Nat := 0
  visiting : Bool := false
  deficit : List Int := [0, 0, 0, 0, 0]
  vcLast : List Nat := [0, 0, 0, 0, 0]
  /-- CTL cells begun in this frame (R185). -/
  ctlBegun : Nat := 0
  /-- Transmitter in electrical idle, the codeword that announces it still to be sent, the frame of a wake in progress, the frame in
  which a packet first found no room, frames idle so far, and whether a cell was queued in this frame (R101, R103). -/
  txEi : Bool := false
  eiSend : Bool := false
  wakeAt : Option Nat := none
  wakeDue : Option Nat := none
  idle : Nat := 0
  busy : Bool := false
  /-- Signal energy returned to an idle receiver in this frame; its lanes are deskewed (R102). -/
  rxWakeAt : Option Nat := none
  rxDeskew : Bool := false
  /-- CORR stopped for a frame marker out of place, and the words in place since (R53). -/
  skewed : Bool := false
  skewGood : Nat := 0
  deriving DecidableEq, Repr

/-- What becomes of a packet the device originates when its last cell is sent, or when it is discarded. -/
inductive Use where
  | plain
  /-- A read segment or completion of request slot `slot` (R346). -/
  | cpl (slot : Nat)
  /-- A segment of the partial of a chunk (R258). -/
  | part (g c : Nat)
  /-- A combined token: slot and combine state key (R320). -/
  | comb (r key : Nat)
  /-- An admitted Fan copy for an expert (R310, R323). -/
  | copy (r : Nat)
  /-- A packet of pattern source `s` (R509). -/
  | pat (s : Nat)
  deriving DecidableEq, Repr

/-- Why a packet is discarded: a PKT condition of R157, UNREACH (R204), or a cause of R191. -/
inductive Cause where
  | pkt (c : Nat)
  | unreach
  | tail | stage | quota | corrSlot | notAligned | portDown | trainLong | flush | linkLost | overrun | deviceFault
  /-- CORR_SLOT drops that raise ROUTE 04h too (R215), and those of a cluster, which raise CAT 19h and abort (R242). -/
  | corrMis
  | catNoRoom
  /-- A copy suppressed toward a fenced port, counted under R292. -/
  | fenced
  /-- Drain residue (R224): a FLUSH drop whose operation aborts with a ROUTE 08h word (R479). -/
  | residue (n : Nat)
  deriving DecidableEq, Repr

/-- What a drop is counted against: ingress port, output port, and class. -/
structure Drop where
  cause : Cause
  /-- True: the output port; false: the ingress port. -/
  atOut : Bool
  port : Nat
  /-- Cells counted, 0 for the whole packet. -/
  cells : Nat := 0
  deriving DecidableEq, Repr

/-- One output of a packet: a port, or a direction group (0 for none), with the VC it leaves on. -/
structure Tgt where
  port : Option Nat
  dir : Nat
  vc : Nat
  deriving DecidableEq, Repr

/-- Where a packet stands. -/
inductive PkSt where
  /-- In its ingress hold, or presenting. -/
  | hold
  /-- A held ORDER packet, and one released (R164). -/
  | ordHeld
  | released
  /-- Waiting in its hold for the local engine, Basin or Col that consumes it. -/
  | engine
  /-- Accepted by a Catchment cluster (R241) or opened as a token (R307). -/
  | taken
  | parked
  /-- Discarded provisionally: what is to be counted at its confirmation (R71). -/
  | dropped (d : Drop)
  /-- Accepted toward every output. -/
  | accepted
  /-- Every copy of it was suppressed or discarded (R187). -/
  | settled
  deriving DecidableEq, Repr

/-- A packet in the device. -/
structure Pkt where
  id : Nat
  ing : Option Nat
  /-- It came from a Sloten partner; it is one of Col's. -/
  fromSw : Bool := false
  fromCol : Bool := false
  pk : Packet
  /-- The header as it arrived, where the device has changed it. -/
  arr : Option Header := none
  conf : Bool := false
  /-- The partner's verdict is good, or none is needed. -/
  verd : Bool := true
  /-- Tag and RSEQ of its first cell on the link it came by. -/
  tag0 : BitVec 12 := 0
  rseq0 : BitVec 12 := 0
  st : PkSt := .hold
  tgts : List Tgt := []
  use : Use := .plain
  /-- Port a BAS_CPL's request arrived on, for R215 (R340). -/
  cin : Option Nat := none
  /-- Drops of copies, counted at its confirmation (R71, R187, R220). -/
  dues : List Drop := []
  /-- A count of its ORDER tracker is owed at its confirmation (R164): port and parity. -/
  owed : Option (Nat × Bool) := none
  /-- Copies whose last bit was sent before its confirmation: port, packet as sent, and the frame of its stamp (R490, R512). -/
  sentOn : List (Nat × Packet × Nat) := []
  /-- Frame (elapsed) in which it was held. -/
  since : Nat := 0
  /-- Number of the frame in which it arrived, for its capture record (R512). -/
  stamp : Nat := 0
  /-- The ring copy or the root's copy handling of R220 was done: it is a multicast. -/
  mcast : Bool := false
  /-- How far its engine has taken it: 0 not yet, 1 what it brings is taken into account, 2 past Basin's tests (R336). -/
  rank : Nat := 0
  deriving DecidableEq, Repr

/-- A packet queued at an output (R182, R186). -/
structure QEnt where
  key : Nat
  pid : Nat
  out : Nat
  cls : Nat
  vc : Nat
  n : Nat
  charge : Nat
  /-- Drawn on the budget of frame (elapsed) `draw`; accepted in frame `acc`. -/
  draw : Nat
  acc : Nat
  cid : Nat
  ing : Option Nat
  pk : Packet
  conf : Bool
  begun : Bool := false
  /-- Number of the frame in which its train began, for its capture record (R512). -/
  stamp : Nat := 0
  stomped : Bool := false
  use : Use := .plain
  deriving DecidableEq, Repr

/-- What a packet holds of a pool of a die (R174, R178): for each of its cells the buffer's index and its reference count. -/
structure Buf where
  die : Nat
  pool : Nat
  pid : Nat
  cells : List (Nat × Nat)
  deriving DecidableEq, Repr

/-- An ORDER tracker (R164). -/
structure Trk where
  q : Bool := false
  k0 : Nat := 0
  k1 : Nat := 0
  deriving DecidableEq, Repr

/-- An armed change of routing or plat (R222, R227, R381). -/
structure Act where
  t : Nat
  drain : Nat
  /-- Overlay to switch to, and whether the staged amendment is applied. -/
  ovl : Option Nat := none
  amend : Bool := false
  classes : Nat := 0
  park : Bool := false
  byBypass : Bool := false
  structural : Bool := false
  first : Bool := false
  /-- A restore of the boot partition (R376). -/
  restore : Bool := false
  draining : Bool := false
  deriving DecidableEq, Repr

/-- One accumulator (R244-R247): the exact sum in units of the full form's LSB; flags; whether its slot has escaped;
and for MIN and MAX the extreme's encoding and scale. -/
structure Acc where
  v : Int := 0
  nan : Bool := false
  pinf : Bool := false
  ninf : Bool := false
  nzall : Bool := true
  esc : Bool := false
  seen : Bool := false
  ext : Nat := 0
  scale : Nat := 0
  deriving DecidableEq, Repr

/-- A contribution or partial segment a chunk has taken: the packet, its contributor (a port, or 128 + group), and
whether it has been added; its engine-cycles, and the frame (elapsed) of its acceptance (R243). -/
structure Taken where
  pid : Nat
  who : Nat
  added : Bool := false
  units : Nat := 0
  acc : Nat := 0
  deriving DecidableEq, Repr

/-- A confirmed segment of a partial: direction group, SEG_TOTAL, FIRST, COUNT, SEG_NO (R259), and what the slots of each MX block it
carries share: Q, or 256 where they are escaped (R249). -/
structure Seg where
  dir : Nat
  tot : Nat
  first : Nat
  cnt : Nat
  sno : Nat
  keys : List (Nat × Nat) := []
  deriving DecidableEq, Repr

/-- A retraction still to be done (R256): its place in the order of stomps, the packet, the values added by index, and its engine-cycles. -/
structure Retr where
  ord : Nat
  pid : Nat
  vals : List (Nat × Int)
  units : Nat
  deriving DecidableEq, Repr

/-- An open chunk (R263, R276). -/
structure Chunk where
  g : Nat
  c : Nat
  launch : BitVec 16
  spill : Bool
  accs : List Acc
  /-- Anchor Q of each MX block, none while unanchored (R245). -/
  anchors : List (Option Nat) := []
  taken : List Taken := []
  /-- Marks: contributor and frame bits [15:0] (R276). -/
  marks : List (Nat × BitVec 16) := []
  /-- Segments of partials confirmed. -/
  segs : List Seg := []
  retr : List Retr := []
  complete : Bool := false
  emitting : Bool := false
  /-- Partial segments not yet copied to the replay buffer. -/
  left : Nat := 0
  deriving DecidableEq, Repr

/-- Launch states of a catch group (R273). -/
inductive LaunchSt where
  | idle | armed | run | aborting | done | aborted
  deriving DecidableEq, Repr

/-- A launch descriptor (R271). -/
structure LDesc where
  resCid : Nat := 0
  resExpect : Bool := false
  resCorr : Bool := false
  resId : Nat := 0
  holdCeil : Nat := 0
  abortLead : Nat := 0
  treeSpan : Nat := 0
  stepF : Nat := 0
  start : Nat := 0
  nchunk : Nat := 0
  launch : BitVec 16 := 0
  group : Nat := 0
  deriving DecidableEq, Repr

/-- A catch group's launch at this device (R272-R293). -/
structure Launch where
  st : LaunchSt := .idle
  d : LDesc := {}
  /-- Chunks emitted; LOW; the chunks at or above LOW that are emitted (R275). -/
  emitted : Nat := 0
  low : Nat := 0
  above : List Nat := []
  copies : Nat := 0
  relayed : List Nat := []
  deadline : Nat := 0
  holdUsed : Nat := 0
  holds : Nat := 0
  fenced : Nat := 0
  flags : Nat := 0
  /-- The proposal held: abort frame and condition word (R287). -/
  prop : Option (Nat × Word) := none
  deriving DecidableEq, Repr

/-- States of a Fan round slot (R301). -/
inductive RoundSt where
  | idle | armed | open | closed | aborting | done | aborted
  deriving DecidableEq, Repr

/-- A position of a token (R307, R319). -/
inductive PosSt where
  | waiting | done | dropped
  deriving DecidableEq, Repr

/-- A round descriptor (R299). -/
structure RDesc where
  devmask : Nat := 0
  endLag : Nat := 0
  rankLag : Nat := 0
  close : Nat := 0
  start : Nat := 0
  abortLead : Nat := 0
  qregion : Nat := 0
  units : Nat := 0
  vfmt : Nat := 0
  sparseOk : Bool := false
  gfmt : Bool := false
  sat : Bool := false
  ranked : Bool := false
  slice : BitVec 8 := 0
  round : Nat := 0
  deriving DecidableEq, Repr

/-- The combine state of a token (R307, R318). -/
structure Combo where
  port : Nat
  token : Nat
  src : BitVec 16
  experts : List Nat
  gates : List Nat
  pos : List PosSt
  redirected : Nat := 0
  accs : List Acc
  /-- Outputs added and not yet confirmed: packet and position; outputs to subtract, with the frame (elapsed) of the stomp. -/
  taken : List (Nat × Nat) := []
  retr : List (Nat × Nat × List Int) := []
  sent : Bool := false
  deriving DecidableEq, Repr

/-- A copy at an expert's slice: held for RANK, deferred, or admitted and waiting for output (R310-R313). -/
inductive CopySt where
  | held | deferred | wait
  deriving DecidableEq, Repr

structure Copy where
  expert : Nat
  /-- Expert the source dispatched to. -/
  first : Nat
  token : Nat
  src : BitVec 16
  pos : Nat
  redirected : Bool := false
  deferredF : Bool := false
  ing : Nat
  pk : Packet
  /-- The packet in its ingress hold, for one that is still there (R310). -/
  hold : Option Nat := none
  st : CopySt
  /-- Frame (elapsed) from which it may present. -/
  from_ : Nat := 0
  slot : Nat := 0
  deriving DecidableEq, Repr

/-- A round slot (R300). -/
structure Round where
  st : RoundSt := .idle
  d : RDesc := {}
  dispatched : Nat := 0
  combined : Nat := 0
  dropped : Nat := 0
  redirected : Nat := 0
  deferred : Nat := 0
  prop : Option (Nat × Word) := none
  combos : List Combo := []
  copies : List Copy := []
  /-- Ports for whose experts a copy was admitted (R314). -/
  admitted : List Nat := []
  ranked : Bool := false
  /-- Copies admitted for each expert in frame RANK, and the redirected ones were ranked (R311). -/
  rankAdm : List (Nat × Nat) := []
  fellBack : Bool := false
  deriving DecidableEq, Repr

/-- A Basin request in a slot (R342-R346). -/
structure Req where
  slot : Nat
  die : Nat
  corr : Bool
  ing : Nat
  op : Nat
  src : BitVec 16
  slice : BitVec 8
  tag : Nat
  addr : Nat
  len : Nat
  cplUnits : Nat
  resId : BitVec 16
  retCid : Nat
  operand : Nat
  swap : Nat
  /-- Next segment, and whether only the final completion is left (R350). -/
  seg : Nat := 0
  last : Bool := false
  cond : Word := 0
  deriving DecidableEq, Repr

/-- Load states of the stage (R372). -/
inductive LoadSt where
  | empty | receiving | verifying | staged | refused
  deriving DecidableEq, Repr

/-- PLAT_STAT.PLAN (R390). -/
inductive Plan where
  | none | full | degraded | belowMin
  deriving DecidableEq, Repr

/-- The plat block (R362-R392). -/
structure Plat where
  load : LoadSt := .empty
  /-- Who loads the stage, its length and the bytes received so far. -/
  trail : Bool := false
  len : Nat := 0
  got : Nat := 0
  /-- SHA-256 digest of the container that Narrows recorded (R371). -/
  digest : List Byte := []
  active : Bool := false
  epoch : Nat := 0
  fabric : Nat := 0
  bound : Word := 0
  act : Option Act := none
  plan : Plan := .none
  /-- A structural plat to apply at the end of the data-path reset (R386). -/
  apply : Option (List Byte) := none
  /-- Direction role and ORD_EN of every port in the plat that was active when a data-path reset began (R168, R386). -/
  roles : Option (List Nat) := none
  deriving DecidableEq, Repr

/-- States of an Obvo port (R397). -/
inductive ObvoSt where
  | down | train | up
  deriving DecidableEq, Repr

/-- Where a control action comes from (R60): a source of register writes and commands, or, in band, an ingress port. -/
inductive Who where
  | sw (s : Src)
  | inBand (p : Nat)
  deriving DecidableEq, Repr

/-- What a control action does: it writes bits of a register, serves a trail or DMA command, or acts on an in-band message. -/
inductive ActOp where
  | write (addr : Nat) (mask val : Word)
  | locate (st : Nat)
  | platData (off : Nat) (data : List Byte)
  | recovStart (kind len : Nat)
  | recovData (off : Nat) (data : List Byte)
  | recovRun
  | dmaWr (target : Byte) (off : Nat) (data : List Byte)
  | dmaRd (target : Byte) (off len : Nat)
  | message (id : Nat)
  deriving DecidableEq, Repr

/-- A control action sampled at a boundary (R55, R65): who gives it, what it does, the command and the position in it that it
answers to, and whether it was deferred from an earlier frame. -/
structure CtlAct where
  who : Who
  op : ActOp
  cmd : Nat
  idx : Nat
  deferred : Bool := false
  deriving DecidableEq, Repr

/-- What a read returns: consecutive registers, one register for a source that reads it directly, or the trail status. -/
inductive RdKind where
  | regs (addr count : Nat)
  | one (addr : Nat)
  | status
  deriving DecidableEq, Repr

/-- A read sampled in the frame, answered at its end (R59, R404). -/
structure RdAct where
  src : Src
  kind : RdKind
  cmd : Nat
  deriving DecidableEq, Repr

/-- Events that act at once and are recorded as level-1 inputs of the next frame's sample (R58). -/
inductive Level1 where
  | resetN | trip | railLoss
  deriving DecidableEq, Repr

/-- Which path a command answers on. -/
inductive Path where
  | obvo (s : Side)
  | trail (eid inst cmdB : Byte)
  deriving DecidableEq, Repr

/-- A command of writes or reads not yet answered (R403, R413): actions left, the refusals so far, and data of its answer. -/
structure Cmd where
  id : Nat
  path : Path
  tag : Nat
  count : Nat
  left : Nat
  refused : List Nat := []
  cond : Word := 0
  data : List Byte := []
  dups : List Side := []
  deriving DecidableEq, Repr

/-- A response (R399, R413): condition word, frame bits, data words. -/
structure Resp where
  cond : Word
  frame : BitVec 32
  data : List Byte
  deriving DecidableEq, Repr

/-- The Obvo link and trail port (R395-R418). -/
structure Obvo where
  inSt : ObvoSt := .down
  outSt : ObvoSt := .down
  posA : BitVec 3 := 0
  posB : BitVec 3 := 0
  validA : Bool := false
  validB : Bool := false
  /-- Frame (elapsed) of the last beacon on each port. -/
  tA : Nat := 0
  tB : Nat := 0
  evSide : Nat := 0
  events : List (List Byte) := []
  evSeq : BitVec 32 := 0
  /-- Records lost since the last LOSS record, and in this frame (R409). -/
  lostSince : Nat := 0
  lostFrame : Nat := 0
  /-- Tag and response of the last 64 commands, oldest first; none while unanswered (R406). -/
  kept : List (Nat × Option Resp) := []
  cmds : List Cmd := []
  acts : List CtlAct := []
  /-- Actions on the stage that wait for the activation of their frame (R392). -/
  held : List CtlAct := []
  /-- Changes of the ports' states since the last boundary, oldest first (R397). -/
  due : List (Side × ObvoSt) := []
  reads : List RdAct := []
  nextCmd : Nat := 0
  /-- TRAIL_EID and ALERT_N (R411, R415). -/
  eid : Byte := 0
  alert : Bool := false
  /-- A flag that asserts ALERT_N became 1b while Narrows holds the level (R435). -/
  alertDue : Bool := false
  deriving DecidableEq, Repr

/-- States of Col (R426). -/
inductive ColSt where
  | reset | rom | fwStart | ready | recovery | fault
  deriving DecidableEq, Repr

/-- Recovery loader load states (COL_RECOV_STAT.LSTATE). -/
inductive RecovSt where
  | idle | receiving | loaded | verifying | writing | refused
  deriving DecidableEq, Repr

/-- Col, the recovery loader and Narrows (R419-R445). -/
structure Col where
  st : ColSt := .reset
  rcause : Nat := 0
  imgReason : Nat := 0
  bootFails : Nat := 0
  certValid : Bool := false
  /-- A Col reset on account of a recovery START: kind, length, by trail (R430). -/
  recovReq : Option (Nat × Nat × Bool) := none
  fwVer : Word := 0
  imgSvn : Nat := 0
  imgDigest : List Byte := []
  lst : RecovSt := .idle
  lkind : Nat := 0
  llen : Nat := 0
  lbuf : List Byte := []
  /-- 0 none, 1 trail, 2 Obvo. -/
  lsrc : Nat := 0
  lreason : Nat := 0
  fuseLock : Bool := false
  cfgLock : Bool := false
  /-- A write or an activation of this frame engages CFG_LOCK at its end (R441). -/
  lockDue : Bool := false
  wdogAt : Nat := 0
  wdogOn : Bool := false
  nonce : BitVec 64 := 0
  /-- A token check in progress (R442), the reason, port and cause of the last. -/
  checking : Bool := false
  tokReason : Nat := 0
  tokPort : Nat := 0
  tokCause : Nat := 0
  /-- Tokens held: port, cause, last frame; and the frame from which each is valid. -/
  tokens : List (Nat × Nat × Nat × Nat) := []
  /-- Cells of Col's packets accepted in the last 100 frames: output, frame (elapsed), cells (R439). -/
  sent : List (Nat × Nat × Nat) := []
  /-- Measurement 4 (R433). -/
  m4 : List Byte := List.replicate 32 0
  /-- In-band messages delivered to firmware (R419). -/
  inbox : List Packet := []
  /-- Soft repairs held while Col is not READY (R435). -/
  heldRepairs : List Nat := []
  /-- A boot-partition restore is due (R376, R435). -/
  restoreDue : Bool := false
  deriving DecidableEq, Repr

/-- State of a leak loop (R461). -/
inductive LeakSt where
  | dry | wet | short | open
  deriving DecidableEq, Repr

/-- Power and thermal control (R446-R465). -/
structure Pwr where
  pEst : Nat := 0
  /-- P_ALLOW in 1/800 W (R449). -/
  pAllow : Nat := 0
  lEff : Nat := 1500
  holdTrail : Bool := false
  holdHost : Bool := false
  scale : Nat := 256
  /-- The level of BRAKE_N, and the level as last sampled (R55, R456). -/
  brakePin : Bool := false
  brakeLow : Bool := false
  /-- A comparator saw 115 °C or more at the last boundary (R460). -/
  hot : Bool := false
  stageTherm : Nat := 0
  stageBrake : Nat := 0
  /-- Staged braking requested from the next boundary; frames at or below P_ALLOW (R454). -/
  braking : Bool := false
  okRun : Nat := 0
  /-- The excess in progress: its first frame (elapsed and number), and whether it is a violation (R455). -/
  excess : Option (Nat × BitVec 16) := none
  viol : Bool := false
  avsFault : List Bool := [false, false, false, false]
  avsTarget : List Nat := [0, 0, 0, 0]
  avsAt : List Nat := [0, 0, 0, 0]
  trip : Bool := false
  /-- Diode readings in 0.25 °C and fault reasons (R457). -/
  temps : List Int := List.replicate 80 0
  dfault : List Nat := List.replicate 80 0
  blind : List Nat := []
  tj : Int := 0
  tjDie : Nat := 0
  /-- Frames below 97 °C so far (R459): frame since. -/
  coolAt : Option Nat := none
  leakA : LeakSt := .dry
  leakB : LeakSt := .dry
  lastA : LeakSt := .dry
  lastB : LeakSt := .dry
  wetA : Bool := false
  wetB : Bool := false
  /-- Frame (elapsed) in which the main domain was powered. -/
  powerAt : Nat := 0
  strap : BitVec 2 := 0
  deriving DecidableEq, Repr

/-- Boundary-scan instructions (R520). -/
inductive TapIr where
  | extest | idcode | samplePreload | extestPulse | extestTrain | clamp | highz | bypass
  deriving DecidableEq, Repr

/-- States of a capture channel (R511). -/
inductive CapSt where
  | idle | armed | run | full | done | stopped
  deriving DecidableEq, Repr

/-- States of a pattern source (R508). -/
inductive PatSt where
  | idle | armed | run | paused | done | stopped | error
  deriving DecidableEq, Repr

/-- A capture channel (R511-R515): records staged, and units staged. -/
structure Cap where
  st : CapSt := .idle
  t : Nat := 0
  seq : Nat := 0
  gap : Bool := false
  staged : List (List Byte) := []
  deriving DecidableEq, Repr

/-- A pattern source (R507-R510): byte offset of its entry, presentations left, the packet that waits. -/
structure Pat where
  st : PatSt := .idle
  t : Nat := 0
  off : Nat := 0
  left : Nat := 0
  reason : Nat := 0
  /-- Id of the packet presented and not yet accepted, and where the list stands once it is: offset, presentations
  left, and whether the list is done. -/
  cur : Option Nat := none
  nextOff : Nat := 0
  nextLeft : Nat := 0
  fin : Bool := false
  /-- Frame (elapsed) of the last acceptance, from which DELAY counts. -/
  since : Nat := 0
  deriving DecidableEq, Repr

/-- An injection act on a port (R517): layer, mode, parameter and units left, none for continuous. -/
structure Inj where
  layer : Nat
  mode : Nat
  param : Nat
  left : Option Nat
  deriving DecidableEq, Repr

/-- What the block sends out, newest first. -/
inductive Out where
  /-- A lane's codeword or stretch of a test pattern, as 2,720 PAM4 levels, and the core cycle of the frame in which its first left
  (R76, R79, R105); none: electrical idle from then on (R98). -/
  | line (l cyc : Nat) (sym : Option (List (BitVec 2)))
  /-- A train whose last cell was sent on a port: the packet and whether it was completed with VERDICT FFh (R144, R151). -/
  | train (p : Nat) (pk : Packet) (stomped : Bool)
  /-- A link control block enters a port's stream (R111, R133): its payload. -/
  | linkCtl (p : Nat) (payload : Nat)
  /-- REQ and START in the RETRY field (R126, R127), with the cells replayed. -/
  | req (p : Nat) (ack : BitVec 12) (id : BitVec 6)
  | start (p : Nat) (id : BitVec 6) (cells : List RCell)
  /-- A stomped cell named to a partner (R86). -/
  | verdBad (p : Nat) (tag : BitVec 12)
  /-- Verdicts given to a partner up to a tag (R86). -/
  | verdUpTo (p : Nat) (tag : BitVec 12)
  /-- FC_XOFF bits as sent (R130). -/
  | xoff (p : Nat) (bits : BitVec 16)
  /-- The answer to a tap request on a lane (R93). -/
  | txAck (l : Nat) (ack : BitVec 8)
  | idle (p : Nat)
  | burst (p : Nat)
  /-- An answer to a command. -/
  | resp (path : Path) (tag : Nat) (r : Resp)
  /-- An Obvo packet or beacon sent on. -/
  | obvo (s : Side) (pk : ObvoPkt)
  | event (s : Side) (recs : List (List Byte))
  /-- A register read directly: its source, address and value. -/
  | read (src : Src) (addr : Nat) (v : Word)
  /-- An MCTP or SPDM answer: its kind and bytes. -/
  | mctp (kind : Nat) (bytes : List Byte)
  | alert (addr : Byte)
  /-- An AVSBus command for rail k (R446). -/
  | avs (k mv : Nat)
  /-- The 64 LED bits shifted, octet 63 first (R487). -/
  | led (bits : List Nat)
  /-- What TDO shifts out (R520). -/
  | tdo (bits : List Bool)
  deriving DecidableEq, Repr

/-- What every reset but the Col and per-port resets clears in part: the device without its flash and fuses. -/
structure Dev where
  /-- Registers that hold what is written to them, by address; an unlisted one reads its reset value. -/
  regs : List (Nat × Word) := []
  frm : Frm := {}
  /-- Conditions raised in this frame: the COND register and the word (R16). -/
  raised : List (Nat × Word) := []
  /-- The words raised in this frame, one for each time (R408). -/
  words : List Word := []
  /-- The LO/HI latch of each reading source: address of the HI register and its value (R494). -/
  latches : List (Nat × (Nat × Word)) := []
  dies : List PartSt := List.replicate 12 .off
  hbms : List PartSt := List.replicate 8 .off
  bridges : List PartSt := List.replicate 15 .off
  lanes : List (Nat × Lane) := []
  ports : List (Nat × Port) := []
  pkts : List Pkt := []
  nextId : Nat := 0
  queue : List QEnt := []
  /-- Buffers handed out, and those quarantined, by die and index (R177, R178). -/
  bufs : List Buf := []
  quarBufs : List (Nat × Nat) := []
  /-- Budgets of this frame and the next, by port × 8 + class, and by corridor (R184, R215). -/
  bud : List (Nat × (Nat × Nat)) := []
  corr : List (Nat × (Nat × Nat)) := []
  /-- Pool stages by die × 8 + pool (R176). -/
  stages : List (Nat × Nat) := []
  trks : List (Nat × Trk) := []
  /-- Packets of each port and direction counted for sampling (R192), by port × 2 + direction. -/
  samp : List (Nat × Nat) := []
  /-- Sample records written, by die: oldest first. -/
  samples : List (Nat × List Byte) := []
  coordV : Bool := false
  coord : BitVec 12 := 0
  ract : Option Act := none
  ovl : Nat := 0
  lfsr : List Word := [1, 1, 1, 1]
  /-- Cells injected in this frame, by port × 64 + group × 8 + class (R212), and by port (R452). -/
  inj : List (Nat × Nat) := []
  injAll : List (Nat × Nat) := []
  /-- Oxbow slots: slot and packet id; packets presented again in this frame by port (R225). -/
  oxbow : List (Nat × Nat) := []
  reps : List (Nat × Nat) := []
  chunks : List Chunk := []
  launches : List (Nat × Launch) := []
  /-- Engine-cycles drawn: die × 8 + kind (0 shared, 1 CORR, 2 spill), frames F and F+1 (R241). -/
  units : List (Nat × (Nat × Nat)) := []
  rounds : List (Nat × Round) := []
  /-- Tokens admitted in the current window of each expert (R310). -/
  xcount : List (Nat × Nat) := []
  /-- Frame (elapsed, plus 1) of each expert's last window boundary (R313). -/
  xwin : List (Nat × Nat) := []
  /-- Abort words kept for a port, of Catchment at twice its number and of Fan after it: the abort frame, and the launch number or the
  slice (R290, R326). -/
  pend : List (Nat × (Nat × Nat)) := []
  reqs : List Req := []
  /-- Stack accesses drawn on frames F and F+1 (R344). -/
  stackU : List (Nat × (Nat × Nat)) := []
  /-- 16-byte words that read as uncorrectable (R355), and rows with a corrected error, with the pass that found it (R357). -/
  bad : List Nat := []
  weak : List (Nat × Nat) := []
  /-- Rows to be repaired at their next scrub visit (R357). -/
  dueRows : List Nat := []
  plat : Plat := {}
  /-- Inputs that wait for the boundary that samples them, in the order of their arrival (R55), and the level-1 events of the
  frame (R58). -/
  inputs : List Instr := []
  level1 : List Level1 := []
  obvo : Obvo := {}
  col : Col := {}
  pwr : Pwr := {}
  /-- The data path is in service: every part has been UP since its last reset (R21, R469). -/
  inService : Bool := false
  /-- A data-path reset in progress, its frame (elapsed), and whether a stack was in FAULT (R469, R358). -/
  dpBusy : Bool := false
  /-- A part entered FAULT: a data-path reset begins at the next boundary (R42). -/
  dpDue : Bool := false
  dpAt : Nat := 0
  stackLost : Bool := false
  /-- VDD_STBY is present; RESET_N is low; a cold reset waits for its rising edge (R546); the main rails are within tolerance. -/
  stby : Bool := false
  resetLow : Bool := false
  coldHeld : Bool := false
  rails : Bool := false
  straps : Word := 0
  /-- Event records discarded at the reset of the data path (R469). -/
  evDiscarded : Nat := 0
  /-- CNT_READs waiting to be served: packet ids; served in this frame (R500). -/
  cntServed : Nat := 0
  /-- Window bytes received and sent, by port × 2 (R496). -/
  bwin : List (Nat × Nat) := []
  /-- WIN in effect (R497). -/
  bwWin : Nat := 13
  /-- Frame (elapsed) in which the window in progress began, none while it is not a whole one. -/
  bwAt : Option Nat := none
  /-- A SNAP and a WMARK_CLR of this frame take the state at its end (R492, R495). -/
  snapDue : Bool := false
  wmarkDue : Bool := false
  ledLast : List Nat := []
  ir : TapIr := .idcode
  bsr : List Bool := []
  /-- A test instruction has held activations since the last Test-Logic-Reset (R521). -/
  tapHeld : Bool := false
  caps : List (Nat × Cap) := []
  pats : List (Nat × Pat) := []
  injs : List (Nat × Option Inj) := []
  /-- Lane dies whose LANECLK has stopped (R538). -/
  clkDead : List Nat := []
  /-- Packets lost at a port that left UP or as residue, with the condition word of their operation's abort (R479,
  R480); empty between commands. -/
  lost : List (Packet × Word) := []
  /-- Numbers drawn from the true random number generator and other free choices so far (the model's own). -/
  draws : Nat := 0
  out : List Out := []
  deriving DecidableEq, Repr

/-- What flash and fuses keep through every reset (R421, R422). -/
structure Nv where
  image : List Byte := []
  stage : List Byte := []
  /-- Containers of the boot partition, in order (R376). -/
  boot : List (List Byte) := []
  /-- The leaf certificate in IDENT. -/
  ident : List Byte := []
  floor : Nat := 0
  /-- Soft-repair log: rows repaired and not yet hard-repaired (R357). -/
  repairs : List Nat := []
  fwdata : List (Nat × Byte) := []
  svn : Nat := 0
  /-- Digests of the owner slots programmed, and the modulus each digest stands for (R422, R428). -/
  owners : List (List Byte) := []
  moduli : List (List Byte) := []
  ownerFinal : Bool := false
  /-- Stage flags that survive: loaded over the trail port; STAGED; the bytes of the active FULL container. -/
  stageTrail : Bool := false
  stageOk : Bool := false
  active : List Byte := []
  /-- Spare rows used per stack (R357). -/
  sparesUsed : List (Nat × Nat) := []
  deriving DecidableEq, Repr

/-- The state of the block. -/
structure State where
  /-- Commands waiting, first in, first out. -/
  pending : List Instr := []
  dev : Dev := {}
  nv : Nv := {}
  /-- Basin's bytes by device address, in canonical form (R332); an unlisted byte reads `memDefault`. -/
  mem : List Host.Cell := []
  deriving DecidableEq, Repr

/-- What a byte of Basin that nothing has written reads as: 00h (DESIGN CHOICE, log 10). -/
def memDefault : Byte := 0

/-- The machine right after a cold reset (R466, R468): no power beyond VDD_STBY, every field at its reset value. -/
def State.reset : State := { dev := { stby := true } }

end Sys2Proof.Machine
end

