-- ==== Sys2Proof/Machine/Ops.lean ====
section
/-! DEFINITION. The named operations on the state: registers, lanes and ports, conditions, counters, time. -/

namespace Sys2Proof.Machine

/-- A command's effect on the device alone. -/
def State.onDev (f : Dev → Dev) (s : State) : State := { s with dev := f s.dev }

/-- The outcome of a command that acts on the device alone: flash, Basin and the queue stay. -/
def devStep (f : Dev → Dev) (s : State) : Host.Outcome State Fault Refusal := .next (s.onDev f)

/-- A register as held. -/
def Dev.rd (d : Dev) (a : Nat) : Word := mapGet (regRst a) d.regs a

/-- Write a held register whole. -/
def Dev.wr (d : Dev) (a : Nat) (v : Word) : Dev := { d with regs := mapSet (regRst a) d.regs a v }

/-- Bits [lo+len-1:lo] of a held register, as a number. -/
def Dev.fld (d : Dev) (a lo len : Nat) : Nat := Machine.fld (d.rd a) lo len

/-- Bit `i` of a held register. -/
def Dev.bit (d : Dev) (a i : Nat) : Bool := Machine.bit (d.rd a) i

/-- Replace bits [lo+len-1:lo] of a held register. -/
def Dev.setFld (d : Dev) (a lo len v : Nat) : Dev := d.wr a (Machine.setFld (d.rd a) lo len v)

/-- Add `n` to a 32-bit counter that saturates at FFFF_FFFFh. -/
def Dev.addSat (d : Dev) (a n : Nat) : Dev := d.wr a (sat32 ((d.rd a).toNat + n))

/-- The 64-bit value of a LO/HI pair (R10). -/
def Dev.rd64 (d : Dev) (a : Nat) : Nat := (d.rd a).toNat + 2 ^ 32 * (d.rd (a + 4)).toNat

/-- Write a LO/HI pair. -/
def Dev.wr64 (d : Dev) (a n : Nat) : Dev :=
  (d.wr a (BitVec.ofNat 32 n)).wr (a + 4) (BitVec.ofNat 32 (n / 2 ^ 32))

/-- Add `n` to a 64-bit counter, modulo 2^64 (R493). -/
def Dev.add64 (d : Dev) (a n : Nat) : Dev := d.wr64 a (d.rd64 a + n)

def Dev.lane (d : Dev) (l : Nat) : Lane := mapGet {} d.lanes l
def Dev.setLane (d : Dev) (l : Nat) (v : Lane) : Dev := { d with lanes := mapSet {} d.lanes l v }
def Dev.port (d : Dev) (p : Nat) : Port := mapGet {} d.ports p
def Dev.setPort (d : Dev) (p : Nat) (v : Port) : Dev := { d with ports := mapSet {} d.ports p v }
def Dev.onPort (d : Dev) (p : Nat) (f : Port → Port) : Dev := d.setPort p (f (d.port p))
def Dev.onLane (d : Dev) (l : Nat) (f : Lane → Lane) : Dev := d.setLane l (f (d.lane l))

/-- Frames begun since the reset: the ordinal of the frame. -/
def Dev.now (d : Dev) : Nat := d.frm.elapsed

/-- Core cycles from the boundary that began frame `t` (an ordinal) to the one that began this frame (R50). -/
def Dev.cycles (d : Dev) (t : Nat) : Nat :=
  256 * (d.now - t) + ((d.frm.extra.filter (fun e => decide (t ≤ e.1 ∧ e.1 < d.now))).map (·.2)).sum

/-- Whole frames of 256 core cycles since the boundary that began frame `t`: what a bound or timeout is timed by (R50). -/
def Dev.age (d : Dev) (t : Nat) : Nat := d.cycles t / 256

/-- The 48-bit frame number as a number. -/
def Dev.fno (d : Dev) : Nat := d.frm.no.toNat

/-- The frame state is LOCKED or HOLDOVER (R52). -/
def Dev.aligned (d : Dev) : Bool := d.frm.st == .locked || d.frm.st == .holdover

/-- A condition word (R16). -/
def condWord (b c det : Nat) : Word := at32 24 8 b ||| at32 16 8 c ||| at32 0 16 det

/-- The highest of the words raised at one COND register. -/
def topWord (a : Nat) (l : List (Nat × Word)) : Word :=
  l.foldl (fun m e => if e.1 = a ∧ m.toNat < e.2.toNat then e.2 else m) 0

/-- A flag that asserts ALERT_N became 1b, or none did: while Col is not READY Narrows holds the level, and ALERT_N is asserted at READY
(R415, R435; DEDUCED, log 97). -/
def Obvo.pends (x : Obvo) (rose ready : Bool) : Obvo :=
  { x with alert := x.alert || (rose && ready), alertDue := x.alertDue || (rose && ! ready) }

/-- A COND register takes a word raised in this frame: it holds the highest of them (R43, R75, ...), PENDING is set (R13),
and ALERT_N is asserted where the block's alert is enabled and PENDING becomes 1b (R415). -/
def Dev.holdAt (d : Dev) (b c det idx : Nat) : Dev :=
  let w := condWord b c det
  let a := condAddr b idx
  if (a, w) ∈ d.raised then d
  else
    let d1 := { d with raised := d.raised ++ [(a, w)] }
    let d2 := d1.wr a (topWord a d1.raised)
    let rose := ! Machine.bit (d2.rd (a + 4)) 0
    let d3 := d2.wr (a + 4) (d2.rd (a + 4) ||| 1)
    { d3 with obvo := d3.obvo.pends (rose && Machine.bit (d3.rd (ra 0xC 8)) b) (d3.col.st == .ready) }

/-- Raise a condition: each time it is raised makes a record (R408). -/
def Dev.raiseAt (d : Dev) (b c det idx : Nat) : Dev :=
  { d with words := d.words ++ [condWord b c det] }.holdAt b c det idx

/-- Raise a condition of a block that has one COND register. -/
def Dev.raise (d : Dev) (b c det : Nat) : Dev := d.raiseAt b c det 0

/-- Raise a condition that its rule raises once in a frame, for each value of the DETAIL bits of `mask`. -/
def Dev.raiseOnce (d : Dev) (mask : Word) (b c det : Nat) : Dev :=
  let m : Word := 0xFFFF0000 ||| mask
  if d.words.any (fun w => w &&& m == condWord b c det &&& m) then d else d.raise b c det

/-- Add to the outputs. -/
def Dev.emit (d : Dev) (o : Out) : Dev := { d with out := o :: d.out }

/-- Level of a source (R60). -/
def srcLevel : Src → Nat
  | .trail _ => 2
  | .obvo => 3
  | .col _ => 5

/-- Source index within the level (R60). -/
def srcIndex : Src → Nat
  | .trail e => e.toNat
  | .obvo => 0
  | .col c => b2n c

def isTrail : Src → Bool
  | .trail _ => true
  | _ => false

def isCol : Src → Bool
  | .col _ => true
  | _ => false

/-- Which of the three reading sources a source is (R54, R494). -/
def srcKind : Src → Nat
  | .trail _ => 0
  | .obvo => 1
  | .col _ => 2

/-- How the trail port serves: the address is not acknowledged, full service, the loader's, or the boot ROM's after a FAULT
(R426, R429). -/
inductive Service where
  | none | full | loader | limited
  deriving DecidableEq, Repr

def Dev.service (d : Dev) : Service :=
  if ! d.stby then .none else
  match d.col.st with
  | .ready => .full
  | .recovery => .loader
  | .fault => .limited
  | _ => .none

/-- A message of a supported type is acted on: the address is acknowledged, and but for MCTP control an endpoint ID is assigned
(R411). -/
def Dev.hears (d : Dev) (control : Bool) : Bool := d.service != .none && (control || d.obvo.eid != 0)

/-- An input waits for the boundary that samples it (R55, log 12). -/
def State.wait (c : Instr) (s : State) : State := s.onDev (fun d => { d with inputs := d.inputs ++ [c] })

/-- A message other than MCTP control that comes before an endpoint ID is assigned is discarded and counted (R411; log 71). -/
def State.unheard (s : State) : State := s.onDev (fun d => if d.service = .none then d else d.addSat (ra 0xC 0x44) 1)

/-- A register access of a source waits for the boundary: one over the trail port only where the port hears it (R414). -/
def State.waitFrom (src : Src) (c : Instr) (s : State) : State := if isTrail src && ! s.dev.hears false then s.unheard else s.wait c

/-- Number of set bits among the low `n` bits. -/
def popCount (n w : Nat) : Nat := ((List.range n).filter (fun i => w.testBit i)).length

/-- The set bits among the low `n` bits, ascending. -/
def bitList (n w : Nat) : List Nat := (List.range n).filter (fun i => w.testBit i)

/-! ## Plat structure of ports -/

/-- The port whose role port `p` plays (R121): what the plat attaches to a port is read there. -/
def Dev.role (d : Dev) (p : Nat) : Nat := (d.port p).role.getD p

/-- PLAT_PORT_p.VALID, WIDTH and LANE0: a port's lanes. -/
def Dev.pvalid (d : Dev) (p : Nat) : Bool := d.bit (rp 0xA 0x100 p) 31
def Dev.wcode (d : Dev) (p : Nat) : Nat := d.fld (rp 0xA 0x100 p) 16 3
def Dev.width (d : Dev) (p : Nat) : Nat := 2 ^ min 4 (d.wcode p)
def Dev.lane0 (d : Dev) (p : Nat) : Nat := d.fld (rp 0xA 0x100 p) 0 9
def Dev.lanesOf (d : Dev) (p : Nat) : List Nat := (List.range (d.width p)).map (· + d.lane0 p)

/-- Every port of the plat, ascending. -/
def Dev.validPorts (d : Dev) : List Nat := (List.range 128).filter d.pvalid

/-- The port a lane belongs to. -/
def Dev.portOf (d : Dev) (l : Nat) : Option Nat :=
  d.validPorts.find? (fun p => decide (d.lane0 p ≤ l ∧ l < d.lane0 p + d.width p))

/-- Cells per frame of a port of a width code (R66). -/
def cellsOf (w : Nat) : Nat :=
  match w with
  | 0 => 12
  | 1 => 24
  | 2 => 48
  | 3 => 97
  | _ => 195

/-- C of a port. -/
def Dev.cap (d : Dev) (p : Nat) : Nat := cellsOf (d.wcode p)

/-- TRAIN_MAX (R180). -/
def trainMaxOf (c : Nat) : Nat := min 17 (c / 4)
def Dev.trainMax (d : Dev) (p : Nat) : Nat := trainMaxOf (d.cap p)

/-- CTL_CELLS and K_MAX of a port (CORE_PORT_p). -/
def Dev.ctlCells (d : Dev) (p : Nat) : Nat := d.fld (rp 5 0x304 (d.role p)) 16 8
def Dev.kMax (d : Dev) (p : Nat) : Nat := d.fld (rp 5 0x304 (d.role p)) 8 8

/-- The owner die of a lane's octet (R23). -/
def ownerOfLane (l : Nat) : Nat := (l / 8 % 8) / 4 + 2 * (l / 64 / 4)

/-- The owner die of a port (R24). -/
def Dev.owner (d : Dev) (p : Nat) : Nat := ownerOfLane (d.lane0 p)

/-- Direction role of a port (ROUTE_PORT_p.DIR). -/
def Dev.dir (d : Dev) (p : Nat) : Nat := d.fld (rp 6 0x100 (d.role p)) 0 3
def Dev.isTorus (d : Dev) (p : Nat) : Bool := decide (1 ≤ d.dir p ∧ d.dir p ≤ 6)

/-- Ports of a direction group, ascending (R200). -/
def Dev.group (d : Dev) (g : Nat) : List Nat := d.validPorts.filter (fun p => d.dir p == g && g != 0)

def Dev.isUp (d : Dev) (p : Nat) : Bool := (d.port p).st == .up

/-- The partner's SWITCH flag, and P_STOMP. -/
def Dev.pSwitch (d : Dev) (p : Nat) : Bool := ((d.port p).ident.map (·.switch)).getD false
def Dev.pStomp (d : Dev) (p : Nat) : Bool := ((d.port p).ident.map (·.stomp)).getD false

/-- Role of a port in the WITNESS section: EMU or EMU_CHECK on an endpoint or bay port (R504). -/
def Dev.emuRole (d : Dev) (p : Nat) : Nat :=
  let r := d.fld (rp 0x11 0x100 p) 0 2
  if d.isTorus p || r == 3 then 0 else r
def Dev.isEmu (d : Dev) (p : Nat) : Bool := d.emuRole p != 0

/-- This device's DEV_ID and HOP_LIMIT. -/
def Dev.devId (d : Dev) : BitVec 16 := BitVec.ofNat 16 (d.fld (ra 4 0) 0 16)
def Dev.hopLimit (d : Dev) : Nat := d.fld (ra 4 0) 16 6

/-- Draw a free number of the model's own. -/
def Dev.draw (d : Dev) : Word × Dev := (Config.trng d.draws, { d with draws := d.draws + 1 })

/-- Set bit `i` of a held register. -/
def Dev.setBit (d : Dev) (a i : Nat) (b : Bool) : Dev := d.setFld a i 1 (b2n b)

/-! ## Stack accesses of Basin (R333, R344) -/

/-- The stack of a device address, and its row segment (R333). -/
def stackOf (a : Nat) : Nat := Nat.xor (a / 256 % 8) (a / 2048 % 8)
def rowOf (a : Nat) : Nat := a / 2048 / 7 * 8 + stackOf a

/-- Starts of the 256-byte units of `n` bytes from `a`. -/
def unitsOf (a n : Nat) : List Nat :=
  if n = 0 then [] else (List.range ((a + n - 1) / 256 - a / 256 + 1)).map (fun i => (a / 256 + i) * 256)

/-- Accesses of frames F and F+1 with those of units added, where all fit in the frame. -/
def Dev.stackTake (d : Dev) (us : List Nat) (cur : Bool) : Option Dev :=
  let lim := d.fld (ra 9 0) 0 10
  us.foldl (fun (m : Option Dev) u =>
    match m with
    | none => none
    | some x =>
      let v := mapGet (0, 0) x.stackU (stackOf u)
      let w := if cur then (v.1 + 1, v.2) else (v.1, v.2 + 1)
      if lim < (if cur then w.1 else w.2) then none
      else some { x with stackU := mapSet (0, 0) x.stackU (stackOf u) w }) (some d)

/-- Reserve an access for each unit, against F where the reservation fits, else F+1. -/
def Dev.reserve (d : Dev) (a n : Nat) : Option Dev :=
  let us := unitsOf a n
  match d.stackTake us true with
  | some x => some x
  | none => d.stackTake us false

/-- Parking, Fan queues and spill draw their accesses as device-internal sources: of F where they fit, else of F+1, in which what asks
after them waits (R344; log 16). -/
def Dev.drawUnits (d : Dev) (a n : Nat) : Dev :=
  match d.stackTake (unitsOf a n) true with
  | some x => x
  | none => { d with stackU := (unitsOf a n).foldl (fun m u =>
      let v := mapGet (0, 0) m (stackOf u)
      mapSet (0, 0) m (stackOf u) (v.1, v.2 + 1)) d.stackU }

/-! ## Event records -/

/-- An event record: head and body (R408). -/
def evRecord (fno : BitVec 48) (seq : BitVec 32) (kind : Nat) (body : List Byte) : List Byte :=
  leBytes 6 fno.toNat ++ [Config.evCycle seq.toNat] ++ [0] ++ leBytes 1 kind ++ leBytes 1 (body.length / 8) ++ leBytes 2 0
    ++ leBytes 4 seq.toNat ++ body

/-- Put one record into the buffer of 4,096 (R407). -/
def Dev.pushEv (d : Dev) (kind : Nat) (body : List Byte) : Dev :=
  { d with obvo := { d.obvo with
      events := d.obvo.events ++ [evRecord d.frm.no d.obvo.evSeq kind body]
      evSeq := d.obvo.evSeq + 1 } }

/-- Write an event record: lost when the buffer is full; the first record written after a loss is a LOSS record
(R409). -/
def Dev.event (d : Dev) (kind : Nat) (body : List Byte) : Dev :=
  if 4096 ≤ d.obvo.events.length then
    ({ d with obvo := { d.obvo with lostSince := d.obvo.lostSince + 1, lostFrame := d.obvo.lostFrame + 1 } }).addSat
      (ra 0xB 0x10) 1
  else if d.obvo.lostSince = 0 then d.pushEv kind body
  else
    let d1 := d.pushEv 6 (leBytes 4 d.obvo.lostSince ++ zeros 4)
    let d2 := { d1 with obvo := { d1.obvo with lostSince := 0 } }
    if 4096 ≤ d2.obvo.events.length then
      ({ d2 with obvo := { d2.obvo with lostSince := 1, lostFrame := d2.obvo.lostFrame + 1 } }).addSat (ra 0xB 0x10) 1
    else d2.pushEv kind body

end Sys2Proof.Machine
end

