-- ==== Sys2Proof/Machine/Operands.lean ====
section
/-! DEFINITION. Packets as bytes: header, tail and CRC (R142-R150), the operand units of the operations, and the
tables' entries (R154, R214, R219, R234, R303, R334). -/

namespace Sys2Proof.Machine

/-! ## Packets -/

/-- Payload bytes P (R142). -/
def payLen (h : Header) : Nat := 64 * (h.len.toNat + 1)

/-- Cells of a packet (R143). -/
def cellsOfPkt (h : Header) : Nat := cdiv (payLen h + 24) 256

/-- Packet bytes, 16 + P + 8. -/
def pktLen (h : Header) : Nat := 16 + payLen h + 8

/-- The 16 header bytes (R146). -/
def hdrBytes (h : Header) : List Byte :=
  leBytes 1 h.fmt.toNat ++ leBytes 3 (h.rsv.toNat + 2 ^ 20 * (h.via.toNat % 16)) ++
  leBytes 1 (h.via.toNat / 16) ++
  leBytes 1 (b2n h.viaV + 2 * h.hops.toNat + 128 * 0) ++
  leBytes 2 (b2n h.mark + 0 + 2 * b2n h.spec + 4 * b2n h.order + 8 * h.cls.toNat + 64 * h.vc.toNat
    + 1024 * h.len.toNat) ++
  leBytes 1 h.op.toNat ++ leBytes 1 h.slice.toNat ++ leBytes 2 h.dstId.toNat ++ leBytes 2 h.srcId.toNat ++
  leBytes 2 h.seq.toNat

/-- Bits [47:40] of the header: ECHO is bit 47. -/
def hdrBytesFull (h : Header) : List Byte :=
  (hdrBytes h).set 5 (BitVec.ofNat 8 (b2n h.viaV + 2 * h.hops.toNat + 128 * b2n h.echo))

/-- The header as the CRC takes it: the fields marked D are 0 (R149). -/
def crcHdr (h : Header) : Header :=
  { h with vc := 0, spec := false, mark := false, hops := 0, viaV := false, via := 0 }

/-- One byte of CRC-32, bit-reflected (R149). -/
def crcBits : Nat → BitVec 32 → BitVec 32
  | 0, c => c
  | n + 1, c => crcBits n (if c.getLsbD 0 then (c >>> 1) ^^^ 0xEDB88320 else c >>> 1)

/-- CRC-32 of a byte string: initial value and final XOR FFFF_FFFFh (R149). -/
def crc32 (bs : List Byte) : BitVec 32 :=
  (bs.foldl (fun c b => crcBits 8 (c ^^^ b.setWidth 32)) 0xFFFFFFFF) ^^^ 0xFFFFFFFF

/-- The CRC a packet should carry. -/
def pktCrc (h : Header) (payload : List Byte) : BitVec 32 := crc32 (hdrBytesFull (crcHdr h) ++ payload)

/-- The 8 tail bytes (R149). -/
def tailBytes (pk : Packet) : List Byte :=
  leBytes 4 pk.crc.toNat ++ [pk.verdict] ++ leBytes 3 pk.tailRsv.toNat

/-- The packet's bytes, without padding. -/
def pktBytes (pk : Packet) : List Byte := hdrBytesFull pk.hdr ++ pk.payload ++ tailBytes pk

/-- A header from its 16 bytes. -/
def hdrOf (bs : List Byte) : Header :=
  let n := leAt bs 0 16
  let f (lo len : Nat) : Nat := (n >>> lo) % 2 ^ len
  { seq := BitVec.ofNat 16 (f 112 16), srcId := BitVec.ofNat 16 (f 96 16), dstId := BitVec.ofNat 16 (f 80 16)
    slice := BitVec.ofNat 8 (f 72 8), op := BitVec.ofNat 8 (f 64 8), len := BitVec.ofNat 6 (f 58 6)
    vc := BitVec.ofNat 4 (f 54 4), cls := BitVec.ofNat 3 (f 51 3), order := n.testBit 50, spec := n.testBit 49
    mark := n.testBit 48, echo := n.testBit 47, hops := BitVec.ofNat 6 (f 41 6), viaV := n.testBit 40
    via := BitVec.ofNat 12 (f 28 12), rsv := BitVec.ofNat 20 (f 8 20), fmt := BitVec.ofNat 8 (f 0 8) }

/-- A packet from its bytes (R507). -/
def pktOf (bs : List Byte) : Packet :=
  let h := hdrOf bs
  let p := payLen h
  { hdr := h, payload := (bs.drop 16).take p, tailRsv := BitVec.ofNat 24 (leAt bs (16 + p + 5) 3)
    verdict := BitVec.ofNat 8 (leAt bs (16 + p + 4) 1), crc := BitVec.ofNat 32 (leAt bs (16 + p) 4), pad := [] }

/-- A header of the device's own making (R153, R161): class, VC 0 form, slice, destination. -/
def ownHdr (d : Dev) (op cls slice dst seq lenUnits : Nat) : Header :=
  { seq := BitVec.ofNat 16 seq, srcId := d.devId, dstId := BitVec.ofNat 16 dst, slice := BitVec.ofNat 8 slice
    op := BitVec.ofNat 8 op, len := BitVec.ofNat 6 (lenUnits - 1), vc := 0, cls := BitVec.ofNat 3 cls
    order := false, spec := false, mark := false, echo := false, hops := BitVec.ofNat 6 d.hopLimit
    viaV := false, via := 0, rsv := 0, fmt := 1 }

/-- A packet of the device's own making: its payload padded to whole 64-byte units, with its CRC. -/
def ownPkt (d : Dev) (op cls slice dst seq : Nat) (payload : List Byte) : Packet :=
  let units := max 1 (cdiv payload.length 64)
  let h := ownHdr d op cls slice dst seq units
  let body := padTo (64 * units) payload
  { hdr := h, payload := body, tailRsv := 0, verdict := 0, crc := pktCrc h body, pad := [] }

/-- A byte string with `v` in `len` little-endian bytes at `off`. -/
def putAt (bs : List Byte) (off len v : Nat) : List Byte :=
  bs.take off ++ leBytes len v ++ bs.drop (off + len)

/-- An operand unit of 64 bytes from (offset, length, value) fields. -/
def unit64 (fs : List (Nat × Nat × Nat)) : List Byte :=
  fs.foldl (fun b f => putAt b f.1 f.2.1 f.2.2) (zeros 64)

/-- The abort word (R18): condition word, group, frame. -/
def abortWord (w : Word) (group fno : Nat) : Nat := w.toNat * 2 ^ 32 + (group % 2 ^ 16) * 2 ^ 16 + fno % 2 ^ 16

/-! ## Tables -/

/-- A Destination Table entry (R154). -/
structure DtE where
  slice : Nat
  classes : Nat
  ref : Nat
  coord : Nat
  maxlen : Nat
  ty : Nat
  deriving DecidableEq, Repr

/-- Entry `e` of the Destination Table; TYPE 111b is taken as INVALID (R155). -/
def Dev.dt (d : Dev) (e : Nat) : DtE :=
  let lo := d.rd (ra 4 (0x800000 + 8 * e))
  let hi := d.rd (ra 4 (0x800004 + 8 * e))
  let t := Machine.fld lo 0 3
  { slice := Machine.fld hi 24 8, classes := Machine.fld hi 17 7, ref := Machine.fld hi 0 16
    coord := Machine.fld lo 20 12, maxlen := Machine.fld lo 8 6, ty := if t = 7 then 0 else t }

/-- Slice Table: ENABLE, and whether a port is a member (R159). -/
def Dev.sliceOn (d : Dev) (s : Nat) : Bool := d.bit (ra 4 (0x400000 + 0x20 * s)) 0
def Dev.sliceHas (d : Dev) (s p : Nat) : Bool := d.bit (ra 4 (0x400004 + 0x20 * s + 4 * (p / 32))) (p % 32)

/-- Coordinate in effect (R198). -/
def Dev.own (d : Dev) : Nat := d.coord.toNat

/-- Ring sizes (R197). -/
def Dev.kx (d : Dev) : Nat := d.fld (ra 6 4) 0 4 + 1
def Dev.ky (d : Dev) : Nat := d.fld (ra 6 4) 4 4 + 1
def Dev.kz (d : Dev) : Nat := d.fld (ra 6 4) 8 4 + 1
def Dev.ndev (d : Dev) : Nat := d.kx * d.ky * d.kz

/-- Coordinate of dimension 0 X, 1 Y, 2 Z; ring size of it. -/
def cdim (c i : Nat) : Nat := c / 16 ^ i % 16
def Dev.ring (d : Dev) (i : Nat) : Nat := if i = 0 then d.kx else if i = 1 then d.ky else d.kz

/-- A coordinate lies within the shape. -/
def Dev.inShape (d : Dev) (c : Nat) : Bool :=
  decide (cdim c 0 < d.kx ∧ cdim c 1 < d.ky ∧ cdim c 2 < d.kz)

/-- Coordinates of the shape in ascending 12-bit order. -/
def Dev.coords (d : Dev) : List Nat :=
  (List.range d.kz).flatMap (fun z => (List.range d.ky).flatMap (fun y =>
    (List.range d.kx).map (fun x => z * 256 + y * 16 + x)))

/-- An overlay entry in use (R221): unreachable, FIXED with its group and S_SET, or DOR. -/
inductive OvE where
  | unreach
  | fixed (g : Nat) (sset : Bool)
  | dor
  deriving DecidableEq, Repr

/-- The entry of coordinate `c` in overlay `n`. -/
def Dev.ovEntry (d : Dev) (n c : Nat) : OvE :=
  if ! d.inShape c then .unreach else
  let w := d.rd (ra 6 (0x400000 + 0x2000 * n + 4 * (c / 2)))
  let e := Machine.fld w (16 * (c % 2)) 16
  match e / 2 ^ 14 with
  | 0 => .dor
  | 1 =>
    let g := e / 2 ^ 11 % 8
    if g = 0 ∨ g = 7 then .unreach else .fixed g (e.testBit 10)
  | _ => .unreach

/-- The entry of the active overlay. -/
def Dev.ov (d : Dev) (c : Nat) : OvE := d.ovEntry d.ovl c

/-- A Corridor Table entry (R214). -/
structure CtE where
  valid : Bool
  mask : Nat
  cells : Nat
  inP : Nat
  outP : Nat
  src : Nat
  dst : Nat
  slice : Nat
  deriving DecidableEq, Repr

def Dev.ct (d : Dev) (i : Nat) : CtE :=
  let w (k : Nat) := d.rd (ra 6 (0x800000 + 0x10 * i + 4 * k))
  { valid := Machine.bit (w 1) 0, mask := Machine.fld (w 1) 4 4, cells := Machine.fld (w 1) 16 8
    slice := Machine.fld (w 1) 24 8, inP := Machine.fld (w 0) 24 7, outP := Machine.fld (w 0) 16 7
    dst := Machine.fld (w 2) 0 16, src := Machine.fld (w 2) 16 16 }

/-- The corridor is in force under an overlay, and under the active one (R214). -/
def Dev.ctIn (d : Dev) (n i : Nat) : Bool := (d.ct i).valid && (d.ct i).mask.testBit n
def Dev.ctOn (d : Dev) (i : Nat) : Bool := d.ctIn d.ovl i

/-- Numbers of the corridors in force under an overlay, of those with a register of theirs written, and under the active one. -/
def Dev.corridorsIn (d : Dev) (n : Nat) : List Nat :=
  ((d.regs.filter (fun e => decide (0x06800000 ≤ e.1 ∧ e.1 < 0x06810000 ∧ e.1 % 16 = 4))).map
    (fun e => (e.1 - 0x06800000) / 16)).filter (fun i => d.ctIn n i)
def Dev.corridors (d : Dev) : List Nat := d.corridorsIn d.ovl

/-- A port carries an active corridor (ROUTE_PORT_p.CORR). -/
def Dev.portCorr (d : Dev) (p : Nat) : Bool :=
  d.corridors.any (fun i => (d.ct i).inP == p || (d.ct i).outP == p)

/-- The overlay of a frame, as armed (R184, R215). -/
def Dev.ovlAt (d : Dev) (f : Nat) : Nat :=
  match d.ract with
  | some a => if a.t ≤ f then a.ovl.getD d.ovl else d.ovl
  | none => d.ovl

/-- Corridors that leave by an output in a frame, and K(o,X): the cells reserved for them (R184, R215). -/
def Dev.corrAt (d : Dev) (o f : Nat) : List Nat := (d.corridorsIn (d.ovlAt f)).filter (fun i => (d.ct i).outP == o)
def Dev.kRes (d : Dev) (o f : Nat) : Nat := ((d.corrAt o f).map (fun i => (d.ct i).cells)).sum

/-- A Multicast Table entry (R219). -/
structure MtE where
  locals : List Nat
  root : Nat
  dim : Nat
  passM : Bool
  passP : Bool
  origM : Bool
  origP : Bool
  deriving DecidableEq, Repr

def Dev.mt (d : Dev) (g : Nat) : MtE :=
  let w (k : Nat) := d.rd (ra 6 (0xC00000 + 0x20 * g + 4 * k))
  { locals := (List.range 128).filter (fun p => Machine.bit (w (p / 32)) (p % 32))
    root := Machine.fld (w 4) 20 12, dim := Machine.fld (w 4) 16 2, passM := Machine.bit (w 4) 3
    passP := Machine.bit (w 4) 2, origM := Machine.bit (w 4) 1, origP := Machine.bit (w 4) 0 }

/-- A Catch Group Table entry (R234). -/
structure GtE where
  members : List Nat
  spillRegion : Nat
  spillEn : Bool
  mTotal : Nat
  inDirs : List Nat
  outDir : Nat
  slice : Nat
  units : Nat
  sparseOk : Bool
  sat : Bool
  op : Nat
  fmt : Nat
  mask : Nat
  valid : Bool
  catchId : Nat
  deriving DecidableEq, Repr

def Dev.gt (d : Dev) (g : Nat) : GtE :=
  let w (k : Nat) := d.rd (ra 7 (0x800000 + 0x20 * g + 4 * k))
  { members := (List.range 128).filter (fun p => Machine.bit (w (p / 32)) (p % 32))
    spillRegion := Machine.fld (w 7) 20 12, spillEn := Machine.bit (w 7) 19, mTotal := Machine.fld (w 7) 4 12
    inDirs := (List.range 7).filter (fun k => decide (1 ≤ k) && Machine.bit (w 6) (17 + k))
    outDir := Machine.fld (w 6) 15 3, slice := Machine.fld (w 6) 0 8, units := Machine.fld (w 5) 26 6
    sparseOk := Machine.bit (w 5) 23, sat := Machine.bit (w 5) 22, op := Machine.fld (w 5) 16 4
    fmt := Machine.fld (w 5) 12 4, mask := Machine.fld (w 5) 8 4, valid := Machine.bit (w 5) 0
    catchId := Machine.fld (w 4) 16 16 }

/-- A group is in force (R236). -/
def Dev.gtOn (d : Dev) (g : Nat) : Bool := (d.gt g).valid && (d.gt g).mask.testBit d.ovl

/-- Numbers of the table entries written at a base with a stride: word `k` of entry i lies at base + stride × i + 4k. -/
def Dev.entries (d : Dev) (base stride count k : Nat) : List Nat :=
  (d.regs.filter (fun e => decide (base ≤ e.1 ∧ e.1 < base + stride * count ∧ (e.1 - base) % stride = 4 * k))).map
    (fun e => (e.1 - base) / stride)

/-- Catch groups that are defined. -/
def Dev.groups (d : Dev) : List Nat := (d.entries 0x07800000 0x20 4096 5).filter (fun g => (d.gt g).valid)

/-- An Expert Table entry (R303). -/
structure EtE where
  epId : Nat
  cap : Nat
  w : Nat
  fallback : Nat
  policy : Nat
  slice : Nat
  set : Nat
  valid : Bool
  deriving DecidableEq, Repr

def Dev.et (d : Dev) (e : Nat) : EtE :=
  let w (k : Nat) := d.rd (ra 8 (0x800000 + 0x10 * e + 4 * k))
  { epId := Machine.fld (w 3) 16 16, cap := Machine.fld (w 3) 0 16, w := Machine.fld (w 2) 16 16
    fallback := Machine.fld (w 2) 2 14, policy := Machine.fld (w 2) 0 2, slice := Machine.fld (w 1) 24 8
    set := Machine.fld (w 1) 4 14, valid := Machine.bit (w 1) 0 }

def Dev.experts (d : Dev) : List Nat := (d.entries 0x08800000 0x10 16384 1).filter (fun e => (d.et e).valid)

/-- A Basin Region Table entry, BASE and SIZE in bytes (R334). -/
structure RtE where
  base : Nat
  size : Nat
  page : Nat
  atomGrp : Nat
  wrGrp : Nat
  rdGrp : Nat
  slice : Nat
  purpose : Nat
  valid : Bool
  deriving DecidableEq, Repr

def Dev.rt (d : Dev) (i : Nat) : RtE :=
  let w (k : Nat) := d.rd (ra 9 (0x800000 + 0x10 * i + 4 * k))
  { base := Machine.fld (w 3) 15 17 * 2 ^ 21
    size := (Machine.fld (w 3) 0 15 * 4 + Machine.fld (w 2) 30 2) * 2 ^ 21
    page := Machine.fld (w 2) 27 3, atomGrp := Machine.fld (w 2) 16 8, wrGrp := Machine.fld (w 2) 8 8
    rdGrp := Machine.fld (w 2) 0 8, slice := Machine.fld (w 1) 24 8, purpose := Machine.fld (w 1) 16 3
    valid := Machine.bit (w 1) 0 }

def Dev.regions (d : Dev) : List Nat := (d.entries 0x09800000 0x10 4096 1).filter (fun i => (d.rt i).valid)

/-- A source belongs to an access group (R336). -/
def Dev.inAg (d : Dev) (a x : Nat) : Bool :=
  let w := if a = 0 then 0 else d.rd (ra 9 (0xC00000 + 4 * a))
  (x &&& Machine.fld w 16 16) == Machine.fld w 0 16

/-- Identifiers with a Destination Table entry that is not INVALID. -/
def Dev.dests (d : Dev) : List Nat := (d.entries 0x04800000 8 65536 0).filter (fun e => (d.dt e).ty != 0)

end Sys2Proof.Machine
end

