-- ==== Sys2Proof/Machine/Flags.lean ====
section
/-! DEFINITION. What counting and reporting do: drops and their causes (R158, R191, R491), PKT conditions (R170),
saturation and watermarks. -/

namespace Sys2Proof.Machine

/-- Cause codes of CNT_DROP (R491); 0 for drops other counters count. -/
def causeK : Cause → Nat
  | .tail => 1
  | .stage => 2
  | .quota => 3
  | .corrSlot => 4
  | .corrMis => 4
  | .catNoRoom => 4
  | .notAligned => 5
  | .portDown => 6
  | .trainLong => 7
  | .flush => 8
  | .linkLost => 9
  | .overrun => 0xA
  | .deviceFault => 0xB
  | .pkt _ => 0
  | .unreach => 0
  | .residue _ => 8
  | .fenced => 0

/-- Address of CNT_DROP_p_c_k_PKT_LO. -/
def dropAddr (p c k : Nat) : Nat := rp 0x10 (0x800 + 0x100 * c + 0x10 * k) p

/-- Count `pkts` packets and `cells` cells under cause code `k` (R491); an invalid class has no counter. -/
def Dev.countDrop (d : Dev) (p c k pkts cells : Nat) : Dev :=
  if c < 7 then (d.add64 (dropAddr p c k) pkts).add64 (dropAddr p c k + 8) cells else d

/-- Count a stomped packet against its ingress port (R491). -/
def Dev.countStomp (d : Dev) (ing : Option Nat) (h : Header) : Dev :=
  match ing with
  | some p => d.countDrop p h.cls.toNat 0xC 1 (cellsOfPkt h)
  | none => d

/-- DETAIL of a PKT condition (R170): ingress port, or bit 7 for an originated packet. -/
def ingDetail (ing : Option Nat) : Nat :=
  match ing with
  | some p => p
  | none => 0x80

/-- The PKT condition of a test of R157 that a packet fails. -/
def pktDetail (c : Nat) (ing : Option Nat) (h : Header) : Nat :=
  ingDetail ing + (if c = 5 ∨ c = 6 then 256 * h.slice.toNat else 0)

/-- Count a packet discarded with PKT condition `c` (R158). -/
def Dev.countPkt (d : Dev) (c : Nat) (ing : Option Nat) : Dev :=
  match ing with
  | some p => d.add64 (rp 4 (0x200 + 8 * c) p) 1
  | none => d.add64 (ra 4 0x20) 1

/-- Count and raise a PKT condition about the tracker of destination port `o` (R170). -/
def Dev.orderCond (d : Dev) (c : Nat) (ing : Option Nat) (o : Option Nat) : Dev :=
  (d.countPkt c ing).raise 4 c (ingDetail ing + (match o with | some q => 256 * q | none => 0x8000))

/-- The condition word a discard reports to a requester, if it is one of R158 or R204. -/
def dropWord (dr : Drop) (ing : Option Nat) (h : Header) : Option Word :=
  match dr.cause with
  | .pkt c => if c < 0xA then some (condWord 4 c (pktDetail c ing h)) else none
  | .unreach => some (condWord 6 3 (ingDetail ing))
  | _ => none

/-- Cells a drop counts: those it names, or the whole packet's. -/
def dropCells (dr : Drop) (h : Header) : Nat := if dr.cells = 0 then cellsOfPkt h else dr.cells

/-- Count a confirmed drop and raise what it raises (R158, R191, R204, R215). A condition of several drops of one port in a frame names
the SLICE of the first (R170; DESIGN CHOICE, log 94). -/
def Dev.settleDrop (d : Dev) (ing : Option Nat) (h : Header) (dr : Drop) : Dev :=
  match dr.cause with
  | .pkt c =>
    if 0xB ≤ c then d.orderCond c ing (if dr.atOut then some dr.port else none)
    else (d.countPkt c ing).raiseOnce 0xFF 4 c (pktDetail c ing h)
  | .unreach =>
    (d.add64 (match ing with | some p => rp 6 0x108 p | none => ra 6 0xC0) 1).raiseOnce 0xFFFF 6 3 (ingDetail ing)
  | .trainLong => (d.countDrop dr.port h.cls.toNat 7 1 (cellsOfPkt h)).raiseOnce 0xFFFF 5 6 dr.port
  | .corrMis => (d.countDrop dr.port h.cls.toNat 4 1 (cellsOfPkt h)).raiseOnce 0xFFFF 6 4 (ingDetail ing)
  | .fenced => d
  | k => d.countDrop dr.port h.cls.toNat (causeK k) 1 (dropCells dr h)

/-- Raise a watermark in bits [31:16] of a register to `n`. -/
def Dev.wmark (d : Dev) (a n : Nat) : Dev :=
  if d.fld a 16 16 < n then d.setFld a 16 16 (min n 0xFFFF) else d

/-- A device-fault drop of a packet at an output (R28, R69, R173, R177). -/
def Dev.deviceFault (d : Dev) (o : Nat) (h : Header) : Dev :=
  d.countDrop o h.cls.toNat 0xB 1 (cellsOfPkt h)

end Sys2Proof.Machine
end

