-- ==== Sys2Proof/Machine/Route.lean ====
section
/-! DEFINITION. Tests of a packet and its next hop (R148, R152, R157, R200-R207, R220), the packets the device originates
(R161) and the answers to discarded requests (R158, R204). -/

namespace Sys2Proof.Machine

/-! ## Operations (R152) -/

/-- Destination types, whether endpoints may send it, and classes of an OP. Types: 1 ENDPOINT, 2 BASIN, 3 MCAST,
4 CATCH, 5 EXPERT, 6 DEVICE. -/
def opInfo (op : Nat) : Option (List Nat × Bool × List Nat) :=
  match op with
  | 0x01 => some ([1, 3], true, [0, 1, 2, 3, 4, 5, 6])
  | 0x02 => some ([1], false, [0])
  | 0x10 => some ([2], true, [3, 1])
  | 0x11 => some ([2], true, [3, 1])
  | 0x12 => some ([2], true, [3])
  | 0x13 => some ([2], true, [3])
  | 0x14 => some ([2], true, [3])
  | 0x15 => some ([1], false, [3, 1])
  | 0x20 => some ([4], true, [2, 1])
  | 0x21 => some ([4], false, [2, 1])
  | 0x22 => some ([1, 3], false, [2, 1])
  | 0x23 => some ([4], true, [0])
  | 0x24 => some ([1, 4], false, [0])
  | 0x30 => some ([5], true, [2])
  | 0x31 => some ([1], false, [2])
  | 0x32 => some ([5], true, [2])
  | 0x33 => some ([1], false, [2])
  | 0x34 => some ([1], false, [0])
  | 0x40 => some ([6], false, [0])
  | 0x41 => some ([6], true, [0])
  | 0x42 => some ([1], false, [0])
  | _ => none

/-! ## Virtual channels (R129, R148, R205) -/

/-- LL-COLL, LL-MEM and LL-GEN. -/
def lossless (c : Nat) : Bool := decide (2 ≤ c ∧ c ≤ 4)

/-- The VC of a class with phase h and side s. -/
def vcOf (c h s : Nat) : Nat :=
  match c with
  | 0 => 0
  | 1 => 1
  | 5 => 14
  | 6 => 15
  | c => 2 + 4 * (c - 2) + 2 * h + s

/-- Phase and side of a lossless VC. -/
def vcH (c vc : Nat) : Nat := if lossless c then (vc - 2) / 2 % 2 else 0
def vcS (c vc : Nat) : Nat := if lossless c then (vc - 2) % 2 else 0

/-- VC is valid for the class on a port whose partner has the given SWITCH flag (R148, no condition of which names class 7). -/
def vcValid (sw : Bool) (c vc : Nat) : Bool :=
  if lossless c then
    decide (2 + 4 * (c - 2) ≤ vc ∧ vc ≤ 5 + 4 * (c - 2)) && (sw || vc == vcOf c 0 0)
  else c == 7 || vc == vcOf c 0 0

/-- A VC that is flow controlled. -/
def vcFc (v : Nat) : Bool := v == 0 || decide (2 ≤ v ∧ v ≤ 13)

/-! ## Next hop -/

/-- Direction group of dimension order routing from the own coordinate (R202). -/
def Dev.dor (d : Dev) (t id : Nat) : Nat :=
  match (List.range 3).find? (fun i => cdim d.own i != cdim t i) with
  | none => 0
  | some i =>
    let k := d.ring i
    let p := (cdim t i + k - cdim d.own i % k) % k
    let m := k - p
    if p < m then 2 * i + 1 else if m < p then 2 * i + 2 else if id % 2 = 0 then 2 * i + 1 else 2 * i + 2

/-- A hop on group `g` crosses the dateline of its dimension (R205). -/
def Dev.crosses (d : Dev) (g : Nat) : Bool :=
  let i := (g - 1) / 2
  if g % 2 = 1 then cdim d.own i + 1 == d.ring i else cdim d.own i == 0

/-- The VC of a hop on group `g` (R205). -/
def Dev.hopVc (d : Dev) (ing : Option Nat) (h0 : Header) (h g : Nat) (sset : Bool) : Nat :=
  let c := h0.cls.toNat
  let v := h0.vc.toNat
  let tor := match ing with | some p => d.isTorus p | none => false
  let same := match ing with
    | some p => tor && (d.dir p - 1) / 2 == (g - 1) / 2 && h == vcH c v
    | none => false
  vcOf c h (if d.crosses g || sset then 1 else if same then vcS c v else 0)

/-- The hop toward a coordinate other than the device's own; none: UNREACH. -/
def Dev.toward (d : Dev) (ing : Option Nat) (h0 : Header) (h target : Nat) : Option Tgt :=
  let go (g : Nat) (sset : Bool) : Option Tgt :=
    if d.group g = [] then none else some { port := none, dir := g, vc := d.hopVc ing h0 h g sset }
  match d.ov target with
  | .unreach => none
  | .fixed g sset => go g sset
  | .dor => go (d.dor target h0.dstId.toNat) false

/-- Where a packet goes: outputs with the causes of copies that are not made, an engine of this device (Catchment,
Fan, Basin or Col), or nowhere. -/
inductive Way where
  | out (l : List Tgt) (lost : List Cause)
  | engine
  | unreach
  deriving DecidableEq, Repr

/-- Phase a packet arrives with: that of its VC on a torus port, else 0. -/
def Dev.phase (d : Dev) (ing : Option Nat) (h : Header) : Nat :=
  match ing with
  | some p => if d.isTorus p then vcH h.cls.toNat h.vc.toNat else 0
  | none => 0

/-- R202 for destinations with one coordinate. -/
def Dev.unicast (d : Dev) (ing : Option Nat) (h : Header) (coord : Nat) (here : Way) : Header × Way :=
  let ph := d.phase ing h
  let via := h.via.toNat
  let drop := h.viaV && (via == d.own || d.ov via == .unreach)
  let h1 := if drop then { h with viaV := false } else h
  let ph1 := if drop then 1 else ph
  let target := if h1.viaV then via else coord
  if target = d.own then (h1, here)
  else
    match d.toward ing h ph1 target with
    | none => (h1, .unreach)
    | some t => (h1, .out [t] [])

/-- One ring copy in a direction: made, or the cause for which it is not (R220). -/
def Dev.ringCopy (d : Dev) (ing : Option Nat) (h : Header) (g : Nat) : List Tgt × List Cause :=
  if d.group g = [] then ([], [.unreach])
  else if h.hops = 0 then ([], [.pkt 9])
  else ([{ port := none, dir := g, vc := d.hopVc ing h 0 g false }], [])

/-- R220. -/
def Dev.multicast (d : Dev) (ing : Option Nat) (h : Header) (g : Nat) : Way :=
  let e := d.mt g
  let locals : List Tgt := e.locals.map (fun p =>
    { port := some p, dir := 0, vc := vcOf h.cls.toNat 0 0 })
  let gp := 2 * e.dim - 1
  let gm := 2 * e.dim
  let ring (p m : Bool) : Way :=
    let a := if p && e.dim != 0 then d.ringCopy ing h gp else ([], [])
    let b := if m && e.dim != 0 then d.ringCopy ing h gm else ([], [])
    .out (locals ++ a.1 ++ b.1) (a.2 ++ b.2)
  if h.viaV then
    if d.own = h.via.toNat then .unreach
    else
      match ing with
      | none => .unreach
      | some p =>
        if e.dim ≠ 0 ∧ d.dir p = gm then ring e.passP false
        else if e.dim ≠ 0 ∧ d.dir p = gp then ring false e.passM
        else .unreach
  else if d.own = e.root then ring e.origP e.origM
  else
    match d.toward ing h (d.phase ing h) e.root with
    | none => .unreach
    | some t => .out [t] []

/-- A packet whose header names `e` takes the multicast's ring copies and local copies here (R220). -/
def Dev.isRoot (d : Dev) (h : Header) (e : DtE) : Bool :=
  e.ty == 3 && (h.viaV || d.own == (d.mt (e.ref % 0x2000)).root)

/-- The next hop of a packet that passed its tests. -/
def Dev.route (d : Dev) (ing : Option Nat) (h : Header) (e : DtE) : Header × Way :=
  match e.ty with
  | 1 => d.unicast ing h e.coord (.out [{ port := some (e.ref % 128), dir := 0, vc := vcOf h.cls.toNat 0 0 }] [])
  | 2 => d.unicast ing h e.coord .engine
  | 6 => d.unicast ing h e.coord .engine
  | 3 => (h, d.multicast ing h (e.ref % 0x2000))
  | 5 =>
    let own := match ing with | some p => d.pSwitch p | none => true
    if h.viaV && own && h.via.toNat != d.own then
      match d.toward ing h (d.phase ing h) h.via.toNat with
      | none => (h, .unreach)
      | some t => (h, .out [t] [])
    else (h, .engine)
  | _ => (h, .engine)

/-! ## Tests (R157) -/

/-- The first of tests 1 to 8 that a packet fails; `own` for packets of the device or Col, which meet 1, 2, 4, 7. -/
def Dev.tests (d : Dev) (ing : Option Nat) (h : Header) : Option Nat :=
  let c := h.cls.toNat
  let sw := match ing with | some p => d.pSwitch p | none => true
  let own := ing.isNone
  let e := d.dt h.dstId.toNat
  let s := d.dt h.srcId.toNat
  if h.fmt ≠ 1 ∨ c = 7 ∨ ! vcValid sw c h.vc.toNat then some 1
  else
    match opInfo h.op.toNat with
    | none => some 2
    | some (types, ep, classes) =>
      if ! sw && ! ep then some 2
      else if ! sw && ! (s.ty == 1 && s.coord == d.own && some (s.ref % 128) == ing) then some 3
      else if h.dstId = 0 ∨ e.ty = 0 then some 4
      else if ! own && (! d.sliceOn h.slice.toNat ||
          (! sw && ! d.sliceHas h.slice.toNat (ing.getD 0))) then some 5
      else if ! own && h.op != 0x41 && e.slice != h.slice.toNat then some 6
      else if e.ty ∉ types then some 7
      else if ! own && (! e.classes.testBit c || c ∉ classes || decide (e.maxlen < h.len.toNat) ||
          (h.slice == 0 && c != 0)) then some 8
      else none

/-- A packet meets test 9: its one next hop is a torus group and HOPS is 0. -/
def hopsGone (h : Header) (mc : Bool) (w : Way) : Bool :=
  match w with
  | .out ts _ => ! mc && h.hops == 0 && ts.any (fun t => t.dir != 0)
  | _ => false

/-! ## Valiant intermediates (R206, R207) -/

/-- One advance of the shift register. -/
def lfsrStep (r : Word) : Word :=
  (r <<< 1) ||| BitVec.ofNat 32 (b2n (Bool.xor (Bool.xor (bit r 31) (bit r 21)) (Bool.xor (bit r 1) (bit r 0))))

/-- Coordinates a draw picks from. -/
def Dev.eligible (d : Dev) : List Nat := d.coords.filter (fun c => c == d.own || d.ov c != .unreach)

/-- A packet meets the conditions of R206. -/
def Dev.valiant (d : Dev) (p : Nat) (h : Header) (e : DtE) : Bool :=
  decide (16 < d.ndev) &&
  ((h.cls == 3 && d.bit (ra 6 4) 24) || (h.cls == 4 && d.bit (ra 6 4) 25)) &&
  ! d.pSwitch p && (e.ty == 1 || e.ty == 2) && e.coord != d.own

/-- Draw an intermediate for a packet that meets R206. -/
def Dev.drawVia (d : Dev) (p : Nat) (h : Header) (e : DtE) : Dev × Header :=
  let k := d.owner p
  let r := lfsrStep (d.lfsr.getD k 1)
  let l := d.eligible
  let i := l.getD (r.toNat * l.length / 2 ^ 32) d.own
  let d1 := ({ d with lfsr := d.lfsr.set k r }).add64 (ra 6 0xA8) 1
  if i = d.own ∨ i = e.coord then (d1, h)
  else (d1, { h with viaV := true, via := BitVec.ofNat 12 i })

/-! ## Packets of the device's own making -/

/-- Add a packet to those in the device. -/
def Dev.addPkt (d : Dev) (k : Pkt) : Dev :=
  { d with pkts := d.pkts ++ [{ k with id := d.nextId, stamp := d.fno }], nextId := d.nextId + 1 }

/-- The state a routed packet of the device takes: engine, or presenting. -/
def wayState (w : Way) : PkSt × List Tgt :=
  match w with
  | .out ts _ => (.hold, ts)
  | _ => (.engine, [])

/-- Originate a packet (R161): tests 1, 2, 4, 7 and the next hop; a failure counts at once in PKT_DROP_INT or
ROUTE_UNREACH_INT. `dir` names the direction group where its rule does; `cin` is for R215. -/
def Dev.originate (d : Dev) (pk : Packet) (dir : Option Nat) (cin : Option Nat) (col : Bool) : Dev :=
  let h := { pk.hdr with hops := BitVec.ofNat 6 d.hopLimit, vc := BitVec.ofNat 4 (vcOf pk.hdr.cls.toNat 0 0) }
  match d.tests none h with
  | some c => d.settleDrop none h { cause := .pkt c, atOut := false, port := 0 }
  | none =>
    let e := d.dt h.dstId.toNat
    let (h1, w) := match dir with
      | some g => (h, if d.group g = [] then Way.unreach
          else .out [{ port := none, dir := g, vc := d.hopVc none h 0 g false }] [])
      | none => d.route none h e
    let mc := dir.isNone && d.isRoot h e
    if hopsGone h1 mc w then d.settleDrop none h { cause := .pkt 9, atOut := false, port := 0 }
    else
      let lost := match w with | .out _ l => l | .unreach => [.unreach] | .engine => []
      let d1 := lost.foldl (fun x c => x.settleDrop none h { cause := c, atOut := false, port := 0 }) d
      if w = .unreach then d1
      else
        d1.addPkt { id := 0, ing := none, fromCol := col, pk := { pk with hdr := h1 }, conf := true
                    st := (wayState w).1, tgts := (wayState w).2, mcast := mc, cin := cin, since := d.now }

/-- Originate an ordinary packet of the device. -/
def Dev.send (d : Dev) (op cls slice dst seq : Nat) (payload : List Byte) : Dev :=
  d.originate (ownPkt d op cls slice dst seq payload) none none false

/-- ORD_DONE (R165): the ORDER packet's header and the status. -/
def Dev.ordDone (d : Dev) (h : Header) (status : Nat) : Dev :=
  d.send 0x02 0 h.slice.toNat h.srcId.toNat 0
    (unit64 [(0, 2, h.dstId.toNat), (2, 1, b2n (h.seq.getLsbD 15)), (3, 1, status)])

/-- The operand unit of a BAS_CPL (R340). -/
def cplUnit (cond tag op flags addr seg old src : Nat) : List Byte :=
  unit64 [(0, 4, cond), (4, 2, tag), (6, 1, op), (7, 1, flags), (8, 5, addr), (14, 2, seg), (16, 8, old), (24, 2, src)]

/-- The operand unit of a CNT_DATA (R501). -/
def Dev.cntUnit (d : Dev) (cond : Word) (payload : List Byte) (fno : Nat) : List Byte :=
  unit64 [(0, 4, cond.toNat), (4, 2, leAt payload 2 2), (6, 1, leAt payload 0 1), (7, 1, leAt payload 1 1), (8, 6, fno),
    (14, 6, d.rd64 (ra 0x10 0xC) % 2 ^ 48), (20, 1, d.fld (ra 0x10 0) 0 5), (21, 1, b2n (d.bit (ra 0x10 0x10) 31))]

/-- Answer a discarded request to its source (R158, R204, R341). A request of another class than LL-MEM or CORR is
answered in LL-MEM (log 13). -/
def Dev.answer (d : Dev) (ing : Option Nat) (h : Header) (payload : List Byte) (w : Word) : Dev :=
  if 0x10 ≤ h.op.toNat ∧ h.op.toNat ≤ 0x14 then
    let corr := h.cls == 1
    let u := cplUnit w.toNat (leAt payload 6 2) h.op.toNat 1 (leAt payload 0 5) 0 0 h.srcId.toNat
    d.originate (ownPkt d 0x15 (if corr then 1 else 3) h.slice.toNat h.srcId.toNat
      (if corr then leAt payload 14 2 % 0x1000 else 0) u) none ing false
  else if h.op = 0x41 then d.send 0x42 0 h.slice.toNat h.srcId.toNat 0 (d.cntUnit w payload d.fno)
  else d

/-- The condition word with which a lost collective or Fan packet aborts its operation (R479, R480). -/
def lossWord (dr : Drop) : Option Word :=
  match dr.cause with
  | .flush => some (condWord 5 5 dr.port)
  | .linkLost => some (condWord 5 5 dr.port)
  | .residue n => some (condWord 6 8 (min n 0xFFFF))
  | _ => none

/-- Note a counted loss of a collective or Fan packet. -/
def Dev.noteLoss (d : Dev) (pk : Packet) (dr : Drop) : Dev :=
  if 0x20 ≤ pk.hdr.op.toNat ∧ pk.hdr.op.toNat < 0x40 then
    match lossWord dr with
    | some w => { d with lost := d.lost ++ [(pk, w)] }
    | none => d
  else d

/-- Settle the drop of a whole packet: count, raise, answer (R158, R162, R204). A request discarded with 0Bh is answered by ORD_DONE OFF
alone (DESIGN CHOICE, log 94). -/
def Dev.discard (d : Dev) (k : Pkt) (dr : Drop) : Dev :=
  let h := k.pk.hdr
  let ing := if dr.cause = .corrMis ∧ k.ing = none then k.cin else k.ing
  let d1 := (d.settleDrop ing h dr).noteLoss k.pk dr
  let passed3 := k.fromSw || (match dr.cause with | .pkt c => decide (4 ≤ c) | _ => true)
  let d2 := match dropWord dr k.ing h with
    | some w => if passed3 && k.ing.isSome then d1.answer k.ing h k.pk.payload w else d1
    | none => d1
  if dr.cause = .pkt 0xB then d2.ordDone h 3 else d2

/-! ## Lookup of a received packet -/

/-- An ORDER packet whose destination here does not track order (R162): its destination port, where it has one. -/
def Dev.orderOff (d : Dev) (h : Header) (mc : Bool) (w : Way) : Option (Option Nat) :=
  if ! (h.order && lossless h.cls.toNat) then none
  else
    match w with
    | .engine => some none
    | .out ts _ =>
      if mc then some none
      else
        match ts with
        | [t] =>
          match t.port with
          | some o => if d.bit (rp 4 0x100 (d.role o)) 0 then none else some (some o)
          | none => none
        | _ => none
    | .unreach => none

/-- R157, R202, R206: test a packet of ingress port `p`, whose header has its HOPS for this device, and find its next hop: the packet
with the state that gives it. What it fails is provisional until its confirmation (R71). -/
def Dev.resolve (d : Dev) (p : Nat) (k : Pkt) : Dev × Pkt :=
  let h0 := k.pk.hdr
  let gone (x : Dev) (dr : Drop) : Dev × Pkt := (x, { k with st := .dropped dr, dues := [] })
  match d.tests (some p) h0 with
  | some c => gone d { cause := .pkt c, atOut := false, port := p }
  | none =>
    let e := d.dt h0.dstId.toNat
    let (d1, h1) := if d.valiant p h0 e then d.drawVia p h0 e else (d, h0)
    let (h2, w) := d1.route (some p) h1 e
    let mc := d1.isRoot h2 e
    if hopsGone h2 mc w then gone d1 { cause := .pkt 9, atOut := false, port := p }
    else
      match d1.orderOff h2 mc w with
      | some o => gone d1 { cause := .pkt 0xB, atOut := o.isSome, port := o.getD p }
      | none =>
        let pk : Packet := { k.pk with hdr := h2 }
        match w with
        | .unreach => gone d1 { cause := .unreach, atOut := false, port := p }
        | .engine => (d1, { k with pk := pk, st := .engine, tgts := [], mcast := false, dues := [] })
        | .out ts lost =>
          -- a Fan copy for a local endpoint first meets its expert's admission (R310)
          let fan := h2.op == 0x31 && (ts.all (fun t => t.port.isSome))
          (d1, { k with
            st := if fan then .engine else .hold, pk := pk, tgts := ts, mcast := mc
            dues := lost.map (fun c => { cause := c, atOut := false, port := p }) })

/-- The header a packet of port `p` is looked up with: HOPS is set on what arrives from an endpoint (R161). -/
def Dev.lookHdr (d : Dev) (p : Nat) (h : Header) : Header := if d.pSwitch p then h else { h with hops := BitVec.ofNat 6 d.hopLimit }

/-- The lookup of a packet that arrives on port `p`; it joins those in the device. -/
def Dev.lookup (d : Dev) (p : Nat) (pk : Packet) (tag rseq : BitVec 12) : Dev :=
  let (d1, k) := d.resolve p
    { id := 0, ing := some p, fromSw := d.pSwitch p, pk := { pk with hdr := d.lookHdr p pk.hdr }, arr := some pk.hdr, tag0 := tag
      rseq0 := rseq, since := d.now, verd := ! pk.hdr.spec }
  d1.addPkt k

/-- The packet with an id. -/
def Dev.pkt (d : Dev) (id : Nat) : Option Pkt := d.pkts.find? (fun k => k.id == id)

/-- Change the packet with an id. -/
def Dev.onPkt (d : Dev) (id : Nat) (f : Pkt → Pkt) : Dev :=
  { d with pkts := d.pkts.map (fun k => if k.id = id then f k else k) }

/-- Remove the packet with an id. -/
def Dev.rmPkt (d : Dev) (id : Nat) : Dev := { d with pkts := d.pkts.filter (fun k => k.id != id) }

/-- A packet as it arrived. -/
def Pkt.arrived (k : Pkt) : Packet := { k.pk with hdr := k.arr.getD k.pk.hdr }

/-- Look a parked packet up again as it arrived, for its presentation under the tables in effect (R30, R225; log 14). -/
def Dev.relook (d : Dev) (k : Pkt) : Dev × Pkt :=
  let p := k.ing.getD 0
  d.resolve p { k with pk := { k.pk with hdr := d.lookHdr p k.arrived.hdr } }

end Sys2Proof.Machine
end

