-- ==== Sys2Proof/Machine/Buffers.lean ====
section
/-! DEFINITION. The pool managers (R174, R177, R178): sizes and addresses of pools, buffers handed out and taken back, the check of a
pointer, and the bridge a cell or Basin request takes (R25-R27). -/

namespace Sys2Proof.Machine

/-! ## Quantities at an output (R180) -/

/-- v(o,c) (R180). -/
def Dev.vcs (d : Dev) (o c : Nat) : Nat := if lossless c && d.isTorus o then 4 else 1

/-- G, L and W of a DWRR class at an output. -/
def Dev.gOf (d : Dev) (o c : Nat) : Nat := d.fld (rp 5 (0x100 + 0x10 * c) (d.role o)) 24 8
def Dev.lOf (d : Dev) (o c : Nat) : Nat := d.fld (rp 5 (0x100 + 0x10 * c) (d.role o)) 0 16
def Dev.wOf (d : Dev) (o c : Nat) : Nat :=
  if 2 ≤ c ∧ c ≤ 5 then d.fld (rp 3 0x20 (d.role o)) (8 * (c - 2)) 8
  else if c = 6 then d.fld (rp 3 0x24 (d.role o)) 0 8 else 0

/-- CAP(o,c) (R180). -/
def Dev.capOf (d : Dev) (o c : Nat) : Nat :=
  if c = 0 then d.ctlCells o
  else if c = 1 then 0
  else if d.cap o = 0 then 0 else d.gOf o c * d.lOf o c / d.cap o

/-- A class is carried at a port (R68). -/
def Dev.carried (d : Dev) (o c : Nat) : Bool :=
  c == 0 || (c == 1 && decide (0 < d.kMax o)) || (decide (2 ≤ c) && decide (0 < d.wOf o c))

/-! ## Pools (R174) -/

/-- Buffers of a slice. -/
def sliceBufs : Nat := 393216

/-- Sizes of the pools of a die (R174), pool 1 as what is left. -/
def Dev.poolSize (d : Dev) (k j : Nat) : Nat :=
  let ps := d.validPorts.filter (fun p => d.owner p == k)
  let ll (p : Nat) : List Nat := [2, 3, 4].filter (fun c => d.carried p c)
  let p0 := (ps.map (fun p => ((ll p).map (fun c => d.vcs p c * d.capOf p c)).sum)).sum
  let p2 := (ps.map (fun p => (4 * d.cap p + 16) * (1 + ((ll p).map (fun c => d.vcs p c)).sum))).sum
  let p3 := (ps.map (fun p => d.ctlCells p + 2 * d.kMax p)).sum
  let p4 := 1024 * (ps.filter (fun p => d.bit (rp 4 0x100 p) 0)).length
  let p5 := d.fld (ra 5 (0x4000A0 + 0x1000 * k)) 0 19
  match j with
  | 0 => p0
  | 1 => sliceBufs - (p0 + p2 + p3 + p4 + p5)
  | 2 => p2
  | 3 => p3
  | 4 => p4
  | _ => p5

/-- The first buffer of a pool: the pools follow each other from address 0. -/
def Dev.poolBase (d : Dev) (k j : Nat) : Nat := ((List.range j).map (fun i => d.poolSize k i)).sum

/-- The pool that holds queued cells of a class (R174). -/
def poolOf (c : Nat) : Nat := if lossless c then 0 else if 5 ≤ c then 1 else 3

/-! ## Pointers (R177) -/

/-- The pointer to a buffer of die `k`. -/
def ptrWord (k i : Nat) : Word := at32 27 2 k ||| at32 8 19 i

/-- The buffer a pointer names, and the check it must pass: its form, its die, and the pool named in the operation. -/
def ptrBuf (w : Word) : Nat := Machine.fld w 8 19
def Dev.ptrOk (d : Dev) (k j : Nat) (w : Word) : Bool :=
  Machine.fld w 29 3 == 0 && Machine.fld w 27 2 == k && decide (Machine.fld w 0 27 < 0x6000000) && Machine.fld w 0 8 == 0 &&
    decide (d.poolBase k j ≤ ptrBuf w ∧ ptrBuf w < d.poolBase k j + d.poolSize k j)

/-- Buffers of a die that are in use: with a reference left, or quarantined. -/
def Dev.inUse (d : Dev) (k : Nat) : List Nat :=
  (d.bufs.filter (fun b => b.die == k)).flatMap (fun b => (b.cells.filter (fun c => c.2 != 0)).map (·.1)) ++
    (d.quarBufs.filter (fun e => e.1 == k)).map (·.2)

/-- A pointer fault of a die, found in a pool, on a buffer where the pointer names one of the slice: it is quarantined, counted and
raised (R177). -/
def Dev.ptrFault (d : Dev) (k j : Nat) (buf : Option Nat) : Dev :=
  let d1 := (d.addSat (ra 5 (0x400F00 + 0x1000 * k)) 1).raise 5 1 (k * 0x4000 + j * 0x800)
  match buf with
  | some i =>
    if i < sliceBufs ∧ (k, i) ∉ d1.quarBufs then
      ({ d1 with quarBufs := d1.quarBufs ++ [(k, i)] } : Dev).addSat (ra 5 (0x400F04 + 0x1000 * k)) 1
    else d1
  | none => d1

/-! ## Buffers handed out and taken back (R177, R178) -/

/-- What a packet holds of a pool. -/
def Dev.bufOf (d : Dev) (k j pid : Nat) : Option Buf := d.bufs.find? (fun b => b.die == k && b.pool == j && b.pid == pid)

/-- A free buffer among `size` from `base`, searched from place `start`: the first whose index is not in use (log 86). -/
def freeBuf (base size start : Nat) (used : List Nat) : Option Nat :=
  if size ≤ (used.filter (fun i => decide (base ≤ i ∧ i < base + size))).length then none
  else
    ((List.range (used.length + 1)).map (fun i => base + (start + i) % size)).find? (fun i => ! used.contains i)

/-- `n` free buffers, fewer where the pool has no more. -/
def freeBufs (base size start : Nat) : Nat → List Nat → List Nat
  | 0, _ => []
  | n + 1, used =>
    match freeBuf base size start used with
    | some i => i :: freeBufs base size start n (i :: used)
    | none => []

/-- Buffers for `n` cells of a packet are handed out, or one reference more is held on those it has (R178). -/
def Dev.handOut (d : Dev) (k j pid n : Nat) : Dev :=
  match d.bufOf k j pid with
  | some b =>
    { d with bufs := d.bufs.map (fun x => if x = b then { x with cells := x.cells.map (fun c => (c.1, c.2 + 1)) } else x) }
  | none =>
    let l := freeBufs (d.poolBase k j) (d.poolSize k j) (Config.bufFirst d.draws) n (d.inUse k)
    { d with bufs := d.bufs ++ [{ die := k, pool := j, pid := pid, cells := l.map (fun i => (i, 1)) }], draws := d.draws + 1 }

/-- References are taken back on cell `i` of a packet: its buffer returns at zero; below zero the count does not go, and CORE 02h is
raised with the pointer fault (R178). -/
def Dev.takeBack (d : Dev) (k j pid i : Nat) : Dev :=
  match d.bufOf k j pid with
  | none => d
  | some b =>
    match b.cells[i]? with
    | none => d
    | some c =>
      if c.2 = 0 then (d.raise 5 2 (k * 0x4000)).ptrFault k j (some c.1)
      else
        let nb : Buf := { b with cells := b.cells.set i (c.1, c.2 - 1) }
        if nb.cells.all (fun e => e.2 == 0) then { d with bufs := d.bufs.filter (fun x => x != b) }
        else { d with bufs := d.bufs.map (fun x => if x = b then nb else x) }

/-- A copy of a packet of `n` cells gives back its references from its cell `m` on. -/
def Dev.giveUp (d : Dev) (k j pid m n : Nat) : Dev :=
  ((List.range n).filter (fun i => decide (m ≤ i))).foldl (fun (x : Dev) i => x.takeBack k j pid i) d

/-- Buffers a packet has in use in a pool. -/
def Dev.bufsUsed (d : Dev) (k j pid : Nat) : Nat :=
  match d.bufOf k j pid with
  | some b => (b.cells.filter (fun c => c.2 != 0)).length
  | none => 0

/-- Buffers of a pool in use by packets, and those quarantined. -/
def Dev.poolCells (d : Dev) (k j : Nat) : Nat :=
  ((d.bufs.filter (fun b => b.die == k && b.pool == j)).map (fun b =>
    (b.cells.filter (fun c => c.2 != 0 && ! d.quarBufs.contains (k, c.1))).length)).sum +
    (d.quarBufs.filter (fun e => e.1 == k && decide (d.poolBase k j ≤ e.2 ∧ e.2 < d.poolBase k j + d.poolSize k j))).length

/-! ## Bridges (R25-R27) -/

/-- Bridges that join two core dies, the lower-numbered first, by bridge index. -/
def coreBridges (a b : Nat) : List Nat :=
  match min a b, max a b with
  | 0, 2 => [8, 9]
  | 1, 3 => [10, 11]
  | 0, 1 => [12]
  | 2, 3 => [13]
  | 0, 3 => [14]
  | 1, 2 => [14]
  | _, _ => []

/-- The bridge between two core dies for a word whose spreading bit is given (R27). -/
def bridgeFor (a b : Nat) (spread : Bool) : Option Nat :=
  match coreBridges a b with
  | [x, y] => some (if spread then y else x)
  | [x] => some x
  | _ => none

/-- The lane bridge of a port: that of its lane die. -/
def Dev.laneBridge (d : Dev) (p : Nat) : Nat := d.lane0 p / 64 % 8

end Sys2Proof.Machine
end

