-- ==== Sys2Proof/Machine/Keeper.lean ====
section
/-! DEFINITION. Output queues, budgets and admission (R174-R192, R203, R210, R212, R215, R223, R391, R452), ingress holds
and their flow control (R130), and leaving UP (R128, R189). -/

namespace Sys2Proof.Machine

/-! ## Quantities at an output -/

/-- Cells queued for an output in a class; U(o,c,u) and its sum over VCs (R182). -/
def Dev.occ (d : Dev) (o c : Nat) : Nat := ((d.queue.filter (fun q => q.out == o && q.cls == c)).map (·.n)).sum
def Dev.uOf (d : Dev) (o c u : Nat) : Nat :=
  ((d.queue.filter (fun q => q.out == o && q.cls == c && q.vc == u)).map (·.charge)).sum
def Dev.uSum (d : Dev) (o c : Nat) : Nat := ((d.queue.filter (fun q => q.out == o && q.cls == c)).map (·.charge)).sum

/-- The charge of a packet of n cells (R182). -/
def Dev.chargeOf (d : Dev) (o c n : Nat) : Nat := n + (d.vcs o c - 1) * d.trainMax o

/-- Remaining budgets of this frame and the next. -/
def Dev.budOf (d : Dev) (o c : Nat) : Nat × Nat := mapGet (0, 0) d.bud (o * 8 + c)
def Dev.setBud (d : Dev) (o c : Nat) (b : Nat × Nat) : Dev := { d with bud := mapSet (0, 0) d.bud (o * 8 + c) b }

/-- B(o,c,X): the budget of a class in frame number X as the quantities stand (R184). -/
def Dev.newBud (d : Dev) (o c x : Nat) : Nat :=
  if c = 0 then d.ctlCells o
  else if 2 ≤ c ∧ c ≤ 6 then
    let others := ((List.range 7).filter (fun j => decide (2 ≤ j) && j != c && decide (0 < d.occ o j))).map (d.gOf o)
    let room := d.vcs o c * d.capOf o c - d.uSum o c
    min (d.cap o - d.kRes o x - d.ctlCells o - others.sum) room
  else 0

/-- Stage of a pool (R176), and whether pool 1's stage zeroes BE or SMP budgets. -/
def Dev.stage (d : Dev) (k j : Nat) : Nat := mapGet 0 d.stages (k * 8 + j)
def Dev.staged (d : Dev) (o c : Nat) : Bool :=
  let s := d.stage (d.owner o) 1
  (c == 6 && decide (1 ≤ s)) || (c == 5 && decide (3 ≤ s))

/-- Idle in the transmit direction or waking: budgets are zero (R103). -/
def Dev.txIdle (d : Dev) (o : Nat) : Bool := (d.port o).txEi || (d.port o).wakeAt.isSome

/-- Set an output's budgets for this frame and the next (R184). -/
def Dev.openBud (d : Dev) (o : Nat) : Dev :=
  let d1 := (List.range 7).foldl (fun (x : Dev) c =>
    x.setBud o c (if x.staged o c then (0, 0) else (x.newBud o c x.fno, x.newBud o c (x.fno + 1)))) d
  ((d1.corrAt o d1.fno ++ d1.corrAt o (d1.fno + 1)).dedup).foldl (fun (x : Dev) i =>
    { x with corr := mapSet (0, 0) x.corr i (if x.ctIn (x.ovlAt x.fno) i then (x.ct i).cells else 0,
      if x.ctIn (x.ovlAt (x.fno + 1)) i then (x.ct i).cells else 0) }) d1

/-- Zero an output's budgets. -/
def Dev.shutBud (d : Dev) (o : Nat) : Dev :=
  let d1 := (List.range 7).foldl (fun (x : Dev) c => x.setBud o c (0, 0)) d
  { d1 with corr := d1.corr.filter (fun e => (d1.ct e.1).outP != o) }

/-- Requester occupancy of a die's pool 1 and its quota in effect (R176, R179): a packet's cells are stored once in a die (R178). -/
def Dev.qUsed (d : Dev) (p c k : Nat) : Nat :=
  ((((d.queue.filter (fun q => q.ing == some p && q.cls == c && d.owner q.out == k)).map (·.pid)).dedup).map
    (fun i => d.bufsUsed k 1 i)).sum
def Dev.quotaOver (d : Dev) (k : Pkt) (c o n : Nat) : Bool :=
  match k.ing with
  | none => false
  | some p =>
    let q := d.fld (rp 5 (if c = 5 then 0x180 else 0x184) (d.role p)) 0 16
    let die := d.owner o
    let lim := if 2 ≤ d.stage die 1 then q / 2 else q
    let more := if (d.bufOf die 1 k.id).isSome then 0 else n
    q != 0 && decide (lim < d.qUsed p c die + more)

/-! ## Ingress holds -/

/-- A packet occupies its ingress hold. -/
def inHold (k : Pkt) : Bool :=
  match k.st with
  | .hold => true
  | .ordHeld => true
  | .released => true
  | .engine => true
  | _ => false

/-- Cells in the hold of a port's VC (R130, R492). -/
def Dev.holdOcc (d : Dev) (p v : Nat) : Nat :=
  ((d.pkts.filter (fun k => k.ing == some p && k.pk.hdr.vc.toNat == v && inHold k)).map
    (fun k => cellsOfPkt k.pk.hdr)).sum

/-- LINK_FC_THR: XOFF_AT and XON_AT (R130). -/
def Dev.xoffAt (d : Dev) (p : Nat) : Nat :=
  let c := d.cap p
  4 * c + 16 - (cdiv (c * (2 * (d.port p).delay.getD 0 + 256)) 256 + 16)
def Dev.xonAt (d : Dev) (p : Nat) : Nat := d.xoffAt p / 2

/-- A packet waits in a hold of its ingress port for a flow-controlled VC. -/
def heldHere (k : Pkt) : Bool := k.ing.isSome && vcFc k.pk.hdr.vc.toNat && inHold k

/-- Pool 2 follows the holds (R174): a packet held has a buffer for each cell, one that is held no more gives them back. -/
def Dev.holdSync (d : Dev) : Dev :=
  let d1 : Dev := { d with bufs := d.bufs.filter (fun b => b.pool != 2 || d.pkts.any (fun k => k.id == b.pid && heldHere k)) }
  (d1.pkts.filter (fun k => heldHere k && ! d1.bufs.any (fun b => b.pool == 2 && b.pid == k.id))).foldl (fun (x : Dev) k =>
    x.handOut (x.owner (k.ing.getD 0)) 2 k.id (cellsOfPkt k.pk.hdr)) d1

/-- The injection act on a port, of a layer and mode (R517). -/
def Dev.injOn (d : Dev) (p layer mode : Nat) : Option Inj :=
  match mapGet none d.injs p with
  | some i => if i.layer = layer ∧ i.mode = mode then some i else none
  | none => none

/-- `n` units of a port's act are done: they are counted, and the last of them ends it (R517). -/
def Dev.injUnits (d : Dev) (p n : Nat) : Dev :=
  match mapGet none d.injs p with
  | none => d
  | some i =>
    let m := match i.left with | some l => min n l | none => n
    let rest : Option Inj := match i.left with
      | some l => if l ≤ n then none else some { i with left := some (l - n) }
      | none => some i
    ({ d with injs := mapSet none d.injs p rest } : Dev).addSat (rp 0x11 0x114 p) m

/-- FC_XOFF as the port sends it, brought up to date (R130); VC_1, VC_14 and VC_15 send 0. An injection act sends one bit
as 1b (R517). -/
def Dev.refreshXoff (d : Dev) (p : Nat) : Dev :=
  let old := (d.port p).txXoff
  let bits := (List.range 16).foldl (fun (w : BitVec 16) v =>
    let n := d.holdOcc p v
    let forced := match d.injOn p 2 1 with | some i => i.param % 16 == v | none => false
    let on := forced || vcFc v && (decide (d.xoffAt p ≤ n) || (old.getLsbD v && decide (d.xonAt p < n)))
    if on then w ||| (1#16 <<< v) else w) 0
  if bits = old then d else (d.onPort p (fun x => { x with txXoff := bits })).emit (.xoff p bits)

/-- The first packet of a VC's hold, which alone presents (R186). -/
def Dev.headOf (d : Dev) (p v : Nat) : Option Pkt :=
  d.pkts.find? (fun k => k.ing == some p && k.pk.hdr.vc.toNat == v && (k.st == .hold || k.st == .engine))

/-- A packet presents in admission: head of its flow-controlled VC, on another VC, of the device's own, or first in Narrows'
Col queue (R439). -/
def Dev.isHead (d : Dev) (k : Pkt) : Bool :=
  match k.ing with
  | none => ! k.fromCol || ((d.pkts.find? (fun x => x.fromCol && x.st == .hold)).map (·.id)) == some k.id
  | some p => ! vcFc k.pk.hdr.vc.toNat || ((d.headOf p k.pk.hdr.vc.toNat).map (·.id)) == some k.id

/-! ## Gates on packets from endpoints -/

/-- The packet arrived from a partner with SWITCH = 0b. -/
def fromEp (k : Pkt) : Bool := k.ing.isSome && ! k.fromSw

/-- An activation of routing or plat drains now, and the packet is affected (R223, R382). -/
def Dev.affected (d : Dev) (k : Pkt) : Option Act :=
  let c := k.pk.hdr.cls.toNat
  let hit (a : Option Act) : Option Act :=
    match a with
    | some x =>
      if x.draining && fromEp k && ((decide (2 ≤ c) && x.classes.testBit c) || (x.structural && c == 0 && k.pk.hdr.slice != 0)) then some x
      else none
    | none => none
  match hit d.ract with
  | some a => some a
  | none => hit d.plat.act

/-- Record slots of the Oxbow region (R353), and whether parking can use it. -/
def Dev.oxSlots (d : Dev) : Nat :=
  if d.bit (ra 6 0x58) 31 && (d.rt (d.fld (ra 6 0x58) 0 12)).valid then
    (d.rt (d.fld (ra 6 0x58) 0 12)).size / 4608 else 0
def Dev.oxFull (d : Dev) : Bool := decide (d.oxSlots ≤ d.oxbow.length)

/-- R391: ingress from endpoints is stopped. -/
def Dev.stopped (d : Dev) (k : Pkt) : Bool :=
  d.plat.plan == .belowMin && d.fld (ra 0xA 0x50) 30 2 == 1 && fromEp k &&
  ! (k.pk.hdr.cls == 0 && k.pk.hdr.slice == 0)

/-- R212: the packet is beyond INJ_CELLS toward a throttled group. -/
def Dev.throttled (d : Dev) (k : Pkt) (o : Nat) : Bool :=
  let c := k.pk.hdr.cls.toNat
  let g := d.dir o
  fromEp k && decide (3 ≤ c ∧ c ≤ 5) && d.isTorus o && d.bit (ra 6 0x80) (3 * (g - 1) + (c - 3)) &&
  decide (d.fld (ra 6 8) 24 8 < mapGet 0 d.inj ((k.ing.getD 0) * 64 + g * 8 + c) + cellsOfPkt k.pk.hdr)

/-- R452: the packet is beyond the injection scale of its port. -/
def Dev.scaled (d : Dev) (k : Pkt) : Bool :=
  let p := k.ing.getD 0
  fromEp k && decide (2 ≤ k.pk.hdr.cls.toNat) &&
  decide (d.pwr.scale * d.cap p / 256 < mapGet 0 d.injAll p + cellsOfPkt k.pk.hdr)

/-! ## The keeper's test (R186, R203, R215) -/

/-- Outcome of a test at an output: granted against this frame or the next, no room, or discarded. -/
inductive Try where
  | ok (o : Nat) (next : Bool)
  | no (o : Nat) (c : Cause)
  | gone (o : Nat) (c : Cause)
  deriving DecidableEq, Repr

/-- The Corridor Table entry admits the packet at output `o` (R215). -/
def Dev.corrOk (d : Dev) (k : Pkt) (o : Nat) : Bool :=
  let h := k.pk.hdr
  let i := h.seq.toNat % 0x1000
  let e := d.ct i
  decide (h.seq.toNat < 0x1000) && d.ctOn i && e.src == h.srcId.toNat && e.dst == h.dstId.toNat &&
  e.slice == h.slice.toNat && e.outP == o &&
  (match k.ing with
   | some p => e.inP == p
   | none => match k.cin with | some p => e.inP == p | none => true)

/-- Col's packets never take more than C cells of an output in 100 frames (R439). -/
def Dev.colOver (d : Dev) (k : Pkt) (o : Nat) : Bool :=
  k.fromCol && decide (d.cap o <
    ((d.col.sent.filter (fun e => e.1 == o && decide (d.now < e.2.1 + 100))).map (fun e => e.2.2)).sum + cellsOfPkt k.pk.hdr)

/-- R186 at one output, for a packet leaving on VC `u` in round `r`. -/
def Dev.tryOut (d : Dev) (r : Nat) (k : Pkt) (o u : Nat) : Try :=
  let h := k.pk.hdr
  let c := h.cls.toNat
  let n := cellsOfPkt h
  if ! d.isUp o then .gone o .portDown
  else if d.trainMax o < n ∨ (c = 0 ∧ d.ctlCells o < n) then .gone o .trainLong
  else if c = 1 then
    if ! d.aligned ∨ (d.port o).skewed ∨ (d.port (k.ing.getD o)).skewed then .gone o .notAligned
    else if ! d.corrOk k o then .gone o .corrMis
    else if d.stopped k then .gone o .corrSlot
    else
      let b := mapGet (0, 0) d.corr (h.seq.toNat % 0x1000)
      if n ≤ b.1 ∧ r < 8 then .ok o false
      else if n ≤ b.2 then .ok o true
      else .gone o .corrSlot
  else if d.capOf o c < d.uOf o c u + d.chargeOf o c n then .no o .tail
  else if d.stopped k ∨ (d.affected k).isSome ∨ d.colOver k o then .no o .tail
  else if d.staged o c then .no o .stage
  else if (5 ≤ c ∧ d.quotaOver k c o n) ∨ d.throttled k o ∨ d.scaled k then .no o .quota
  else
    let b := d.budOf o c
    if n ≤ b.1 then .ok o false
    else if n ≤ b.2 then .ok o true
    else .no o .tail

/-- A list rotated to start at position `i`. -/
def rotate {α : Type} (l : List α) (i : Nat) : List α := l.drop (i % l.length) ++ l.take (i % l.length)

/-- The first grant of a list of tries, else the last outcome (R203). -/
def firstOk : Try → List Try → Try
  | t, [] => t
  | _, .ok o n :: _ => .ok o n
  | _, t :: ts => firstOk t ts

/-- One target: its port, or the ports of its group in UP from position (F + SRC_ID) mod n (R203). A corridor's packet takes its
OUT_PORT alone (R213); where that is not in the group, it is counted against the group's lowest port (log 88). -/
def Dev.tryTgt (d : Dev) (r : Nat) (k : Pkt) (t : Tgt) : Try :=
  match t.port with
  | some o => d.tryOut r k o t.vc
  | none =>
    let g := d.group t.dir
    let ups := g.filter d.isUp
    match g with
    | [] => .gone 0 .unreach
    | low :: _ =>
      if k.pk.hdr.cls = 1 then
        let o := (d.ct (k.pk.hdr.seq.toNat % 0x1000)).outP
        if o ∈ g then d.tryOut r k o t.vc
        else if ups = [] then .gone low .portDown
        else if ! d.aligned then .gone low .notAligned
        else .gone low .corrMis
      else
        let l := rotate ups (d.fno + k.pk.hdr.srcId.toNat)
        firstOk (.gone low .portDown) (l.map (fun o => d.tryOut r k o t.vc))

/-! ## Acceptance -/

/-- The header a packet leaves with on output `o` (R147, R161, R205, R210, R220). -/
def Dev.outHdr (d : Dev) (k : Pkt) (t : Tgt) (o : Nat) : Header :=
  let h := k.pk.hdr
  let h1 : Header := { h with vc := BitVec.ofNat 4 t.vc, hops := if d.isTorus o then h.hops - 1 else h.hops }
  if k.mcast && t.dir != 0 && ! h.viaV then { h1 with viaV := true, via := BitVec.ofNat 12 d.own } else h1

/-- A packet is marked at its acceptance (R209, R210). -/
def Dev.marks (d : Dev) (o c : Nat) : Bool :=
  let at_ := d.fld (ra 6 8) 0 8
  decide (3 ≤ c ∧ c ≤ 5) && ! d.bit (ra 6 4) 15 && at_ != 0 &&
  decide (at_ * (d.vcs o c * d.capOf o c) ≤ 256 * d.uSum o c)

/-- Count cells injected from an endpoint port (R212, R452). -/
def Dev.countInj (d : Dev) (k : Pkt) (o : Nat) : Dev :=
  if ! fromEp k then d
  else
    let p := k.ing.getD 0
    let c := k.pk.hdr.cls.toNat
    let n := cellsOfPkt k.pk.hdr
    let a := p * 64 + d.dir o * 8 + c
    { d with
      inj := mapSet 0 d.inj a (mapGet 0 d.inj a + n)
      injAll := if 2 ≤ c then mapSet 0 d.injAll p (mapGet 0 d.injAll p + n) else d.injAll }

/-- Write a sample record of a packet for Col, or skip it (R192, R193). `dir` is 0 ingress, 1 egress. -/
def Dev.sample (d : Dev) (p dir : Nat) (pk : Packet) : Dev :=
  let r := d.rd (rp 5 0x300 p)
  if Machine.fld r 30 2 / 2 ^ dir % 2 = 0 ∨ pk.hdr.cls = 0 then d
  else
    let n := max 1 (Machine.fld r 0 16)
    let cnt := mapGet 0 d.samp (p * 2 + dir) + 1
    let d1 := { d with samp := mapSet 0 d.samp (p * 2 + dir) (cnt % n) }
    if cnt < n then d1
    else
      let k := d.owner p
      let size := d.fld (ra 5 (0x4000A0 + 0x1000 * k)) 0 19
      let tail := d.fld (ra 5 (0x400F18 + 0x1000 * k)) 0 10
      let head := d.fld (ra 5 (0x400F14 + 0x1000 * k)) 0 10
      if size = 0 ∨ (tail + 1) % size = head % size ∨ d.stage k 5 = 3 then
        (d1.addSat (ra 5 (0x400F10 + 0x1000 * k)) 1).raiseOnce 0xFFFF 5 7 (k * 0x4000)
      else
        let rec_ := leBytes 6 d.fno ++ leBytes 1 p ++ leBytes 1 (dir + 2 * pk.hdr.cls.toNat) ++
          leBytes 2 (pktLen pk.hdr) ++ zeros 6 ++ padTo 128 (pktBytes pk) ++ zeros 112
        let d2 := d1.setFld (ra 5 (0x400F18 + 0x1000 * k)) 0 10 ((tail + 1) % size)
        { d2 with samples := (d2.samples.filter (fun e => e.1 != k * 1024 + tail)) ++ [(k * 1024 + tail, rec_)] }

/-- A pattern source's packet, and one it sends on its port in TX mode (R509). -/
def isPat (k : Pkt) : Bool := match k.use with | .pat _ => true | _ => false
def isPatTx (k : Pkt) : Bool := isPat k && k.ing.isNone

/-- A pattern source's packet is accepted: SENT counts it and the list moves on (R509). -/
def Dev.patAccepted (d : Dev) (k : Pkt) : Dev :=
  match k.use with
  | .pat s =>
    let x := mapGet {} d.pats s
    if x.cur = some k.id then
      ({ d with pats := mapSet {} d.pats s { x with
          cur := none, off := x.nextOff, left := x.nextLeft, since := d.now, st := if x.fin && x.st == .run then .done else x.st } } :
        Dev).add64 (ra 0x11 (0x401018 + 0x40 * s)) 1
    else d
  | _ => d

/-- A packet presented by a source and not accepted is withdrawn (R508, R509). -/
def Dev.patWithdraw (d : Dev) (s : Nat) : Dev :=
  { d with
    pkts := d.pkts.filter (fun k => ! (k.use == Use.pat s && k.st == PkSt.hold))
    pats := mapSet {} d.pats s { mapGet {} d.pats s with cur := none } }

/-- Accept a packet at an output: the budget is drawn, the charge added, the packet queued in buffers of its pool (R178, R182, R186). -/
def Dev.enqueue (d : Dev) (k : Pkt) (t : Tgt) (o : Nat) (next : Bool) : Dev :=
  let h := d.outHdr k t o
  let c := h.cls.toNat
  let n := cellsOfPkt h
  let cid := h.seq.toNat % 0x1000
  let d1 :=
    if c = 1 then
      let b := mapGet (0, 0) d.corr cid
      { d with corr := mapSet (0, 0) d.corr cid (if next then (b.1, b.2 - n) else (b.1 - n, b.2)) }
    else
      let b := d.budOf o c
      d.setBud o c (if next then (b.1, b.2 - n) else (b.1 - n, b.2))
  let q : QEnt :=
    { key := d1.nextId, pid := k.id, out := o, cls := c, vc := t.vc, n := n
      charge := if c = 1 then 0 else d1.chargeOf o c n
      draw := d1.now + b2n next, acc := d1.now, cid := cid, ing := k.ing
      pk := { k.pk with hdr := if isPatTx k then { k.arr.getD h with vc := h.vc } else h }
      conf := k.conf, use := k.use }
  let d2 := (({ d1 with queue := d1.queue ++ [q], nextId := d1.nextId + 1 } : Dev).onPort o (fun x => { x with busy := true })).handOut
    (d1.owner o) (poolOf c) k.id n
  let mk := d2.marks o c && ! isPatTx k
  let d3 := if mk then
      ({ d2 with queue := d2.queue.map (fun x => if x.key = q.key then
          { x with pk := { x.pk with hdr := { x.pk.hdr with mark := true } } } else x) } : Dev).add64 (ra 6 0xA0) 1
    else d2
  let d4 := (d3.countInj k o).patAccepted k
  let d5 : Dev := if k.fromCol then { d4 with col := { d4.col with sent := d4.col.sent ++ [(o, d4.now, n)] } } else d4
  d5.wmark (rp 5 (0x108 + 0x10 * c) o) (d5.occ o c)

/-- A port's tracker key. -/
def trkKey (o : Nat) (src : BitVec 16) : Nat := o * 65536 + src.toNat

/-- Count a lossless packet of a tracked pair (R164). -/
def Dev.track (d : Dev) (o : Nat) (h : Header) : Dev :=
  let a := trkKey o h.srcId
  let t := mapGet {} d.trks a
  let t1 := if h.seq.getLsbD 15 then { t with k1 := (t.k1 + 1) % 32768 } else { t with k0 := (t.k0 + 1) % 32768 }
  { d with trks := mapSet {} d.trks a t1 }

/-- The tracked port a lossless packet that is no ORDER packet counts at. -/
def Dev.tracked (d : Dev) (h : Header) (o : Nat) : Bool :=
  lossless h.cls.toNat && (d.dt h.dstId.toNat).ty == 1 && d.bit (rp 4 0x100 (d.role o)) 0

/-- Result copies and notices stay known after acceptance, until CAT_RESULT or FAN_NOTICE has taken them into account
(R282, R319). -/
def isWatched (h : Header) : Bool := h.op == 0x22 || h.op == 0x34

/-- After acceptance: the tracker's count, the sample, and the packet leaves its hold (R164, R192). A confirmed packet
is forgotten here; an unconfirmed one stays until its verdict. -/
def Dev.accepted (d : Dev) (k : Pkt) (o : Nat) : Dev :=
  let h := k.pk.hdr
  let cnt := d.tracked h o && ! h.order && ! k.mcast
  let d1 := if cnt && k.conf then d.track o h else d
  let d2 := match k.ing with
    | some p => if k.conf then d1.sample p 0 k.arrived else d1
    | none => d1
  let d3 := { d2 with oxbow := d2.oxbow.filter (fun e => e.2 != k.id) }
  if k.conf && ! isWatched h then d3.rmPkt k.id
  else d3.onPkt k.id (fun x => { x with st := .accepted, owed := if cnt then some (o, h.seq.getLsbD 15) else none })

/-- Drop a packet in admission: at once when it is confirmed, else at its confirmation (R71). -/
def Dev.dropPkt (d : Dev) (k : Pkt) (dr : Drop) : Dev :=
  let d1 := { d with oxbow := d.oxbow.filter (fun e => e.2 != k.id) }
  if k.conf then (d1.discard k dr).rmPkt k.id else d1.onPkt k.id (fun x => { x with st := .dropped dr })

/-- Note the drop of one copy of a multicast. -/
def Dev.dropCopy (d : Dev) (k : Pkt) (dr : Drop) : Dev :=
  if k.conf then d.settleDrop k.ing k.pk.hdr dr else d.onPkt k.id (fun x => { x with dues := x.dues ++ [dr] })

/-- The drop of an outcome. -/
def outDrop (o : Nat) (c : Cause) (p : Nat) : Drop :=
  match c with
  | .unreach => { cause := .unreach, atOut := false, port := p }
  | c => { cause := c, atOut := true, port := o }

/-- Port `o` is fenced (R291). -/
def Dev.fenced (d : Dev) (o : Nat) : Bool := d.bit (ra 7 (0x80 + 4 * (o / 32))) (o % 32)

/-- A packet finds no room at an output in electrical idle: the first such frame is noted, for the wake (R103). -/
def Dev.wantWake (d : Dev) (o : Nat) : Dev :=
  if (d.port o).txEi && (d.port o).wakeAt.isNone && (d.port o).wakeDue.isNone then d.onPort o (fun x => { x with wakeDue := some d.now })
  else d

/-- A BE or SMP packet with no room is discarded; others wait (R186). -/
def Dev.noRoom (d : Dev) (k : Pkt) (o : Nat) (c : Cause) : Dev :=
  let d1 := d.wantWake o
  if 5 ≤ k.pk.hdr.cls.toNat ∧ ! isPat k then d1.dropPkt k { cause := c, atOut := true, port := o } else d1

/-- A fenced copy of a confirmed packet is counted (R292). -/
def Dev.countFenced (d : Dev) (k : Pkt) (o : Nat) : Dev :=
  let g := leAt k.pk.payload 0 2 % 0x1000
  let l := mapGet {} d.launches g
  let d1 := (d.add64 (rp 7 0x110 o) 1).raiseOnce 0xFFFF 7 9 o
  if k.pk.hdr.op = 0x22 ∧ l.st ≠ .idle ∧ l.d.launch.toNat = leAt k.pk.payload 2 2 then
    { d1 with launches := mapSet {} d1.launches g { l with fenced := l.fenced + 1 } }
  else d1

/-- A fenced copy is suppressed; it is counted once the packet is confirmed (R71, R292). -/
def Dev.fenceCopy (d : Dev) (k : Pkt) (o : Nat) : Dev :=
  if k.conf then d.countFenced k o else d.dropCopy k { cause := .fenced, atOut := true, port := o }

/-- What a packet owes at its confirmation is settled (R71, R187, R220, R292). -/
def Dev.settleDues (d : Dev) (k : Pkt) (l : List Drop) : Dev :=
  l.foldl (fun (x : Dev) dr =>
    if dr.cause = .fenced then x.countFenced k dr.port else (x.settleDrop k.ing k.pk.hdr dr).noteLoss k.pk dr) d

/-- The output an outcome names. -/
def tryPort : Try → Nat
  | .ok o _ => o
  | .no o _ => o
  | .gone o _ => o

/-- Every copy of a multicast is settled: sampled where one was accepted, the packet leaves its hold (R187, R192). -/
def Dev.settled (d : Dev) (k : Pkt) : Dev :=
  let got := d.queue.any (fun q => q.pid == k.id)
  let d1 := match k.ing with
    | some p => if k.conf && got then d.sample p 0 k.arrived else d
    | none => d
  let d2 : Dev := { d1 with oxbow := d1.oxbow.filter (fun e => e.2 != k.id) }
  if k.conf && ! isWatched k.pk.hdr then d2.rmPkt k.id
  else d2.onPkt k.id (fun x => { x with st := if got then .accepted else .settled })

/-- Offer a multicast (R187, R292): copies to fenced or down ports are suppressed; a lossless or CTL packet is accepted at every
other output in one round, waits where one has no room, and is discarded where one can never take it (log 89); a packet of another
class meets each output by itself. -/
def Dev.offerMany (d : Dev) (r : Nat) (k : Pkt) : Dev × Bool :=
  let c := k.pk.hdr.cls.toNat
  let joint := decide (c < 5 ∧ c ≠ 1)
  let live := k.tgts.map (fun t => (t, d.tryTgt r k t))
  let open_ (o : Nat) : Bool := d.isUp o && ! d.fenced o
  let never := if joint then live.findSome? (fun e => match e.2 with | .gone o cc => if open_ o then some (o, cc) else none | _ => none) else none
  match never with
  | some (o, cc) => (d.dropPkt k (outDrop o cc (k.ing.getD 0)), false)
  | none =>
    if (joint || isPat k) && live.any (fun e => match e.2 with | .no o _ => ! d.fenced o | _ => false) then
      (live.foldl (fun (x : Dev) e => match e.2 with | .no o _ => x.wantWake o | _ => x) d, false)
    else
      let d1 := live.foldl (fun (x : Dev) e =>
        let t := e.1
        let res := if joint then e.2 else x.tryTgt r k t
        let o := tryPort res
        if x.fenced o && x.isUp o then x.fenceCopy k o
        else
          match res with
          | .ok o n => x.enqueue k t o n
          | .no o cc => (x.wantWake o).dropCopy k { cause := cc, atOut := true, port := o }
          | .gone o cc => x.dropCopy k (outDrop o cc (k.ing.getD 0))) d
      (d1.settled k, true)

/-- Offer a packet to its outputs in round `r`; the second part is whether it left its hold accepted. -/
def Dev.offer (d : Dev) (r : Nat) (k : Pkt) : Dev × Bool :=
  if k.mcast then d.offerMany r k
  else
    match k.tgts with
    | [] => (d, false)
    | t :: _ =>
      match d.tryTgt r k t with
      | .ok o n => ((d.enqueue k t o n).accepted k o, true)
      | .no o c => (d.noRoom k o c, false)
      | .gone o c => if isPat k && c == .corrSlot then (d, false) else (d.dropPkt k (outDrop o c (k.ing.getD 0)), false)

/-! ## ORDER (R164, R166) -/

/-- The tracked port an ORDER packet is bound for, if it is one. -/
def Dev.orderPort (d : Dev) (k : Pkt) : Option Nat :=
  if k.pk.hdr.order && lossless k.pk.hdr.cls.toNat && ! k.mcast then
    match k.tgts with
    | [t] => match t.port with
      | some o => if d.tracked k.pk.hdr o then some o else none
      | none => none
    | _ => none
  else none

/-- The tracker's count is met: EPAR = Q and COUNT = K_Q. -/
def orderMet (t : Trk) (h : Header) : Bool :=
  h.seq.getLsbD 15 == t.q && (if t.q then t.k1 else t.k0) == h.seq.toNat % 32768

/-- Advance a tracker to its next epoch. -/
def Dev.nextEpoch (d : Dev) (o : Nat) (src : BitVec 16) : Dev :=
  let a := trkKey o src
  let t := mapGet {} d.trks a
  let t1 : Trk := if t.q then { t with k1 := 0, q := false } else { t with k0 := 0, q := true }
  { d with trks := mapSet {} d.trks a t1 }

/-- A held ORDER packet is discarded: TIMEOUT (R166). -/
def Dev.orderTimeout (d : Dev) (k : Pkt) (o : Nat) : Dev :=
  let d1 := ((d.nextEpoch o k.pk.hdr.srcId).add64 (ra 4 0x10) 1).orderCond 0xC k.ing (some o)
  (d1.ordDone k.pk.hdr 1).rmPkt k.id

/-- Another ORDER packet of the pair is held or released (R166). -/
def Dev.orderBusy (d : Dev) (k : Pkt) (o : Nat) : Bool :=
  d.pkts.any (fun x => x.id != k.id && (x.st == .ordHeld || x.st == .released) &&
    x.pk.hdr.srcId == k.pk.hdr.srcId && d.orderPort x == some o)

/-- Offer an ORDER packet that met its tracker or was released: on its grant ORD_DONE is sent and the epoch ends, that of a released
packet with the counts of its round (R164); a discard is a TIMEOUT. -/
def Dev.orderOffer (d : Dev) (r : Nat) (k : Pkt) (o : Nat) (step : Bool) : Dev :=
  match k.tgts with
  | [] => d
  | t :: _ =>
    match d.tryTgt r k t with
    | .ok o1 n =>
      let d1 := (d.enqueue k t o1 n).accepted k o1
      (if step then d1.nextEpoch o k.pk.hdr.srcId else d1).ordDone k.pk.hdr 0
    | .no o1 _ => d.wantWake o1
    | .gone o1 c => (d.settleDrop k.ing k.pk.hdr (outDrop o1 c (k.ing.getD 0))).orderTimeout k o

/-- A confirmed ORDER packet meets its tracker (R164, R166). -/
def Dev.orderPresent (d : Dev) (r : Nat) (k : Pkt) (o : Nat) : Dev :=
  if d.orderBusy k o then
    ((d.orderCond 0xD k.ing (some o)).ordDone k.pk.hdr 2).rmPkt k.id
  else if orderMet (mapGet {} d.trks (trkKey o k.pk.hdr.srcId)) k.pk.hdr then d.orderOffer r k o true
  else d.onPkt k.id (fun x => { x with st := .ordHeld, since := d.now })

/-! ## One round (R183) -/

/-- The accesses that a packet's record in Oxbow takes in its slot (R344, R353; log 16). -/
def Dev.oxDraw (d : Dev) (slot : Nat) (k : Pkt) : Dev :=
  d.drawUnits ((d.rt (d.fld (ra 6 0x58) 0 12)).base + 4608 * slot) (64 + 256 * cellsOfPkt k.pk.hdr)

/-- Park a confirmed packet in Oxbow (R223, R353). -/
def Dev.park (d : Dev) (k : Pkt) : Dev :=
  ({ (d.oxDraw d.oxbow.length k).onPkt k.id (fun x => { x with st := .parked }) with oxbow := d.oxbow ++ [(d.now, k.id)] }).add64 (ra 6 0xB0) 1

/-- Parked packets of the port and class of a packet remain (R225). -/
def Dev.behindParked (d : Dev) (k : Pkt) : Bool :=
  k.pk.hdr.cls.toNat < 5 && d.pkts.any (fun x => x.st == .parked && x.ing == k.ing && x.pk.hdr.cls == k.pk.hdr.cls)

/-- A copy for an expert goes on only while its round runs (R326). -/
def Dev.runs (d : Dev) (k : Pkt) : Bool :=
  match k.use with
  | .copy r => let st := (mapGet {} d.rounds r).st; st == .open || st == .closed
  | _ => true

/-- A packet presents in this round; one bound for an engine only to be parked in a drain (R223). -/
def Dev.presents (d : Dev) (k : Pkt) : Bool :=
  d.runs k && (k.st == .released || (k.st == .hold && d.isHead k && ! ((d.orderPort k).isSome && ! k.conf)) ||
    (k.st == .engine && d.isHead k && (d.affected k).isSome))

/-- A packet that an engine may not take now: a drain holds it, or parked packets of its port and class come first (R223, R225). -/
def Dev.kept (d : Dev) (k : Pkt) : Bool := (d.affected k).isSome || (k.ing.isSome && d.behindParked k)

/-- Source index of a contender: its ingress port, 128 for the device's and Col's, 129 + s for a pattern source's (R62, R509). -/
def ingKey (k : Pkt) : Nat := match k.use with | .pat s => 129 + s | _ => k.ing.getD 128

/-- Ports that a packet may present to. -/
def Dev.outsOf (d : Dev) (k : Pkt) : List Nat :=
  k.tgts.flatMap (fun t => match t.port with | some o => [o] | none => (d.group t.dir).filter d.isUp)

/-- What a list reaches through a relation, and what it does not; `n` bounds the search. -/
def reach {α : Type} (r : α → α → Bool) : Nat → List α → List α → List α × List α
  | 0, c, l => (c, l)
  | n + 1, c, l =>
    let e := l.partition (fun x => c.any (fun y => r y x))
    if e.1.isEmpty then (c, l) else reach r n (c ++ e.1) e.2

/-- The connected parts of a list under a relation; `n` bounds their number. -/
def partsOf {α : Type} (r : α → α → Bool) : Nat → List α → List (List α)
  | 0, _ => []
  | _, [] => []
  | n + 1, x :: l =>
    let e := reach r l.length [x] l
    e.1 :: partsOf r n e.2

/-- The connected parts, each in the list's own order. -/
def components {α : Type} (r : α → α → Bool) (l : List α) : List (List α) :=
  (partsOf (fun (a b : α × Nat) => r a.1 b.1) l.length l.zipIdx).map (fun c => (c.insertionSort (fun a b => a.2 ≤ b.2)).map (·.1))

/-- Contenders of one output and class, directly or through others, in the order of R62: by ascending source index, from position F mod
n (log 90); of one source a released packet first. -/
def Dev.tieOrder (d : Dev) (l : List Pkt) : List Pkt :=
  let own := l.filter (fun k => k.st == .released) ++ l.filter (fun k => k.st != .released)
  rotate (own.insertionSort (fun a b => ingKey a ≤ ingKey b)) d.fno

/-- The turn of a packet that a drain affects: parked once confirmed; with no room in Oxbow, or none wanted, the keeper grants it
nothing (R223). -/
def Dev.drainTurn (d : Dev) (r : Nat) (k : Pkt) (a : Act) : Dev :=
  if a.park && ! d.oxFull then (if k.conf then d.park k else d)
  else
    let d1 := if a.park && decide (0 < d.oxSlots) then d.raiseOnce 0xFFFF 6 0xB (k.ing.getD 0) else d
    if k.st = .hold ∧ (d.orderPort k).isNone then (d1.offer r k).1 else d1

/-- One contender's turn. -/
def Dev.turn (d : Dev) (r : Nat) (k0 : Pkt) : Dev :=
  match d.pkt k0.id with
  | none => d
  | some k =>
    match d.orderPort k, d.affected k with
    | some o, x => if k.st = .released then d.orderOffer r k o false
      else
        (match x with
         | some a => d.drainTurn r k a
         | none => if d.behindParked k then d else d.orderPresent r k o)
    | none, some a => d.drainTurn r k a
    | none, none => if k.ing.isSome && d.behindParked k then d else (d.offer r k).1

/-- A list of presenting packets is served: contenders in their order (R62, R183). -/
def Dev.serve (d : Dev) (r : Nat) (l : List Pkt) : Dev :=
  let meet (a b : Pkt × List Nat) : Bool := a.1.pk.hdr.cls == b.1.pk.hdr.cls && a.2.any b.2.contains
  (components meet (l.map (fun k => (k, d.outsOf k)))).foldl (fun (x : Dev) g =>
    (x.tieOrder (g.map (·.1))).foldl (fun (y : Dev) k => y.turn r k) x) d

/-- The epochs of released packets that were accepted end (R164). -/
def Dev.stepEpochs (d : Dev) (l : List Pkt) : Dev :=
  l.foldl (fun (x : Dev) k =>
    match x.orderPort k with
    | some o => if x.queue.any (fun q => q.pid == k.id) then x.nextEpoch o k.pk.hdr.srcId else x
    | none => x) d

/-- One round (R62, R164, R186): released packets and those that no tracker compares, the epochs that end with them, and then ORDER
packets, which are compared with every count of the round taken in (log 90). -/
def Dev.round (d : Dev) (r : Nat) : Dev :=
  let l := d.pkts.filter d.presents
  let late (k : Pkt) : Bool := k.st == .hold && (d.orderPort k).isSome
  let first := l.filter (fun k => ! late k)
  ((d.serve r first).stepEpochs (first.filter (fun k => k.st == .released))).serve r (l.filter late)

/-! ## Leaving UP (R128, R189, R190) -/

/-- Count queued cells of a packet as a drop at an output, once confirmed. -/
def Dev.dropEnt (d : Dev) (q : QEnt) (c : Cause) : Dev :=
  let dr : Drop := { cause := c, atOut := true, port := q.out }
  if q.conf then (d.settleDrop q.ing q.pk.hdr dr).noteLoss q.pk dr
  else d.onPkt q.pid (fun k => { k with dues := k.dues ++ [dr] })

/-- Cells of a queue entry that have been sent. -/
def Dev.sentOf (d : Dev) (q : QEnt) : Nat := if (d.port q.out).train = some q.key then (d.port q.out).cellsSent else 0

/-- The buffers of the cells of a queue entry not yet sent are given back (R73, R178, R189). -/
def Dev.freeEnt (d : Dev) (q : QEnt) : Dev := d.giveUp (d.owner q.out) (poolOf q.cls) q.pid (d.sentOf q) q.n

/-- Cells of a packet lost at a port are counted as link-lost, the packet once, when it is confirmed (R71, R128). -/
def Dev.loseCells (d : Dev) (p pid n : Nat) (pk : Packet) : Dev :=
  let dr : Drop := { cause := .linkLost, atOut := true, port := p, cells := n }
  if d.pkts.any (fun k => k.id == pid && ! k.conf) then d.onPkt pid (fun k => { k with dues := k.dues ++ [dr] })
  else (d.settleDrop none pk.hdr dr).noteLoss pk dr

/-- A train in progress is counted once, as a link-lost cell (R189 item 3). -/
def Dev.loseTrain (d : Dev) (p : Nat) (q : QEnt) : Dev := (d.loseCells p q.pid 1 q.pk).add64 (rp 3 0x60 p) 1

/-- Flush the queue of an output (R189 items 2 and 3). A train in progress is counted with the replay buffer where that is released
(R128); in QUAR, where its cells are still replayed, it is counted here and marked. -/
def Dev.flushQueue (d : Dev) (p : Nat) (quar : Bool) : Dev :=
  let mine := d.queue.filter (fun q => q.out == p)
  let d1 := mine.foldl (fun (x : Dev) q =>
    if q.stomped then x
    else if q.begun then (if quar then x.loseTrain p q else x).freeEnt q
    else (x.dropEnt q .flush).freeEnt q) d
  let gone := (mine.filter (·.begun)).map (·.pid)
  ({ d1 with queue := d1.queue.filter (fun q => q.out != p) } : Dev).onPort p (fun x => { x with
    train := none, replay := x.replay.map (fun c => if gone.contains c.pid then { c with counted := true } else c) })

/-- Discard what waits in an ingress port's holds (R189 item 4). -/
def Dev.flushHolds (d : Dev) (p : Nat) : Dev :=
  (d.pkts.filter (fun k => k.ing == some p && inHold k)).foldl
    (fun x k => x.dropPkt k { cause := .flush, atOut := false, port := p }) d

/-- ORDER packets held for an output are discarded as TIMEOUT (R189 item 5). -/
def Dev.flushOrder (d : Dev) (p : Nat) : Dev :=
  (d.pkts.filter (fun k => k.st == .ordHeld && d.orderPort k == some p)).foldl (fun x k => x.orderTimeout k p) d

/-- Release the replay buffer (R128, R491): each cell not acknowledged counts as link-lost, and so does a train in progress of which it
holds no cell; a stomped packet's cells, and those counted before, are in no drop counter. -/
def Dev.dropReplay (d : Dev) (p : Nat) : Dev :=
  let x := d.port p
  let cells := x.replay.filter (fun c => ! c.counted)
  let live := cells.filter (fun c => ! c.bad)
  let d1 := ((live.map (fun c => c.pid)).dedup).foldl (fun (y : Dev) i =>
    match live.filter (fun c => c.pid == i) with
    | [] => y
    | c :: l => y.loseCells p i (l.length + 1) c.pk) d
  let bare := d.queue.filter (fun q => x.train == some q.key && q.out == p && ! q.stomped && ! x.replay.any (fun c => c.pid == q.pid))
  ((bare.foldl (fun (y : Dev) q => y.loseTrain p q) d1).add64 (rp 3 0x60 p) cells.length).onPort p (fun y =>
    { y with replay := [], badTags := [], unsure := [] })

end Sys2Proof.Machine
end

