-- ==== Sys2Proof/Machine/Capture.lean ====
section
/-! DEFINITION. Records of the capture channels: what is offered and staged (R511-R513, R515, R516). -/

namespace Sys2Proof.Machine

/-- A register of capture channel `c`, and of pattern source `s`. -/
def capReg (o c : Nat) : Nat := ra 0x11 (0x400000 + o + 0x40 * c)
def patReg (o s : Nat) : Nat := ra 0x11 (0x401000 + o + 0x40 * s)

def Dev.cap_ (d : Dev) (c : Nat) : Cap := mapGet {} d.caps c
def Dev.setCap (d : Dev) (c : Nat) (v : Cap) : Dev := { d with caps := mapSet {} d.caps c v }

/-- A capture record (R513): kind, direction, header fields, data. -/
def Dev.capRecord (d : Dev) (cp : Cap) (kind p dir : Nat) (h : Option Header) (fno : Nat) (cond : Word)
    (data : List Byte) : List Byte :=
  let plen := match h with | some x => pktLen x | none => 0
  let units := cdiv (32 + data.length) 64
  let trunc := kind == 1 && decide (data.length < plen)
  let flags := dir + 2 * (match h with | some x => x.cls.toNat | none => 0) + 16 * b2n trunc + 32 * b2n cp.gap +
    64 * b2n (! d.aligned)
  let head := leBytes 6 fno ++ [Config.capCycle cp.seq] ++ leBytes 1 kind ++ leBytes 1 p ++ leBytes 1 flags ++
    leBytes 2 (if kind = 1 then plen else 0) ++ leBytes 2 units ++
    leBytes 1 (match h with | some x => x.vc.toNat | none => 0) ++ [0] ++ leBytes 4 cp.seq ++ leBytes 4 cond.toNat ++ zeros 8
  padTo (64 * units) (head ++ data)

/-- Stage a record in the 64 KiB of a channel, or lose it (R515). -/
def Dev.stageRec (d : Dev) (c kind p dir : Nat) (h : Option Header) (fno : Nat) (cond : Word) (data : List Byte) : Dev :=
  let cp := d.cap_ c
  let r := d.capRecord cp kind p dir h fno cond data
  if 65536 < (cp.staged.map List.length).sum + r.length then
    ((d.setCap c { cp with gap := true }).addSat (capReg 0x1C c) 1).raiseOnce 0xFFFF 0x11 1 c
  else d.setCap c { cp with staged := cp.staged ++ [r], seq := cp.seq + 1, gap := false }

/-- The channels that record what passes a port in a direction (0 in, 1 out). -/
def Dev.capOn (d : Dev) (p dir : Nat) : List Nat :=
  (List.range 8).filter (fun c =>
    (d.cap_ c).st == .run && d.fld (capReg 0 c) 0 7 == p && d.bit (capReg 0 c) (24 + dir))

/-- Offer a confirmed packet (R511). -/
def Dev.capPacket (d : Dev) (p dir : Nat) (pk : Packet) (fno : Nat) : Dev :=
  (d.capOn p dir).foldl (fun x c =>
    let m := x.fld (capReg 4 c) 24 8
    if x.bit (capReg 0 c) (12 + pk.hdr.cls.toNat) && pk.hdr.cls != 7 &&
        (pk.hdr.op.toNat &&& m) == x.fld (capReg 4 c) 16 8 then
      let all := pktBytes pk
      x.stageRec c 1 p dir (some pk.hdr) fno 0 (if x.bit (capReg 0 c) 21 then all else all.take 32)
    else x) d

/-- A STOMP record for each channel with EVENTS (R511). -/
def Dev.capStomp (d : Dev) (p : Nat) (h : Header) : Dev :=
  ((List.range 8).filter (fun c => (d.cap_ c).st == .run && d.fld (capReg 0 c) 0 7 == p && d.bit (capReg 0 c) 23)).foldl
    (fun x c => x.stageRec c 2 p 0 (some h) d.fno 0 []) d

/-- A failure of a partner on an EMU_CHECK port: counted and recorded (R516). -/
def Dev.check (d : Dev) (p : Nat) (w : Word) (pk : Option Packet) : Dev :=
  if d.emuRole p ≠ 2 then d
  else
    ((d.capOn p 0).filter (fun c => d.bit (capReg 0 c) 23)).foldl
      (fun x c => x.stageRec c 3 p 0 (pk.map (·.hdr)) d.fno w (match pk with | some k => (pktBytes k).take 32 | none => []))
      (d.addSat (rp 0x11 0x118 p) 1)

end Sys2Proof.Machine
end

