-- ==== Sys2Proof/Machine/Num.lean ====
section
/-! DEFINITION. Element formats (R237): what an encoding stands for, and rounding an exact value once into a format
(R252-R254). -/

namespace Sys2Proof.Machine

/-- A float format: element bits, exponent bits, fraction bits, and whether all-ones exponents are IEEE infinities and
NaNs (0), only S.1111.111 is NaN (1), or every encoding is finite (2). -/
structure FF where
  bits : Nat
  eb : Nat
  mb : Nat
  spec : Nat
  deriving DecidableEq, Repr

/-- Format of code `f` (R237); an integer format is not a float. -/
def ffOf (f : Nat) : FF :=
  match f with
  | 0 => ⟨32, 8, 23, 0⟩
  | 1 => ⟨16, 5, 10, 0⟩
  | 2 => ⟨16, 8, 7, 0⟩
  | 3 => ⟨8, 4, 3, 1⟩
  | 4 => ⟨8, 5, 2, 0⟩
  | 5 => ⟨8, 4, 3, 1⟩
  | 6 => ⟨8, 5, 2, 0⟩
  | 7 => ⟨4, 2, 1, 2⟩
  | 8 => ⟨32, 0, 0, 2⟩
  | _ => ⟨8, 0, 0, 2⟩

def isMx (f : Nat) : Bool := decide (5 ≤ f ∧ f ≤ 7)
def isInt (f : Nat) : Bool := decide (8 ≤ f)

/-- Elements in a 64-byte unit (R237). -/
def perUnit (f : Nat) : Nat := 512 / (ffOf f).bits

/-- Largest CHUNK_UNITS (R238). -/
def maxUnits (f : Nat) : Nat := if f = 5 ∨ f = 6 then 61 else if f = 7 then 59 else 63

/-- Scale units S of a chunk of `u` element units (R238). -/
def scaleUnits (f u : Nat) : Nat := if isMx f then cdiv (u * perUnit f / 32) 64 else 0

/-- Bits the format's own LSB lies above its accumulator's (R244: BFLT16 shares BF32's 2^-149). -/
def lsbShift (f : Nat) : Nat := if f = 2 then 16 else 0

/-- What an element stands for, in units of its format's smallest magnitude. -/
inductive Val where
  | nan
  | inf (neg : Bool)
  | fin (neg : Bool) (mag : Nat)
  deriving DecidableEq, Repr

/-- Decode a float element. -/
def decF (f : FF) (e : Nat) : Val :=
  let frac := e % 2 ^ f.mb
  let ex := e / 2 ^ f.mb % 2 ^ f.eb
  let neg := (e / 2 ^ (f.mb + f.eb)) % 2 == 1
  let top := ex == 2 ^ f.eb - 1
  if f.spec = 0 && top then (if frac = 0 then .inf neg else .nan)
  else if f.spec = 1 && top && frac == 2 ^ f.mb - 1 then .nan
  else .fin neg (if ex = 0 then frac else (2 ^ f.mb + frac) * 2 ^ (ex - 1))

/-- The largest finite magnitude of a format. -/
def maxMag (f : FF) : Nat :=
  match f.spec with
  | 0 => (2 ^ (f.mb + 1) - 1) * 2 ^ (2 ^ f.eb - 3)
  | 1 => (2 ^ (f.mb + 1) - 2) * 2 ^ (2 ^ f.eb - 2)
  | _ => (2 ^ (f.mb + 1) - 1) * 2 ^ (2 ^ f.eb - 2)

/-- n / d rounded to nearest, ties to even. -/
def rne (n d : Nat) : Nat :=
  let q := n / d
  let r := n % d
  if 2 * r < d then q else if d < 2 * r then q + 1 else q + q % 2

/-- n / d, in units of the smallest magnitude, rounded once to the precision of the format. -/
def roundMag (f : FF) (n d : Nat) : Nat :=
  let q := n / d
  if q < 2 ^ (f.mb + 1) then rne n d
  else
    let k := Nat.log2 q - f.mb
    rne n (d * 2 ^ k) * 2 ^ k

/-- Encode a magnitude that the format holds. -/
def encMag (f : FF) (neg : Bool) (m : Nat) : Nat :=
  let s := if neg then 2 ^ (f.mb + f.eb) else 0
  if m < 2 ^ f.mb then s + m
  else
    let k := Nat.log2 m - f.mb
    s + (k + 1) * 2 ^ f.mb + (m / 2 ^ k - 2 ^ f.mb)

/-- The canonical NaN of a format (R252). -/
def canonNan (f : Nat) : Nat :=
  match f with
  | 0 => 0x7FC00000
  | 1 => 0x7E00
  | 2 => 0x7FC0
  | 3 => 0x7F
  | _ => 0x7E

/-- A result element with what it contributes to the flags OVF, NAN, INEXACT, ZERO_LOSS (R254). -/
structure ResE where
  enc : Nat
  ovf : Bool := false
  nan : Bool := false
  inexact : Bool := false
  zloss : Bool := false
  deriving DecidableEq, Repr

/-- ±∞ in a format; for E4M3, NaN (R252). -/
def encInf (f : Nat) (neg : Bool) : ResE :=
  if f = 3 then { enc := canonNan 3, nan := true }
  else
    let p := ffOf f
    { enc := (2 ^ p.eb - 1) * 2 ^ p.mb + (if neg then 2 ^ (p.mb + p.eb) else 0) }

/-- Round the exact finite value (v / den) × 2^(-lsbShift), in the format's smallest magnitudes, into a float format
without a shared scale (R252). -/
def roundF (f : Nat) (sat : Bool) (v : Int) (den : Nat) (nz : Bool) : ResE :=
  let p := ffOf f
  let n := v.natAbs
  let d := den * 2 ^ lsbShift f
  let neg := decide (v < 0)
  if n = 0 then { enc := encMag p nz 0 }
  else
    let m := roundMag p n d
    if maxMag p < m then
      (if sat then { enc := encMag p neg (maxMag p), ovf := true, inexact := true }
       else { encInf f neg with ovf := true, inexact := true })
    else { enc := encMag p neg m, inexact := decide (m * d ≠ n), zloss := decide (m = 0) }

/-- Round v / den into an integer format (R252). -/
def roundI (f : Nat) (sat : Bool) (v : Int) (den : Nat) : ResE :=
  let b := (ffOf f).bits
  let m := rne v.natAbs den
  let i : Int := if v < 0 then - (m : Int) else m
  let hi : Int := 2 ^ (b - 1) - 1
  let lo : Int := - 2 ^ (b - 1)
  let ov := decide (i < lo ∨ hi < i)
  let o := if ov && sat then (if i < 0 then lo else hi) else i
  { enc := uInt b o, ovf := ov, inexact := decide (m * den ≠ v.natAbs) || ov
    zloss := decide (uInt b o = 0 ∧ v ≠ 0) }

/-- Element encodings of a unit string, in index order (R237). -/
def unpackE (bits : Nat) : List Byte → List Nat
  | [] => []
  | b :: bs =>
    if bits = 4 then b.toNat % 16 :: b.toNat / 16 :: unpackE bits bs
    else if bits = 8 then b.toNat :: unpackE bits bs
    else if bits = 16 then
      match bs with
      | [] => [b.toNat]
      | c :: cs => leNat [b, c] :: unpackE bits cs
    else
      match bs with
      | c :: e :: g :: rest => leNat [b, c, e, g] :: unpackE bits rest
      | _ => [leNat (b :: bs)]

/-- The byte string of element encodings. -/
def packE (bits : Nat) : List Nat → List Byte
  | [] => []
  | e :: es =>
    if bits = 4 then
      match es with
      | [] => leBytes 1 e
      | g :: gs => leBytes 1 (e + 16 * g) ++ packE bits gs
    else leBytes (bits / 8) e ++ packE bits es

end Sys2Proof.Machine
end

