-- ==== Sys2Proof/Machine/Cat.lean ====
section
/-! DEFINITION. Catchment (R234-R270) and the launches that drive it (R271-R298): exact accumulation, retraction,
partials, results, aborts. Accumulators are held as exact integers in units of the full form's LSB (R248); the
compact form is made where it is sent (R249). -/

namespace Sys2Proof.Machine

/-! ## Elements -/

/-- One element as a contribution or partial brings it: its finite value in units of the full form's LSB; flags; for
MIN and MAX its place in the order of R247, its encoding and its block's scale. -/
structure Elt where
  fin : Int := 0
  nan : Bool := false
  pinf : Bool := false
  ninf : Bool := false
  negz : Bool := false
  seen : Bool := true
  key : Int := 0
  enc : Nat := 0
  scale : Nat := 0
  esc : Bool := false
  deriving DecidableEq, Repr

/-- The place of a value in the total order of R247. -/
def ordKey (v : Val) (shift : Nat) : Int :=
  match v with
  | .nan => 0
  | .inf neg => if neg then - 2 ^ 600 else 2 ^ 600
  | .fin neg m => if neg then - ((m * 2 ^ shift : Nat) : Int) - 1 else ((m * 2 ^ shift : Nat) : Int)

/-- An element encoding under scale byte `x` (0 for formats without one). -/
def eltOf (f : Nat) (x : Nat) (e : Nat) : Elt :=
  if isInt f then
    let i := sInt (ffOf f).bits e
    { fin := i, key := i, enc := e }
  else
    let sh := if isMx f then x else lsbShift f
    if isMx f && x == 255 then { nan := true, seen := false, enc := e, scale := x }
    else
      let v := decF (ffOf f) e
      let base : Elt := { enc := e, scale := x, key := ordKey v sh }
      match v with
      | .nan => { base with nan := true, seen := false }
      | .inf neg => { base with pinf := ! neg, ninf := neg }
      | .fin neg m =>
        let i : Int := ((m * 2 ^ sh : Nat) : Int)
        { base with fin := if neg then - i else i, negz := neg && m == 0 }

/-- The element units of a contribution with absent units as zeros (R239). -/
def spread (units : Nat) (sparse : Bool) (bitmap : Nat) (data : List Byte) : List Byte :=
  if ! sparse then data.take (64 * units)
  else
    ((List.range units).foldl (fun (acc : List Byte × List Byte) i =>
      if bitmap.testBit i then (acc.1 ++ padTo 64 (acc.2.take 64), acc.2.drop 64) else (acc.1 ++ zeros 64, acc.2))
      (([] : List Byte), data)).1

/-- Units of the element data that are carried. -/
def present (units : Nat) (sparse : Bool) (bitmap : Nat) : Nat := if sparse then popCount units bitmap else units

/-- The elements of a contribution's data (R237-R239). -/
def contribElts (f units : Nat) (sparse : Bool) (bitmap : Nat) (data : List Byte) : List Elt :=
  let es := unpackE (ffOf f).bits (spread units sparse bitmap data)
  let sc := data.drop (64 * present units sparse bitmap)
  es.zipIdx.map (fun e => eltOf f (if isMx f then (sc.getD (e.2 / 32) 0).toNat else 0) e.1)

/-- Elements of a chunk of a group. -/
def nElts (g : GtE) : Nat := g.units * perUnit g.fmt

/-! ## Accumulators -/

/-- The value fits the 114-bit window at some position (R249). -/
def fitsWin (v : Int) : Bool :=
  let ok (p : Nat) : Bool := v % 2 ^ p == 0 && decide (- 2 ^ 113 ≤ v / 2 ^ p ∧ v / 2 ^ p < 2 ^ 113)
  (List.range 207).any ok

/-- Fits 64 bits in two's complement. -/
def fits64 (v : Int) : Bool := decide (- 2 ^ 63 ≤ v ∧ v < 2 ^ 63)

/-- MIN and MAX keep an extreme: which of two keys stands. -/
def better (op : Nat) (a b : Int) : Bool := if op = 2 then decide (a < b) else decide (b < a)

/-- Place in the order of R247 of the extreme an accumulator holds. -/
def extKey (f : Nat) (a : Acc) : Int := (eltOf f a.scale a.ext).key

/-- Add an element's finite value (SUM, AVG), speculatively (R255). -/
def addFin (a : Acc) (e : Elt) : Acc := { a with v := a.v + e.fin }

/-- Take an element's flags and, for MIN and MAX, compare it: only once confirmed (R246, R247, R255). -/
def addConf (f op : Nat) (a : Acc) (e : Elt) : Acc :=
  let b := { a with nan := a.nan || e.nan, pinf := a.pinf || e.pinf, ninf := a.ninf || e.ninf
                    nzall := a.nzall && e.negz }
  if op < 2 then b
  else if ! e.seen then b
  else if ! b.seen ∨ better op e.key (extKey f b) then { b with seen := true, ext := e.enc, scale := e.scale }
  else b

/-- The scales a packet's blocks bring, by block (none for a block that adds nothing finite). -/
abbrev Scales := List (Option Nat)

/-- Anchor of a block after a block of scale `x` (R245). -/
def anchorWith (q x : Option Nat) : Option Nat :=
  match q, x with
  | none, x => x
  | q, none => q
  | some a, some b => some (min a b)

/-- Escapes after an addition or a retraction (R245, R249, R256): floats whose window is too narrow, and whole MX blocks where an
accumulator as it stood (`old`), an element or a sum leaves 64 bits at the block's anchor. -/
def escapes (f : Nat) (anchors : List (Option Nat)) (old accs : List Acc) (es : List Elt) : List Acc :=
  if f = 0 ∨ f = 2 then accs.map (fun a => { a with esc := a.esc || ! fitsWin a.v })
  else if isMx f then
    let blocks := (List.range anchors.length).map (fun b =>
      let q := (anchors.getD b none).getD 0
      let out (v : Int) : Bool := ! fits64 (v / 2 ^ q)
      ((accs.drop (32 * b)).take 32).any (fun a => a.esc || out a.v) || ((old.drop (32 * b)).take 32).any (fun a => out a.v) ||
      ((es.drop (32 * b)).take 32).any (fun e => e.esc || out e.fin))
    accs.zipIdx.map (fun a => { a.1 with esc := a.1.esc || blocks.getD (a.2 / 32) false })
  else accs

/-! ## Slots on the wire (R249) -/

/-- The 128-bit slot of an accumulator; `rec_` is its record's index where it has escaped. -/
def slotOf (f op : Nat) (anchor : Option Nat) (a : Acc) (rec_ : Nat) : Nat :=
  if 2 ≤ op then
    (if a.nan then 2 ^ 126 else 0) + (if a.seen then 2 ^ 124 else 0) +
      (if isMx f then a.scale * 2 ^ 112 else 0) + a.ext
  else
    let fl := (if a.nan then 2 ^ 126 else 0) + (if a.pinf then 2 ^ 125 else 0) + (if a.ninf then 2 ^ 124 else 0) +
      (if a.nzall then 2 ^ 123 else 0)
    if a.esc then 2 ^ 127 + fl + rec_ % 2 ^ 32
    else if f = 0 ∨ f = 2 then
      let ok (p : Nat) : Bool := a.v % 2 ^ p == 0 && decide (- 2 ^ 113 ≤ a.v / 2 ^ p ∧ a.v / 2 ^ p < 2 ^ 113)
      let cand := (List.range 207).filter ok
      let pos := cand.getD (Config.slotPos a.v % max 1 cand.length) 0
      fl + pos * 2 ^ 114 + uInt 114 (a.v / 2 ^ pos)
    else if isMx f then
      match anchor with
      | none => fl + 255 * 2 ^ 112
      | some q => fl + q * 2 ^ 112 + uInt 96 (a.v / 2 ^ q)
    else fl + uInt 96 a.v

/-- A full record (R249). -/
def recOf (a : Acc) : List Byte := leBytes 40 (uInt 320 a.v) ++ zeros 8

/-- What a received slot brings, and its block's scale; none where it breaks its row (R249, R260); an integer
format has no NAN, PINF or NINF (R246). -/
def slotElt (f op : Nat) (nfull : Nat) (recs : List Byte) (s : Nat) : Option (Elt × Option Nat) :=
  let b (i : Nat) := s.testBit i
  let part (lo len : Nat) := s / 2 ^ lo % 2 ^ len
  if 2 ≤ op then
    let sc := part 112 8
    let e := part 0 32
    if b 127 ∨ b 125 ∨ b 123 ∨ part 120 3 ≠ 0 ∨ part 32 80 ≠ 0 ∨ (! isMx f ∧ sc ≠ 0) ∨ 2 ^ (ffOf f).bits ≤ e then none
    else
      let x := eltOf f sc e
      some ({ x with nan := b 126, pinf := false, ninf := false, negz := false, seen := b 124, fin := 0 }, none)
  else
    let base : Elt := { nan := b 126, pinf := b 125, ninf := b 124, negz := b 123, seen := false }
    if isInt f ∧ (b 126 ∨ b 125 ∨ b 124) then none
    else if b 127 then
      let r := part 0 32
      if part 32 91 ≠ 0 ∨ nfull ≤ r ∨ ! (f = 0 ∨ f = 2 ∨ isMx f) ∨ ! zeroAt recs (48 * r + 40) 8 then none
      else some ({ base with fin := sInt 320 (leAt recs (48 * r) 40), esc := true }, none)
    else if f = 0 ∨ f = 2 then
      let pos := part 114 9
      if 206 < pos then none else some ({ base with fin := sInt 114 (part 0 114) * 2 ^ pos }, none)
    else if isMx f then
      let q := part 112 8
      let v := sInt 96 (part 0 96)
      if part 120 3 ≠ 0 ∨ part 96 16 ≠ 0 ∨ ! fits64 v ∨ (q = 255 ∧ v ≠ 0) then none
      else some ({ base with fin := if q = 255 then 0 else v * 2 ^ q }, if q = 255 then none else some q)
    else
      let v := sInt 96 (part 0 96)
      if part 96 27 ≠ 0 ∨ (f ≠ 1 ∧ ! fits64 v) then none else some ({ base with fin := v }, none)

/-! ## Reading a packet -/

def catGroup (pk : Packet) : Nat := leAt pk.payload 0 2
def catLaunch (pk : Packet) : Nat := leAt pk.payload 2 2
def catChunk (pk : Packet) : Nat := leAt pk.payload 4 4

/-- The group a packet names: REF of its DST_ID's entry (R240). -/
def Dev.refGroup (d : Dev) (pk : Packet) : Nat := (d.dt pk.hdr.dstId.toNat).ref % 0x1000

/-- A contribution's contributor is its ingress port; a partial's 128 + its direction group. -/
def Dev.who (d : Dev) (k : Pkt) : Nat :=
  let p := k.ing.getD 0
  if k.pk.hdr.op = 0x20 then p else 128 + d.dir p

/-- Slots of a partial segment: FIRST, COUNT, SEG_NO, SEG_TOTAL, NFULL. -/
def segFields (pk : Packet) : Nat × Nat × Nat × Nat × Nat :=
  (leAt pk.payload 8 2, leAt pk.payload 10 2, leAt pk.payload 12 1, leAt pk.payload 13 1, leAt pk.payload 14 1)

/-- The slots of a segment, read; none where one is not valid. -/
def segSlots (f op : Nat) (pk : Packet) : Option (List (Elt × Option Nat)) :=
  let (_, cnt, _, _, nf) := segFields pk
  let data := pk.payload.drop 64
  let recs := data.drop (16 * cnt)
  (List.range cnt).foldr (fun i acc =>
    match acc, slotElt f op nf recs (leAt data (16 * i) 16) with
    | some l, some e => some (e :: l)
    | _, _ => none) (some [])

/-- What the slots of a segment say of their MX blocks: block, and Q or 256 where they are escaped (R249). -/
def blockKeys (f op : Nat) (pk : Packet) : List (Nat × Nat) :=
  let (first, cnt, _, _, _) := segFields pk
  if isMx f && decide (op < 2) then
    ((List.range cnt).map (fun i =>
      let s := leAt pk.payload (64 + 16 * i) 16
      ((first + i) / 32, if s.testBit 127 then 256 else s / 2 ^ 112 % 256))).dedup
  else []

/-- The slots of one MX block, in whatever segments of the partial they come, are all escaped, or all anchored at one Q (R249). -/
def blocksOk (f op : Nat) (segs : List Seg) (pk : Packet) : Bool :=
  let l := blockKeys f op pk
  (l ++ segs.flatMap (·.keys)).all (fun a => l.all (fun b => a.1 != b.1 || a.2 == b.2))

/-- The elements a packet brings: index of the first, elements, and scales by block of the chunk. -/
def Dev.packetElts (d : Dev) (k : Pkt) : Nat × List Elt × Scales :=
  let g := d.gt (d.refGroup k.pk)
  let nb := nElts g / 32
  if k.pk.hdr.op = 0x20 then
    let sparse := (leAt k.pk.payload 8 1).testBit 0
    let bm := leAt k.pk.payload 16 8
    let data := k.pk.payload.drop 64
    let sc := data.drop (64 * present g.units sparse bm)
    (0, contribElts g.fmt g.units sparse bm data,
      if isMx g.fmt then (List.range nb).map (fun b =>
        let x := (sc.getD b 0).toNat
        if x = 255 then none else some x) else [])
  else
    let (first, _, _, _, _) := segFields k.pk
    match segSlots g.fmt g.op k.pk with
    | none => (first, [], [])
    | some l =>
      (first, l.map (·.1),
        if isMx g.fmt then (List.range nb).map (fun b =>
          ((l.zipIdx.filter (fun e => (e.2 + first) / 32 == b)).filterMap (fun e => e.1.2)).head?) else [])

/-! ## Launches and aborts (R271-R293) -/

def Dev.launch (d : Dev) (g : Nat) : Launch := mapGet {} d.launches g
def Dev.setLaunch (d : Dev) (g : Nat) (l : Launch) : Dev := { d with launches := mapSet {} d.launches g l }

/-- The operand unit of a CAT_ABORT (R289). -/
def abortUnit (w : Word) (g af launch form : Nat) : List Byte :=
  unit64 [(0, 8, abortWord w g af), (8, 6, af), (14, 2, launch), (16, 1, form)]

/-- Adopt a proposal when none is held or it is lower (R287); it goes out on the tree but not where it came from. -/
def Dev.adopt (d : Dev) (g af : Nat) (w : Word) (src : Option Nat) (foreign : Bool) : Dev :=
  let l := d.launch g
  let lower := match l.prop with
    | none => true
    | some (a, x) => decide (af < a ∨ (af = a ∧ w.toNat < x.toNat))
  if ! lower then d
  else
    let e := d.gt g
    let d1 := d.setLaunch g { l with prop := some (af, w), st := .aborting }
    let d2 := if foreign then d1.raise 7 0xA g else d1
    let dirs := (if e.outDir = 0 then [] else [e.outDir]) ++ e.inDirs
    (dirs.filter (fun x => some x != src)).foldl (fun x dir =>
      x.originate (ownPkt x 0x24 0 e.slice e.catchId 0 (abortUnit w g af l.d.launch.toNat 1)) (some dir) none false) d2

/-- The launch became ABORTING by a cause of this very frame: its other causes of the frame count too (R483, log 81). -/
def Dev.causeNow (d : Dev) (l : Launch) : Bool :=
  l.st == .aborting && l.prop.map (·.1) == some (d.fno + l.d.abortLead)

/-- An abort cause of a group's launch in ARMED or RUN, or, for a loss, in DONE (R286, R479); of the causes of one frame the
lowest is adopted (R287, R483). -/
def Dev.cause (d : Dev) (g : Nat) (w : Word) (loss : Bool) : Dev :=
  let l := d.launch g
  if l.st = .armed ∨ l.st = .run ∨ (loss ∧ l.st = .done) ∨ d.causeNow l then d.adopt g (d.fno + l.d.abortLead) w none false else d

/-- Raise a CAT condition and the abort cause it names, for the collective a packet names (R236, R240). -/
def Dev.catFail (d : Dev) (g launch c det : Nat) : Dev :=
  let d1 := d.raise 7 c det
  if (d1.launch g).d.launch.toNat = launch then d1.cause g (condWord 7 c det) false else d1

/-- Post a completion record (R293). -/
def Dev.postCat (d : Dev) (g : Nat) (word : Nat) (st : Nat) : Dev :=
  let l := d.launch g
  d.event 2 (leBytes 8 word ++ leBytes 2 g ++ leBytes 2 l.d.launch.toNat ++ leBytes 6 d.fno ++ leBytes 1 st ++
    leBytes 1 (l.flags % 16) ++ leBytes 4 l.fenced ++ leBytes 4 (if (d.gt g).outDir = 0 then l.holds else 0) ++
    leBytes 4 l.emitted)

/-! ## Chunks -/

/-- The core die a chunk is reduced on (R31). -/
def chunkDie (g c : Nat) : Nat := (g + c) % 4

def Dev.chunk (d : Dev) (g c : Nat) : Option Chunk := d.chunks.find? (fun x => x.g == g && x.c == c)
def Dev.onChunk (d : Dev) (g c : Nat) (f : Chunk → Chunk) : Dev :=
  { d with chunks := d.chunks.map (fun x => if x.g = g ∧ x.c = c then f x else x) }
/-- An abort frees chunks: the confirmed packets accepted for them are discarded with them (R250, R257, R267). -/
def Dev.dropChunks (d : Dev) (f : Chunk → Bool) : Dev :=
  let gone := (d.chunks.filter f).flatMap (fun c => c.taken.map (·.pid))
  { d with chunks := d.chunks.filter (fun c => ! f c), pkts := d.pkts.filter (fun k => ! (k.conf && gone.contains k.id)) }
def Dev.freeChunk (d : Dev) (g c : Nat) : Dev :=
  { d with chunks := d.chunks.filter (fun x => ! (x.g == g && x.c == c)) }

/-- Compact slots and full records that Fan holds on a die (R307, R318). -/
def Dev.fanSlots (d : Dev) (k : Nat) : Nat :=
  ((d.rounds.flatMap (fun r => r.2.combos.filter (fun c => d.owner c.port == k))).map (·.accs.length)).sum
def Dev.fanRecs (d : Dev) (k : Nat) : Nat :=
  ((d.rounds.flatMap (fun r => r.2.combos.filter (fun c => d.owner c.port == k))).map
    (fun c => 2 * (c.accs.filter (·.esc)).length)).sum

/-- Free compact slots and full records of a die (R250). -/
def Dev.fullMib (d : Dev) : Nat := d.fld (ra 7 0) 24 5
def Dev.freeSlots (d : Dev) (k : Nat) : Nat :=
  (64 - d.fullMib) * 65536 - (((d.chunks.filter (fun c => chunkDie c.g c.c == k && ! c.spill)).map (·.accs.length)).sum) - d.fanSlots k
def Dev.freeRecs (d : Dev) (k : Nat) : Nat :=
  d.fullMib * 1048576 / 48 -
    (((d.chunks.filter (fun c => chunkDie c.g c.c == k && ! c.spill)).map (fun c => (c.accs.filter (·.esc)).length)).sum) - d.fanRecs k

/-- Spill frames of a group's region, and the slots that a packet adds to in that of a chunk (R264, R344; log 16). -/
def Dev.spillFrames (d : Dev) (g : Nat) : Nat := (d.rt (d.gt g).spillRegion).size / (64 * nElts (d.gt g))
def Dev.spillDraw (d : Dev) (g c : Nat) (pk : Packet) : Dev :=
  let e := d.gt g
  let base := (d.rt e.spillRegion).base + 64 * nElts e * (c % max 1 (d.spillFrames g))
  if pk.hdr.op = 0x20 then d.drawUnits base (16 * nElts e)
  else let (first, cnt, _) := segFields pk; d.drawUnits (base + 16 * first) (16 * cnt)

/-- Open a chunk in store or in spill (R263, R264); the flag says a spill frame is busy. -/
def Dev.openChunk (d : Dev) (g c : Nat) (launch : BitVec 16) : Option Dev × Bool :=
  let e := d.gt g
  let n := nElts e
  let base : Chunk := { g := g, c := c, launch := launch, spill := false, accs := List.replicate n {}
                        anchors := if isMx e.fmt then List.replicate (n / 32) none else [] }
  if n ≤ d.freeSlots (chunkDie g c) then (some { d with chunks := d.chunks ++ [base] }, false)
  else if ! e.spillEn then (none, false)
  else
    let nf := d.spillFrames g
    if nf = 0 ∨ d.chunks.any (fun x => x.g == g && x.spill && x.c % nf == c % nf) then (none, true)
    else (some { d with chunks := d.chunks ++ [{ base with spill := true }] }, false)

/-- Engine-cycles drawn: kind 0 shared, 1 CORR, 2 spill, 3 a wait was counted, 4 retraction (R241, R242, R256). -/
def Dev.drawn (d : Dev) (k kind : Nat) : Nat × Nat := mapGet (0, 0) d.units (k * 8 + kind)
def Dev.setDrawn (d : Dev) (k kind : Nat) (v : Nat × Nat) : Dev := { d with units := mapSet (0, 0) d.units (k * 8 + kind) v }

/-- Draw `n` engine-cycles of one frame for an in-store chunk (R241, R452). `cur` chooses the frame. -/
def Dev.drawFrom (d : Dev) (k n : Nat) (corr cur : Bool) : Option Dev :=
  let get (p : Nat × Nat) : Nat := if cur then p.1 else p.2
  let put (p : Nat × Nat) (v : Nat) : Nat × Nat := if cur then (v, p.2) else (p.1, v)
  let cu := d.fld (ra 7 4) 0 12
  let sh := d.drawn k 0
  let co := d.drawn k 1
  if corr then
    let rsv := cu - get co
    if n ≤ rsv + (4000 - cu - get sh) then
      let a := min n rsv
      some ((d.setDrawn k 1 (put co (get co + a))).setDrawn k 0 (put sh (get sh + (n - a))))
    else none
  else if get sh + n ≤ min (4000 - cu) (d.pwr.scale * (4000 - cu) / 256) then
    some (d.setDrawn k 0 (put sh (get sh + n)))
  else none

/-- Draw `n` spill units of a frame. -/
def Dev.drawSpill (d : Dev) (k n : Nat) : Option Dev :=
  let lim := d.fld (ra 7 4) 16 10
  let s := d.drawn k 2
  if s.1 + n ≤ lim then some (d.setDrawn k 2 (s.1 + n, s.2))
  else if s.2 + n ≤ lim then some (d.setDrawn k 2 (s.1, s.2 + n))
  else none

/-! ## Checks (R236, R240, R260, R275) -/

/-- What a check of a contribution or partial finds. -/
inductive CatChk where
  | ok
  | off
  | bad (reason : Nat)
  | stale
  | range
  | dup
  | full
  deriving DecidableEq, Repr

/-- R240: the first reason that holds. -/
def Dev.contribBad (d : Dev) (k : Pkt) : Option Nat :=
  let gi := d.refGroup k.pk
  let g := d.gt gi
  let pl := k.pk.payload
  let sparse := (leAt pl 8 1).testBit 0
  let bm := leAt pl 16 8
  let su := scaleUnits g.fmt g.units
  if (k.ing.getD 128) ∉ g.members then some 1
  else if (sparse && ! g.sparseOk) ∨ (sparse ∧ 2 ^ g.units ≤ bm) ∨ (! sparse ∧ bm ≠ 0) then some 2
  else if pl.length ≠ 64 + 64 * (present g.units sparse bm + su) then some 3
  else if k.pk.hdr.slice.toNat ≠ g.slice then some 4
  else if 2 ≤ leAt pl 8 1 ∨ ! zeroAt pl 9 7 ∨ ! zeroAt pl 24 40 ∨ 0x1000 ≤ catGroup k.pk then some 5
  else if catGroup k.pk % 0x1000 ≠ gi then some 0xA
  else none

/-- R260: the first reason that holds. -/
def Dev.partialBad (d : Dev) (k : Pkt) : Option Nat :=
  let gi := d.refGroup k.pk
  let g := d.gt gi
  let (first, cnt, no, tot, nf) := segFields k.pk
  let dir := d.dir (k.ing.getD 0)
  let segs : List Seg := match d.chunk gi (catChunk k.pk) with
    | some c => c.segs.filter (fun s => s.dir == dir)
    | none => []
  let overlaps := segs.any (fun s =>
    s.tot != tot || (s.sno != no && (decide (s.first < first + cnt ∧ first < s.first + s.cnt) ||
      decide (s.sno < no ∧ first < s.first) || decide (no < s.sno ∧ s.first < first))))
  let done := segs.length + 1 == tot && ! segs.any (fun s => s.sno == no)
  let total := (segs.map (fun s => s.cnt)).sum + cnt
  if dir ∉ g.inDirs ∨ ! k.fromSw then some 6
  else if cnt = 0 ∨ 252 < cnt ∨ k.pk.payload.length ≠ 64 + 64 * cdiv (16 * cnt + 48 * nf) 64 then some 7
  else if (List.range cnt).any (fun i =>
      let s := leAt k.pk.payload (64 + 16 * i) 16
      g.op < 2 && s.testBit 127 && decide (nf ≤ s % 2 ^ 32)) then some 7
  else if tot = 0 ∨ tot ≤ no ∨ nElts g < first + cnt ∨ overlaps ∨ (done && total != nElts g) then some 8
  else if (segSlots g.fmt g.op k.pk).isNone || ! blocksOk g.fmt g.op (segs.filter (fun s => s.sno != no)) k.pk then some 9
  else if catGroup k.pk ≠ gi then some 0xA
  else none

/-- The scoreboard has marked the packet's contributor for its chunk, a partial's segment included. -/
def Dev.marked (d : Dev) (k : Pkt) : Bool :=
  match d.chunk (d.refGroup k.pk) (catChunk k.pk) with
  | none => false
  | some c =>
    let w := d.who k
    c.marks.any (fun m => m.1 == w) ||
    (128 ≤ w && c.segs.any (fun s => s.dir == w - 128 && s.sno == (segFields k.pk).2.2.1))

/-- All checks of a contribution or partial in their order. -/
def Dev.catCheck (d : Dev) (k : Pkt) : CatChk :=
  let g := d.refGroup k.pk
  let l := d.launch g
  let c := catChunk k.pk
  if ! d.gtOn g then .off
  else
    match (if k.pk.hdr.op = 0x20 then d.contribBad k else d.partialBad k) with
    | some r => .bad r
    | none =>
      if l.d.launch.toNat ≠ catLaunch k.pk ∨ l.st ≠ .run then .stale
      else if l.d.nchunk ≤ c then .range
      else if c < l.low ∨ c ∈ l.above ∨ d.marked k then .dup
      else if l.low + 4096 ≤ c then .full
      else .ok

/-! ## Adding and retracting -/

/-- Apply `f` to the accumulators from index `first`, element by element. -/
def zipAccs (f : Acc → Elt → Acc) (first : Nat) (es : List Elt) (accs : List Acc) : List Acc :=
  accs.zipIdx.map (fun a =>
    if first ≤ a.2 then
      match es[a.2 - first]? with
      | some e => f a.1 e
      | none => a.1
    else a.1)

/-- Pad a segment's elements to the whole chunk, for block tests. -/
def padElts (first : Nat) (es : List Elt) : List Elt := List.replicate first ({} : Elt) ++ es

/-- Add a packet's finite values to its chunk (R244, R245, R255). -/
def addPacket (g : GtE) (first : Nat) (es : List Elt) (sc : Scales) (c : Chunk) : Chunk :=
  if 2 ≤ g.op then c
  else
    let accs := zipAccs addFin first es c.accs
    let an := if isMx g.fmt then List.zipWith anchorWith c.anchors sc else c.anchors
    { c with accs := escapes g.fmt an c.accs accs (padElts first es), anchors := an }

/-- Take a confirmed packet's flags and comparisons (R255). -/
def confPacket (g : GtE) (first : Nat) (es : List Elt) (c : Chunk) : Chunk :=
  { c with accs := zipAccs (addConf g.fmt g.op) first es c.accs }

/-- What a retraction subtracts (R256): the non-zero finite values by index. -/
def retrOf (g : GtE) (first : Nat) (es : List Elt) : List (Nat × Int) :=
  if 2 ≤ g.op then [] else (es.zipIdx.filter (fun e => e.1.fin != 0)).map (fun e => (e.2 + first, e.1.fin))

/-- Subtract exactly. -/
def subVals (l : List (Nat × Int)) (accs : List Acc) : List Acc :=
  accs.zipIdx.map (fun a => match l.find? (fun e => e.1 == a.2) with
    | some e => { a.1 with v := a.1.v - e.2 }
    | none => a.1)

/-- A retraction done: the values are subtracted, and an accumulator that no longer fits escapes (R245, R249, R256). -/
def subPacket (f : Nat) (l : List (Nat × Int)) (c : Chunk) : Chunk :=
  let es : List Elt := (List.range c.accs.length).map (fun i => { fin := ((l.find? (fun e => e.1 == i)).map (·.2)).getD 0 })
  { c with accs := escapes f c.anchors c.accs (subVals l c.accs) es }

/-- Cost of a packet in engine-cycles (R241). -/
def catCost (pk : Packet) : Nat := pk.payload.length / 64 - 1

/-- An accepted packet is to be retracted: the values of a SUM or AVG that it added wait for the reserved cycles (R256). -/
def Dev.catUndo (d : Dev) (k : Pkt) : Dev :=
  let g := d.refGroup k.pk
  let c := catChunk k.pk
  match d.chunk g c with
  | none => d
  | some ch =>
    match ch.taken.find? (fun t => t.pid == k.id) with
    | none => d
    | some t =>
      let (first, es, _) := d.packetElts k
      let undo := t.added && decide ((d.gt g).op < 2)
      let r : Retr := { ord := d.nextId, pid := k.id, vals := retrOf (d.gt g) first es, units := t.units }
      let d1 := ({ d with nextId := d.nextId + b2n undo } : Dev).onChunk g c (fun x => { x with
        taken := x.taken.filter (fun y => y.pid != k.id), retr := if undo then x.retr ++ [r] else x.retr })
      if undo then d1.add64 (ra 7 (0x400018 + 0x1000 * chunkDie g c)) 1 else d1

/-- Every direction's segments are all there: the partial is marked with its last segment (R276). -/
def segsDone (segs : List Seg) (dir : Nat) : Bool :=
  let l := segs.filter (fun s => s.dir == dir)
  match l with
  | [] => false
  | s :: _ => l.length == s.tot

/-- A packet both added and confirmed: flags are taken and the scoreboard is marked (R255, R276). -/
def Dev.catMark (d : Dev) (k : Pkt) : Dev :=
  let g := d.refGroup k.pk
  let c := catChunk k.pk
  let w := d.who k
  let (first, es, _) := d.packetElts k
  let fr : BitVec 16 := d.frm.no.setWidth 16
  let d1 := d.onChunk g c (fun x =>
    let y := confPacket (d.gt g) first es { x with taken := x.taken.filter (fun t => t.pid != k.id) }
    if w < 128 then { y with marks := y.marks ++ [(w, fr)] }
    else
      let (f1, cnt, no, tot, _) := segFields k.pk
      let segs := y.segs ++ [{ dir := w - 128, tot := tot, first := f1, cnt := cnt, sno := no,
                                keys := blockKeys (d.gt g).fmt (d.gt g).op k.pk }]
      { y with segs := segs, marks := if segsDone segs (w - 128) then y.marks ++ [(w, fr)] else y.marks })
  d1.rmPkt k.id

/-- Count a packet discarded under R236, R240 or R260. -/
def Dev.catDisc (d : Dev) (g c : Nat) : Dev := d.addSat (ra 7 (0x400038 + 0x1000 * chunkDie g c)) 1

/-- The outcome of a confirmed contribution or partial (R236, R240, R260, R261, R275). -/
def Dev.catConfirmed (d : Dev) (k : Pkt) : Dev :=
  let g := d.refGroup k.pk
  let c := catChunk k.pk
  let ln := catLaunch k.pk
  let added := match d.chunk g c with
    | some ch => ch.taken.any (fun t => t.pid == k.id && t.added)
    | none => false
  match d.catCheck k with
  | .off => (((d.catUndo k).catDisc g c).catFail g ln 0x11 g).rmPkt k.id
  | .bad r => (((d.catUndo k).catDisc g c).catFail g ln 0x12 (r * 4096 + g)).rmPkt k.id
  | .stale => (((d.catUndo k).add64 (ra 7 0x90) 1).raise 7 2 g).rmPkt k.id
  | .range => ((d.catUndo k).catFail g ln 4 (k.ing.getD 0)).rmPkt k.id
  | .dup => ((d.catUndo k).catFail g ln 0x13 g).rmPkt k.id
  | .full => d
  | .ok => if added then d.catMark k else d

/-- A packet that finds no room (R242); what befalls an unconfirmed one of class CORR waits for its confirmation (R71). -/
def Dev.catWait (d : Dev) (k : Pkt) : Dev :=
  let g := d.refGroup k.pk
  let kd := chunkDie g (catChunk k.pk)
  if k.pk.hdr.cls = 1 then
    let p := k.ing.getD 0
    (if k.conf then d.catFail g (catLaunch k.pk) 0x19 g else d).dropPkt k { cause := .catNoRoom, atOut := false, port := p }
  else if (d.drawn kd 3).1 = 0 then
    (d.setDrawn kd 3 (1, 0)).addSat (ra 7 (0x400030 + 0x1000 * kd)) 1
  else d

/-- A contribution or partial presents to its cluster (R241, R263, R264). -/
def Dev.catAdmit (d : Dev) (k : Pkt) : Dev :=
  let g := d.refGroup k.pk
  let c := catChunk k.pk
  let kd := chunkDie g c
  let n := catCost k.pk
  match d.catCheck k with
  | .full => d.catWait k
  | .ok =>
    let opened : Option Dev × Bool := match d.chunk g c with
      | some _ => (some d, false)
      | none => d.openChunk g c (d.launch g).d.launch
    match opened with
    | (none, busy) => (if busy then d.raiseOnce 0xFFFF 7 0x16 g else d).catWait k
    | (some d1, _) =>
      let spill := match d1.chunk g c with | some ch => ch.spill | none => false
      let corr := k.pk.hdr.cls == 1
      let got := if spill then d1.drawSpill kd n
        else match d1.drawFrom kd n corr true with
          | some x => some x
          | none => d1.drawFrom kd n corr false
      match got with
      | none => d1.catWait k
      | some d2 =>
        let d3 := (if spill then d2.spillDraw g c k.pk else d2).add64 (ra 7 ((if spill then 0x400028 else 0x400010) + 0x1000 * kd)) n
        let d4 := if k.conf then d3.sample (k.ing.getD 0) 0 k.arrived else d3
        (d4.onPkt k.id (fun x => { x with st := .taken })).onChunk g c (fun x =>
          { x with taken := x.taken ++ [{ pid := k.id, who := d.who k, units := n, acc := d.now }] })
  | _ => d

/-- The contenders of a cluster: contributions and partials at the head of their holds, which no drain keeps (R223, R241). -/
def Dev.catHead (d : Dev) (kd : Nat) (k : Pkt) : Bool :=
  (k.pk.hdr.op == 0x20 || k.pk.hdr.op == 0x21) && k.st == .engine && d.isHead k && ! d.kept k &&
    chunkDie (d.refGroup k.pk) (catChunk k.pk) == kd

/-- A round of a cluster, up to and including one packet's turn: its contenders are served in the order of R62 (R241). -/
def Dev.catRound (d : Dev) (k : Pkt) : Dev :=
  let l := d.tieOrder (d.pkts.filter (d.catHead (chunkDie (d.refGroup k.pk) (catChunk k.pk))))
  (l.take (l.findIdx (fun x => x.id == k.id) + 1)).foldl (fun (x : Dev) c =>
    match x.pkt c.id with
    | some y => x.catAdmit y
    | none => x) d

/-- Accumulators of a chunk change: the escapes are counted; where one in store finds no full record, its collective aborts and the chunk
is freed (R250); else `f` goes on. -/
def Dev.catEscape (d : Dev) (ch ch1 : Chunk) (f : Dev → Dev) : Dev :=
  let kd := chunkDie ch.g ch.c
  let n := (ch1.accs.filter (·.esc)).length - (ch.accs.filter (·.esc)).length
  if ! ch.spill ∧ d.freeRecs kd < n then (d.catFail ch.g ch.launch.toNat 0x15 (kd * 4096 + ch.g)).dropChunks (fun x => x.g == ch.g && x.c == ch.c)
  else f (if n = 0 then d else d.add64 (ra 7 (0x400020 + 0x1000 * kd)) n)

/-- An accepted packet's values are added (R243-R251, R265). -/
def Dev.catAccum (d : Dev) (k : Pkt) (uncorr : Bool) : Dev :=
  let g := d.refGroup k.pk
  let c := catChunk k.pk
  let kd := chunkDie g c
  match d.chunk g c with
  | none => d
  | some ch =>
    if ! ch.taken.any (fun t => t.pid == k.id && ! t.added) then d
    else if uncorr then
      (if ch.spill then d.catFail g ch.launch.toNat 0x17 g else d.catFail g ch.launch.toNat 0x18 (kd * 4096 + g))
    else
      let (first, es, sc) := d.packetElts k
      let ch1 := addPacket (d.gt g) first es sc ch
      d.catEscape ch ch1 (fun x =>
        let y := x.onChunk g c (fun _ => { ch1 with
          taken := ch1.taken.map (fun t => if t.pid = k.id then { t with added := true } else t) })
        if k.conf then y.catConfirmed k else y)

/-- Retractions pending in a cluster with the chunks they change, in the order of the stomps (R256). -/
def Dev.retrs (d : Dev) (kd : Nat) : List (Chunk × Retr) :=
  ((d.chunks.filter (fun c => chunkDie c.g c.c == kd)).flatMap (fun c => c.retr.map (fun r => (c, r)))).insertionSort
    (fun a b => a.2.ord ≤ b.2.ord)

/-- Perform the first pending retraction of a cluster, where the reserved cycles of the frame have room for it (R256). -/
def Dev.catRetract (d : Dev) (kd : Nat) : Dev :=
  match d.retrs kd with
  | [] => d
  | (ch, r) :: _ =>
    let used := (d.drawn kd 4).1
    if 96 < used + r.units then d
    else
      let ch1 := subPacket (d.gt ch.g).fmt r.vals ch
      d.catEscape ch ch1 (fun x => (x.setDrawn kd 4 (used + r.units, 0)).onChunk ch.g ch.c (fun y =>
        { y with accs := ch1.accs, retr := y.retr.filter (fun e => e != r) }))

/-- The end of a frame: what was accepted in time is added (R243), and the retractions that fit the frame's cycles are done (R256). -/
def Dev.catTick (d : Dev) : Dev :=
  let due (c : Chunk) (t : Taken) : Bool := ! t.added && decide (t.acc + (if c.spill then 7 else 1) ≤ d.now)
  let d1 := (d.chunks.flatMap (fun c => (c.taken.filter (due c)).map (·.pid))).foldl (fun (x : Dev) i =>
    match x.pkt i with
    | some k => x.catAccum k false
    | none => x) d
  (List.range 4).foldl (fun (x : Dev) kd => (List.range (x.retrs kd).length).foldl (fun (y : Dev) _ => y.catRetract kd) x) d1

/-- R258: every contributor marked, nothing unconfirmed or to be retracted. -/
def Dev.chunkReady (d : Dev) (ch : Chunk) : Bool :=
  let g := d.gt ch.g
  g.members.all (fun p => ch.marks.any (fun m => m.1 == p)) &&
  g.inDirs.all (fun x => ch.marks.any (fun m => m.1 == 128 + x)) &&
  ch.taken.isEmpty && ch.retr.isEmpty

/-! ## Emission (R259, R278) -/

/-- A chunk becomes EMITTED (R275, R278): its store is freed, LOW advances. -/
def advanceLow (fuel low : Nat) (above : List Nat) : Nat :=
  match fuel with
  | 0 => low
  | n + 1 => if low ∈ above then advanceLow n (low + 1) above else low

def Dev.emitted (d : Dev) (g c : Nat) : Dev :=
  let l := d.launch g
  let ab := c :: l.above
  let low := advanceLow ab.length l.low ab
  (d.setLaunch g { l with emitted := l.emitted + 1, low := low, above := ab.filter (fun x => decide (low ≤ x)) }).freeChunk g c

/-- Split the slots of a chunk into segments: as many as fit in `units` 64-byte units and 252 slots. Each is FIRST
and the slots' indices. -/
def splitSlots (units : Nat) : List (Nat × Bool) → Nat → Nat → List Nat → List (List Nat)
  | [], _, _, cur => if cur = [] then [] else [cur.reverse]
  | (i, esc) :: rest, n, nf, cur =>
    let nf1 := nf + b2n esc
    if cur ≠ [] ∧ (252 < n + 1 ∨ 64 * units < 16 * (n + 1) + 48 * nf1) then
      cur.reverse :: splitSlots units rest 1 (b2n esc) [i]
    else splitSlots units rest (n + 1) nf1 (i :: cur)

/-- The data of one segment. -/
def segData (f op : Nat) (ch : Chunk) (idx : List Nat) : List Byte × Nat :=
  let accs := idx.map (fun i => (i, ch.accs.getD i {}))
  let r := accs.foldl (fun (s : List Byte × List Byte × Nat) a =>
    let an := ch.anchors.getD (a.1 / 32) none
    (s.1 ++ leBytes 16 (slotOf f op an a.2 s.2.2),
     if a.2.esc then s.2.1 ++ recOf a.2 else s.2.1, s.2.2 + b2n a.2.esc)) (([] : List Byte), ([] : List Byte), 0)
  (r.1 ++ r.2.1, r.2.2)

/-- Send a completed chunk's slots as its partial (R259): each segment as large as the ports of OUT_DIR take. -/
def Dev.sendPartial (d : Dev) (ch : Chunk) : Dev :=
  let g := d.gt ch.g
  let tm := (d.group g.outDir).foldl (fun m p => min m (d.trainMax p)) 17
  let units := min 63 ((256 * tm - 24) / 64 - 1)
  let segs := splitSlots (max 1 units) (ch.accs.zipIdx.map (fun a => (a.2, a.1.esc))) 0 0 []
  let d1 := segs.zipIdx.foldl (fun (x : Dev) s =>
    let (data, nf) := segData g.fmt g.op ch s.1
    let op := unit64 [(0, 2, ch.g), (2, 2, ch.launch.toNat), (4, 4, ch.c), (8, 2, s.1.headD 0), (10, 2, s.1.length),
      (12, 1, s.2), (13, 1, segs.length), (14, 1, nf)]
    let n := x.nextId
    (x.originate (ownPkt x 0x21 2 g.slice g.catchId 0 (op ++ data)) (some g.outDir) none false).onPkt n
      (fun k => { k with use := .part ch.g ch.c })) d
  d1.onChunk ch.g ch.c (fun x => { x with emitting := true, left := segs.length })

/-- The last bit of a partial's segment has been copied to the replay buffer (R258). -/
def Dev.partSent (d : Dev) (g c : Nat) : Dev :=
  match d.chunk g c with
  | none => d
  | some ch => if ch.left ≤ 1 then d.emitted g c else d.onChunk g c (fun x => { x with left := x.left - 1 })

/-! ## Rounding a chunk (R252-R254) -/

/-- One result element of a format without shared scales. -/
def resElt (f op mt : Nat) (sat : Bool) (a : Acc) : ResE :=
  if 2 ≤ op then
    if a.nan then { enc := canonNan f, nan := true } else { enc := a.ext }
  else
    let den := if op = 1 then mt else 1
    if isInt f then roundI f sat a.v den
    else if a.nan ∨ (a.pinf ∧ a.ninf) then { enc := canonNan f, nan := true }
    else if a.pinf ∨ a.ninf then encInf f a.ninf
    else roundF f sat a.v den a.nzall

/-- ⌊log2 (n / d)⌋ for n, d above 0. -/
def floorLog2 (n d : Nat) : Int :=
  if d ≤ n then (Nat.log2 (n / d) : Int)
  else
    let k := Nat.log2 (cdiv d n)
    if 2 ^ k * n = d ∨ d ≤ 2 ^ k * n then - (k : Int) else - (k : Int) - 1

/-- One MX block (R253): its scale byte and elements. Values are n / den in units of the full form's LSB, which is
2^(-127) times the element format's smallest magnitude. -/
def resBlock (f op mt : Nat) (sat : Bool) (accs : List Acc) : Nat × List ResE :=
  let p := ffOf f
  let den := if op = 1 then mt else 1
  let vals : List (Int × Bool × Bool) := accs.map (fun a =>
    if 2 ≤ op then
      let e := eltOf f a.scale a.ext
      (e.fin, a.nan || e.pinf || e.ninf, e.negz)
    else (a.v, a.nan || a.pinf || a.ninf, a.nzall))
  let lsb : Int := if f = 5 then 9 else if f = 6 then 16 else 1
  let emax : Int := if f = 5 then 8 else if f = 6 then 15 else 2
  let top := vals.foldl (fun m v => max m v.1.natAbs) 0
  let nanBlock (ov : Bool) : Nat × List ResE :=
    (255, vals.map (fun v => { enc := 0, nan := true, ovf := ov, inexact := ! v.2.1 }))
  if vals.any (fun v => v.2.1) then nanBlock false
  else if top = 0 then (0, vals.map (fun v => { enc := encMag p v.2.2 0 }))
  else
    -- the exact value is n / den × 2^(-127-lsb)
    let x : Int := floorLog2 top den - 127 - lsb - emax
    let sb : Int := x + 127
    let quant (s : Nat) (ov : Bool) : List ResE := vals.map (fun v =>
      let n := v.1.natAbs
      let dd := den * 2 ^ s
      let neg := decide (v.1 < 0)
      let m := roundMag p n dd
      if n = 0 then { enc := encMag p v.2.2 0, ovf := ov }
      else if maxMag p < m then { enc := encMag p neg (maxMag p), inexact := true, ovf := ov }
      else { enc := encMag p neg m, inexact := decide (m * dd ≠ n), zloss := decide (m = 0), ovf := ov })
    if 254 < sb then (if sat then (254, quant 254 true) else nanBlock true)
    else if sb < 0 then (0, quant 0 false)
    else (sb.toNat, quant sb.toNat false)

/-- Blocks of 32. -/
def blocks32 (n : Nat) (l : List Acc) : List (List Acc) :=
  (List.range n).map (fun b => (l.drop (32 * b)).take 32)

/-- The result data of a chunk and its flags (R237, R238, R254). -/
def resultOf (g : GtE) (accs : List Acc) : List Byte × Nat :=
  let bits := (ffOf g.fmt).bits
  let fl (l : List ResE) : Nat :=
    b2n (l.any (·.ovf)) + 2 * b2n (l.any (·.nan)) + 4 * b2n (l.any (·.inexact)) + 8 * b2n (l.any (·.zloss))
  if isMx g.fmt then
    let bs := (blocks32 (nElts g / 32) accs).map (resBlock g.fmt g.op g.mTotal g.sat)
    let es := bs.flatMap (·.2)
    (packE bits (es.map (·.enc)) ++ padTo (64 * scaleUnits g.fmt g.units) (bs.map (fun b => BitVec.ofNat 8 b.1)), fl es)
  else
    let es := accs.map (resElt g.fmt g.op g.mTotal g.sat)
    (packE bits (es.map (·.enc)), fl es)

/-- A root hands a completed chunk's result over (R258, R279, R283). -/
def Dev.handover (d : Dev) (ch : Chunk) : Dev :=
  let g := d.gt ch.g
  let l := d.launch ch.g
  let (data, fl) := resultOf g ch.accs
  let op := unit64 [(0, 2, ch.g), (2, 2, ch.launch.toNat), (4, 4, ch.c), (8, 1, fl), (9, 1, g.fmt), (10, 1, g.op)]
  let cls := if l.d.resCorr then 1 else 2
  let d1 := d.originate (ownPkt d 0x22 cls g.slice l.d.resId (if l.d.resCorr then l.d.resCid else 0) (op ++ data))
    none none false
  let d2 := d1.emitted ch.g ch.c
  let l2 := d2.launch ch.g
  d2.setLaunch ch.g { l2 with deadline := d.fno + l.d.stepF, holdUsed := 0, copies := l2.copies + 1, flags := l2.flags ||| fl }

/-! ## Results, holds and aborts received (R280, R282, R284, R287) -/

/-- A confirmed CAT_RESULT this device handles as a recipient: counted, and relayed by a non-root (R280, R282). -/
def Dev.resultSeen (d : Dev) (k : Pkt) : Dev :=
  let g := catGroup k.pk % 0x1000
  let l := d.launch g
  let h := k.pk.hdr
  if l.st = .idle ∨ l.d.launch.toNat ≠ catLaunch k.pk ∨ k.ing.isNone then d
  else
    let e := d.dt h.dstId.toNat
    let here := (k.mcast && e.ty == 3) || (e.ty == 1 && e.coord == d.own)
    let d1 := if here then d.setLaunch g { l with copies := l.copies + 1, flags := l.flags ||| (leAt k.pk.payload 8 1 % 16) }
      else d
    let l1 := d1.launch g
    let c := catChunk k.pk
    if l1.st = .run ∧ (d.gt g).outDir ≠ 0 ∧ l1.d.resId ≠ 0 ∧ h.viaV ∧ h.dstId.toNat ≠ l1.d.resId ∧ c ∉ l1.relayed then
      let h2 := ownHdr d1 0x22 (if l1.d.resCorr then 1 else 2) h.slice.toNat l1.d.resId
        (if l1.d.resCorr then l1.d.resCid else 0) (h.len.toNat + 1)
      let pk : Packet := { hdr := h2, payload := k.pk.payload, tailRsv := 0, verdict := 0, crc := pktCrc h2 k.pk.payload, pad := [] }
      let n := d1.nextId
      let d2 := (d1.setLaunch g { l1 with relayed := c :: l1.relayed }).originate pk none none false
      d2.onPkt n (fun x => { x with rank := 1 })
    else d1

/-- A confirmed CAT_HOLD (R284). -/
def Dev.holdSeen (d : Dev) (k : Pkt) : Dev :=
  let g := d.refGroup k.pk
  let e := d.gt g
  let l := d.launch g
  let pl := k.pk.payload
  let ext := leAt pl 4 2
  let rel := (leAt pl 6 1).testBit 0
  let p := k.ing.getD 0
  let bad := l.st != .run || l.d.launch.toNat != leAt pl 2 2 || ext == 0 ||
    (! k.fromSw && ! e.members.contains p) || (rel && ! e.inDirs.contains (d.dir p)) || leAt pl 0 2 % 0x1000 != g
  let d0 := d.rmPkt k.id
  if bad then (d0.add64 (ra 7 0x90) 1).raise 7 2 g
  else if e.outDir ≠ 0 then
    d0.originate (ownPkt d0 0x23 0 e.slice e.catchId 0
      (unit64 [(0, 2, g), (2, 2, l.d.launch.toNat), (4, 2, ext), (6, 1, 1)])) (some e.outDir) none false
  else if l.holdUsed + ext ≤ l.d.holdCeil then
    d0.setLaunch g { l with deadline := l.deadline + ext, holdUsed := l.holdUsed + ext, holds := l.holds + ext }
  else (d0.raise 7 5 0).cause g (condWord 7 5 0) false

/-- A confirmed device-form CAT_ABORT (R287). -/
def Dev.abortSeen (d : Dev) (k : Pkt) : Dev :=
  let g := d.refGroup k.pk
  let l := d.launch g
  let pl := k.pk.payload
  let w := BitVec.ofNat 32 (leAt pl 4 4)
  let d0 := d.rmPkt k.id
  let held := l.st = .armed ∨ l.st = .run ∨ l.st = .aborting ∨ l.st = .done
  if ! (held ∧ l.d.launch.toNat = leAt pl 14 2) ∨ leAt pl 2 2 ≠ g then d0.add64 (ra 7 0x90) 1
  else d0.adopt g (leAt pl 8 6) w (some (d.dir (k.ing.getD 0))) true

/-- The abort frame: chunks freed, members notified, the record posted (R288-R290, R293). -/
def Dev.abortEnd (d : Dev) (g : Nat) : Dev :=
  let l := d.launch g
  match l.prop with
  | none => d
  | some (af, w) =>
    let e := d.gt g
    let word := abortWord w g af
    let d2 := (d.dropChunks (fun c => c.g == g)).setLaunch g { l with st := .aborted }
    let d3 := e.members.foldl (fun (x : Dev) p =>
      if x.isUp p then
        x.originate (ownPkt x 0x24 0 e.slice (x.fld (rp 7 0x100 p) 0 16) 0 (abortUnit w g af l.d.launch.toNat 0)) none none false
      else ({ x.wr64 (rp 7 0x108 p) word with pend := mapSet (0, 0) x.pend (2 * p) (af, l.d.launch.toNat) } : Dev).setBit (rp 7 0x100 p) 31 true) d2
    d3.postCat g word 5

/-- DONE (R282, R293). -/
def Dev.launchDone (d : Dev) (g : Nat) : Dev :=
  let l := d.launch g
  (d.setLaunch g { l with st := .done }).postCat g 0 4

/-- R282's two conditions. -/
def launchMet (l : Launch) : Bool := l.emitted == l.d.nchunk && (! l.d.resExpect || l.copies == l.d.nchunk)

/-- A launch in which a cause found at a boundary counts (R286). -/
def Dev.launchLive (d : Dev) (l : Launch) : Bool := l.st == .armed || l.st == .run || d.causeNow l

/-- Port `p` leaves UP: of the launches named, those that lose a member or the last port of a tree direction (R286). -/
def Dev.launchPort (d : Dev) (p : Nat) (gs : List Nat) : Dev :=
  gs.foldl (fun (x : Dev) g =>
    let e := x.gt g
    let t := x.dir p
    let y := if p ∈ e.members then (x.raise 7 6 p).cause g (condWord 7 6 p) false else x
    if t ≠ 0 ∧ (t = e.outDir ∨ t ∈ e.inDirs) ∧ (x.group t).all (fun q => q == p || ! x.isUp q) then
      (y.raise 7 7 t).cause g (condWord 7 7 t) false
    else y) d

/-- Causes found at a boundary: members down or fenced, tree groups without a port in UP (R286, R292). What a launch that another
cause of the frame ended has raised already is not raised again. -/
def Dev.launchCheck (d : Dev) (g : Nat) : Dev :=
  let l := d.launch g
  if ! d.launchLive l then d
  else
    let e := d.gt g
    let say (c : Nat) (x : Dev) (p : Nat) : Dev :=
      if l.st = .aborting ∧ condWord 7 c p ∈ x.words then x else (x.raise 7 c p).cause g (condWord 7 c p) false
    let dead := e.members.filter (fun p => ! d.isUp p)
    let dirs := (((if e.outDir = 0 then [] else [e.outDir]) ++ e.inDirs).filter (fun x => (d.group x).all (fun p => ! d.isUp p)))
    let fen := e.members.filter d.fenced
    let d1 := dead.foldl (say 6) d
    let d2 := dirs.foldl (say 7) d1
    fen.foldl (say 8) d2

end Sys2Proof.Machine
end

