-- ==== Sys2Proof/Machine/Coll.lean ====
section
/-! DEFINITION. The commands of Catchment and the collectives (families R234-R298). A command whose condition the rules
give does not hold leaves the state as it stands (log 2). -/

namespace Sys2Proof.Machine

/-- Run `f` on the packet with an id, where it is in the device and `ok` holds of it. -/
def Dev.onPacket (d : Dev) (id : Nat) (ok : Pkt → Bool) (f : Dev → Pkt → Dev) : Dev :=
  match d.pkt id with
  | some k => if ok k then f d k else d
  | none => d

/-- A packet of one OP that the engines hold. -/
def atEngine (op : Nat) (k : Pkt) : Bool := k.pk.hdr.op.toNat == op && (k.st == .engine || k.st == .taken)

/-- CAT_CONTRIB (R240): a confirmed contribution is checked against its group and launch. -/
def execCatContrib (id : Nat) (s : State) : Host.Outcome State Fault Refusal :=
  devStep (fun d => d.onPacket id (fun k => atEngine 0x20 k && k.conf) Dev.catConfirmed) s

/-- CAT_PARTIAL (R260). -/
def execCatPartial (id : Nat) (s : State) : Host.Outcome State Fault Refusal :=
  devStep (fun d => d.onPacket id (fun k => atEngine 0x21 k && k.conf) Dev.catConfirmed) s

/-- CLUSTER_ADMIT (R241): a head of its hold has its turn in its cluster's round, after the contenders before it (R62, R183). -/
def execClusterAdmit (id : Nat) (s : State) : Host.Outcome State Fault Refusal :=
  devStep (fun d => d.onPacket id (fun k => d.catHead (chunkDie (d.refGroup k.pk) (catChunk k.pk)) k) Dev.catRound) s

/-- ACCUMULATE (R244). -/
def execAccumulate (id : Nat) (uncorr : Bool) (s : State) : Host.Outcome State Fault Refusal :=
  devStep (fun d => d.onPacket id (fun k => (k.pk.hdr.op == 0x20 || k.pk.hdr.op == 0x21) && k.st == .taken)
    (fun x k => x.catAccum k uncorr)) s

/-- RETRACT (R256): the retraction of a stomped packet in the reserved cycles, where it is the first of its cluster. -/
def execRetract (id : Nat) (s : State) : Host.Outcome State Fault Refusal :=
  devStep (fun d => (List.range 4).foldl (fun (x : Dev) kd =>
    if ((x.retrs kd).head?.map (fun e => e.2.pid)) = some id then x.catRetract kd else x) d) s

/-- CHUNK_COMPLETE (R258, R276). -/
def execChunkComplete (g : BitVec 12) (c : BitVec 32) (s : State) : Host.Outcome State Fault Refusal :=
  devStep (fun d => match d.chunk g.toNat c.toNat with
    | some ch =>
      if d.chunkReady ch then d.onChunk g.toNat c.toNat (fun x => { x with complete := true }) else d
    | none => d) s

/-- PARTIAL_EMIT (R259): only in RUN, once. -/
def execPartialEmit (g : BitVec 12) (c : BitVec 32) (s : State) : Host.Outcome State Fault Refusal :=
  devStep (fun d => match d.chunk g.toNat c.toNat with
    | some ch =>
      if ch.complete && ! ch.emitting && (d.launch g.toNat).st == .run && (d.gt g.toNat).outDir != 0
      then d.sendPartial ch else d
    | none => d) s

/-- RESULT_HANDOVER (R279): in RUN; a result handed over in ABORTING is discarded. -/
def execResultHandover (g : BitVec 12) (c : BitVec 32) (s : State) : Host.Outcome State Fault Refusal :=
  devStep (fun d => match d.chunk g.toNat c.toNat with
    | some ch =>
      if ch.complete && (d.launch g.toNat).st == .run && (d.gt g.toNat).outDir == 0 then d.handover ch else d
    | none => d) s

/-- The launch descriptor in CAT_LD_0 to CAT_LD_5 (R271). -/
def Dev.ldesc (d : Dev) : LDesc :=
  let w (k : Nat) := d.rd (ra 7 (0x40 + 4 * k))
  { resCid := Machine.fld (w 5) 19 12, resExpect := Machine.bit (w 5) 18, resCorr := Machine.bit (w 5) 17
    resId := Machine.fld (w 5) 0 16, holdCeil := Machine.fld (w 4) 16 16, abortLead := Machine.fld (w 4) 8 8
    treeSpan := Machine.fld (w 4) 0 6, stepF := Machine.fld (w 3) 16 16
    start := Machine.fld (w 3) 0 16 * 2 ^ 32 + (w 2).toNat, nchunk := (w 1).toNat
    launch := BitVec.ofNat 16 (Machine.fld (w 0) 16 16), group := Machine.fld (w 0) 0 12 }

/-- RES_ID is acceptable (R272 reason 8h). -/
def Dev.resOk (d : Dev) (l : LDesc) : Bool :=
  let e := d.dt l.resId
  let g := d.gt l.group
  let root := g.outDir == 0
  if l.resId = 0 then ! root
  else
    ((e.ty == 3 && (d.mt (e.ref % 0x2000)).root == d.own) || (root && e.ty == 1)) &&
    e.slice == g.slice && (! l.resCorr || e.ty == 1)

/-- The first reason that refuses a GO (R272). -/
def Dev.launchRefusal (d : Dev) (src : Src) (l : LDesc) : Option Nat :=
  let cur := d.launch l.group
  if src ≠ .obvo then some 1
  else if ! d.gtOn l.group then some 2
  else if cur.st = .armed ∨ cur.st = .run ∨ cur.st = .aborting then some 3
  else if cur.d.nchunk ≠ 0 ∧ cur.d.launch = l.launch then some 4
  else if l.start < d.fno + 2 then some 5
  else if d.fno + 2 ^ 20 < l.start then some 6
  else if l.nchunk = 0 ∨ l.stepF = 0 ∨ l.abortLead < 3 * l.treeSpan + 4 then some 7
  else if ! d.resOk l then some 8
  else if ! d.aligned then some 9
  else none

/-- A GO of CAT_LAUNCH_CTL (R272). -/
def Dev.launchGo (d : Dev) (src : Src) : Dev :=
  let l := d.ldesc
  match d.launchRefusal src l with
  | some r => d.raise 7 1 (r * 4096 + l.group)
  | none => d.setLaunch l.group { st := .armed, d := l }

/-- An ABORT of CAT_LAUNCH_CTL for a group (R272, R286). -/
def Dev.launchAbort (d : Dev) (src : Src) (g : Nat) : Dev :=
  let st := (d.launch g).st
  if src ≠ .obvo then d.raise 7 1 (0x1000 + g)
  else if st ≠ .armed ∧ st ≠ .run then d.raise 7 1 (0xA000 + g)
  else (d.raise 7 0xC 0).cause g (condWord 7 0xC 0) false

/-- A write of CAT_LAUNCH_CTL: GROUP is set, then GO, then ABORT. -/
def Dev.writeLaunchCtl (d : Dev) (src : Src) (v : Word) : Dev :=
  let d0 := d.wr (ra 7 0x58) (v &&& 0xFFF)
  let d1 := if Machine.bit v 31 then d0.launchGo src else d0
  if Machine.bit v 30 then d1.launchAbort src (Machine.fld v 0 12) else d1

/-- LAUNCH_START (R273, R283): at the boundary of START. -/
def execLaunchStart (g : BitVec 12) (s : State) : Host.Outcome State Fault Refusal :=
  devStep (fun d =>
    let l := d.launch g.toNat
    if l.st = .armed ∧ l.d.start ≤ d.fno then
      d.setLaunch g.toNat { l with
        st := .run, deadline := if (d.gt g.toNat).outDir = 0 then l.d.start + l.d.stepF else 0 }
    else d) s

/-- LAUNCH_DONE (R282, R293). -/
def execLaunchDone (g : BitVec 12) (s : State) : Host.Outcome State Fault Refusal :=
  devStep (fun d =>
    let l := d.launch g.toNat
    if l.st = .run ∧ launchMet l then d.launchDone g.toNat else d) s

/-- STEP_TIMEOUT (R283): the root in RUN at the boundary of DEADLINE. -/
def execStepTimeout (g : BitVec 12) (s : State) : Host.Outcome State Fault Refusal :=
  devStep (fun d =>
    let l := d.launch g.toNat
    if (l.st = .run ∨ (d.causeNow l ∧ l.deadline ≠ 0)) ∧ (d.gt g.toNat).outDir = 0 ∧ l.deadline ≤ d.fno then
      (d.raise 7 3 0).cause g.toNat (condWord 7 3 0) false
    else d) s

/-- CAT_HOLD (R284). -/
def Dev.catHoldAct (d : Dev) (id : Nat) : Dev := d.onPacket id (fun k => atEngine 0x23 k && k.conf) Dev.holdSeen

/-- CAT_HOLD: a confirmed HOLD waits for the boundary (R55, R71). -/
def execCatHold (id : Nat) (s : State) : Host.Outcome State Fault Refusal := .next (s.wait (.catHold id))

/-- CAT_RESULT (R280, R282): a confirmed result copy is counted and relayed once; its replication is its admission. -/
def execCatResult (id : Nat) (s : State) : Host.Outcome State Fault Refusal :=
  devStep (fun d => d.onPacket id (fun k => k.pk.hdr.op == 0x22 && k.conf && k.rank == 0) (fun x k =>
    let y := x.resultSeen k
    if k.st = .accepted then y.rmPkt k.id else y.onPkt k.id (fun q => { q with rank := 1 }))) s

/-- CAT_ABORT (R287): a confirmed device-form proposal; FORM 00h has no meaning at a device. -/
def Dev.catAbortAct (d : Dev) (id : Nat) : Dev := d.onPacket id (fun k => atEngine 0x24 k && k.conf) Dev.abortSeen

/-- CAT_ABORT: a confirmed proposal waits for the boundary (R55, R71). -/
def execCatAbort (id : Nat) (s : State) : Host.Outcome State Fault Refusal := .next (s.wait (.catAbort id))

/-- ABORT_FRAME (R288): in frame AF. -/
def execAbortFrame (g : BitVec 12) (s : State) : Host.Outcome State Fault Refusal :=
  devStep (fun d =>
    let l := d.launch g.toNat
    match l.prop with
    | some (af, _) => if l.st = .aborting ∧ af ≤ d.fno then d.abortEnd g.toNat else d
    | none => d) s

end Sys2Proof.Machine
end

