-- ==== Sys2Proof/Machine/Fan.lean ====
section
/-! DEFINITION. Fan (R299-R331): rounds, dispatch, capacity, outputs, the combine and aborts. Accumulators are exact
integers in units of 2^-298 (R318). -/

namespace Sys2Proof.Machine

/-! ## Rounds -/

def Dev.rnd (d : Dev) (r : Nat) : Round := mapGet {} d.rounds r
def Dev.setRnd (d : Dev) (r : Nat) (v : Round) : Dev := { d with rounds := mapSet {} d.rounds r v }
def Dev.onRnd (d : Dev) (r : Nat) (f : Round → Round) : Dev := d.setRnd r (f (d.rnd r))

/-- The slot, among those whose state satisfies `ok`, that holds a round ID. -/
def Dev.slotOfRound (d : Dev) (id : Nat) (ok : RoundSt → Bool) : Option Nat :=
  (List.range 16).find? (fun r => ok (d.rnd r).st && (d.rnd r).d.round == id)

def rsLive (s : RoundSt) : Bool := s == .armed || s == .open || s == .closed
def rsRun (s : RoundSt) : Bool := s == .open || s == .closed

/-- END and RANK of a round (R299). -/
def rdEnd (x : RDesc) : Nat := x.close + x.endLag
def rdRank (x : RDesc) : Nat := x.close + x.rankLag

/-- Device index (R299). -/
def Dev.devIndex (d : Dev) : Nat := cdim d.own 0 + d.kx * (cdim d.own 1 + d.ky * cdim d.own 2)

/-- The round descriptor in FAN_RD_0 to FAN_RD_7 (R299). -/
def Dev.rdesc (d : Dev) : RDesc :=
  let n := (List.range 8).foldl (fun a w => a + (d.rd (ra 8 (0x40 + 4 * w))).toNat * 2 ^ (32 * w)) 0
  let f (lo len : Nat) : Nat := n / 2 ^ lo % 2 ^ len
  { devmask := f 192 64, endLag := f 176 16, rankLag := f 160 16, close := f 112 48, start := f 64 48
    abortLead := f 56 8, qregion := f 40 12, units := f 32 6, vfmt := f 28 4, sparseOk := n.testBit 27
    gfmt := n.testBit 26, sat := n.testBit 25, ranked := n.testBit 24, slice := BitVec.ofNat 8 (f 16 8), round := f 0 16 }

/-- The first reason that refuses a GO (R300). -/
def Dev.roundRefusal (d : Dev) (src : Src) (x : RDesc) : Option Nat :=
  let reg := d.rt x.qregion
  if src ≠ .obvo then some 1
  else if (List.range 16).all (fun r => rsLive (d.rnd r).st || (d.rnd r).st == .aborting) then some 2
  else if (d.slotOfRound x.round (fun s => rsLive s || s == .aborting)).isSome then some 3
  else if x.start < d.fno + 2 then some 4
  else if d.fno + 2 ^ 20 < x.start then some 5
  else if x.round = 0 ∨ x.close ≤ x.start ∨ x.endLag = 0 ∨ (x.ranked ∧ (x.rankLag = 0 ∨ x.endLag ≤ x.rankLag)) ∨
      x.units = 0 ∨ 4 < x.vfmt ∨ ! d.bit (ra 8 0) x.vfmt ∨ ! x.devmask.testBit d.devIndex ∨
      x.abortLead < 3 * (d.kx / 2 + d.ky / 2 + d.kz / 2) + 4 then some 6
  else if ! reg.valid ∨ reg.purpose ≠ 0 ∨ reg.slice ≠ x.slice.toNat then some 7
  else if x.slice = 0 ∨ ! d.sliceOn x.slice.toNat then some 8
  else if ! d.aligned then some 9
  else none

/-- A GO of FAN_ROUND_CTL (R300): the lowest free slot enters ARMED with its counters at 0. -/
def Dev.roundGo (d : Dev) (src : Src) : Dev :=
  let x := d.rdesc
  match d.roundRefusal src x with
  | some n => d.raise 8 1 (n * 4096 + x.round % 4096)
  | none =>
    match (List.range 16).find? (fun r => ! (rsLive (d.rnd r).st || (d.rnd r).st == .aborting)) with
    | some r => d.setRnd r { st := .armed, d := x }
    | none => d

/-! ## Aborts (R324-R326) -/

/-- Adopt a proposal when none is held or it is lower; one of the device's own is sent to every other device of
DEVMASK (R325). -/
def Dev.fanAdopt (d : Dev) (r af : Nat) (w : Word) (foreign : Bool) : Dev :=
  let x := d.rnd r
  let lower := match x.prop with
    | none => true
    | some (a, y) => decide (af < a ∨ (af = a ∧ w.toNat < y.toNat))
  if ! lower then d
  else
    let d1 := d.setRnd r { x with prop := some (af, w), st := .aborting }
    if foreign then d1.raise 8 0xA x.d.round
    else
      ((List.range 64).filter (fun i => x.d.devmask.testBit i && i != d.devIndex)).foldl (fun y i =>
        y.send 0x40 0 0 (y.fld (ra 8 (0x600000 + 4 * i)) 0 16) 0
          (unit64 [(0, 1, 8), (1, 1, 1), (2, 2, x.d.round), (4, 4, w.toNat), (8, 6, af)])) d1

/-- The slot became ABORTING by a cause of this very frame: its other causes of the frame count too (R325, log 81). -/
def Dev.fanNow (d : Dev) (x : Round) : Bool :=
  x.st == .aborting && x.prop.map (·.1) == some (d.fno + x.d.abortLead)

/-- The slot of a round in which a cause counts. -/
def Dev.slotCause (d : Dev) (id : Nat) : Option Nat :=
  (List.range 16).find? (fun r => (rsRun (d.rnd r).st || d.fanNow (d.rnd r)) && (d.rnd r).d.round == id)

/-- An abort cause of a slot in ARMED, OPEN or CLOSED (R324); of the causes of one frame the lowest is adopted (R325). -/
def Dev.fanCause (d : Dev) (r : Nat) (w : Word) : Dev :=
  let x := d.rnd r
  if rsLive x.st || d.fanNow x then d.fanAdopt r (d.fno + x.d.abortLead) w false else d

/-- Raise a FAN condition that aborts a slot's round (R324, R330). -/
def Dev.fanFail (d : Dev) (r c det : Nat) : Dev := (d.raise 8 c det).fanCause r (condWord 8 c det)

/-- DETAIL with a reason (R330). -/
def fanDet (reason round : Nat) : Nat := reason * 4096 + round % 4096

/-- An ABORT of FAN_ROUND_CTL (R300). -/
def Dev.roundAbort (d : Dev) (src : Src) (id : Nat) : Dev :=
  if src ≠ .obvo then d.raise 8 1 (0x1000 + id % 4096)
  else
    match d.slotOfRound id rsLive with
    | none => d.raise 8 1 (0xA000 + id % 4096)
    | some r => d.fanFail r 0xB id

/-- A write of FAN_ROUND_CTL: ROUND is set, then GO, then ABORT. -/
def Dev.writeRoundCtl (d : Dev) (src : Src) (v : Word) : Dev :=
  let d0 := d.wr (ra 8 0x60) (v &&& 0xFFFF)
  let d1 := if Machine.bit v 31 then d0.roundGo src else d0
  if Machine.bit v 30 then d1.roundAbort src (Machine.fld v 0 16) else d1

/-- A stale packet of a round: counted, raised (R306, R316, R326). -/
def Dev.fanStale (d : Dev) (id : Nat) : Dev := (d.add64 (ra 8 0x70) 1).raise 8 2 id

/-- Post a completion record (R327). -/
def Dev.postFan (d : Dev) (r word st : Nat) : Dev :=
  let x := d.rnd r
  d.event 3 (leBytes 8 word ++ leBytes 2 x.d.round ++ leBytes 6 d.fno ++ leBytes 1 st ++ zeros 3 ++ leBytes 4 x.combined ++
    leBytes 4 x.dropped ++ leBytes 4 x.redirected)

/-- A FAN_NOTICE (R322). -/
def Dev.fanNotice (d : Dev) (slice dst round token kind pos expert reason : Nat) : Dev :=
  d.send 0x34 0 slice dst 0
    (unit64 [(0, 2, round), (2, 4, token), (6, 1, kind), (7, 1, pos), (8, 2, expert), (10, 1, reason)])

/-- The abort frame (R326). -/
def Dev.fanAbortEnd (d : Dev) (r : Nat) : Dev :=
  let x := d.rnd r
  match x.prop with
  | none => d
  | some (af, w) =>
    let word := abortWord w x.d.round af
    let d1 := { d with pkts := d.pkts.filter (fun (k : Pkt) => ! (k.use == Use.copy r && k.st == PkSt.hold)) }
    let d2 := d1.setRnd r { x with st := .aborted, combos := [], copies := [] }
    let sl := x.d.slice.toNat
    let ports := d.validPorts.filter (fun p => d.dir p == 0 && d.sliceHas sl p)
    let d3 := ports.foldl (fun (y : Dev) p =>
      if y.isUp p then
        y.send 0x34 0 sl (y.fld (rp 7 0x100 p) 0 16) 0
          (unit64 [(0, 2, x.d.round), (6, 1, 3), (16, 8, word), (24, 6, af)])
      else ({ y.wr64 (rp 8 0x100 p) word with pend := mapSet (0, 0) y.pend (2 * p + 1) (af, sl) } : Dev).setBit (rp 8 0x108 p) 0 true) d2
    d3.postFan r word 6

/-! ## Reading packets (R305, R308) -/

def fanRound (pk : Packet) : Nat := leAt pk.payload 0 2
def fanToken (pk : Packet) : Nat := leAt pk.payload 2 4
def fanSrc (pk : Packet) : BitVec 16 := BitVec.ofNat 16 (leAt pk.payload 6 2)
def fanExpert (pk : Packet) : Nat := leAt pk.payload 8 2 % 2 ^ 14
def fanPos (pk : Packet) : Nat := leAt pk.payload 10 1
def fanFlag (pk : Packet) (i : Nat) : Bool := (leAt pk.payload 11 1).testBit i

/-- K, and the experts and gates of a dispatch. -/
def dispK (pk : Packet) : Nat := leAt pk.payload 6 1 % 16
def dispExperts (pk : Packet) : List Nat := (List.range (dispK pk)).map (fun i => leAt pk.payload (8 + 2 * i) 2 % 2 ^ 14)
def dispGates (pk : Packet) : List Nat := (List.range (dispK pk)).map (fun i => leAt pk.payload (24 + 4 * i) 4)

/-- The data of a packet is valid: SPARSE and BITMAP allowed, and the length what they give (R305, R306, R315). -/
def fanDataOk (x : RDesc) (pk : Packet) (sparse : Bool) : Bool :=
  let bm := leAt pk.payload 56 8
  (! sparse || x.sparseOk) && decide (bm < 2 ^ x.units) &&
  pk.payload.length == 64 + 64 * (if sparse then popCount x.units bm else x.units)

/-- R306 rows 2 to 4 for slot `r`: what a dispatch fails with. -/
inductive DispChk where
  | ok (r : Nat)
  | stale
  | bad (r reason : Nat)
  | dup (r : Nat)
  deriving DecidableEq, Repr

/-- R306: the first test that fails. -/
def Dev.dispCheck (d : Dev) (k : Pkt) : DispChk :=
  let pl := k.pk.payload
  let id := fanRound k.pk
  match d.slotOfRound id (· == .open) with
  | none => .stale
  | some r =>
    let x := d.rnd r
    let n := dispK k.pk
    let ex := dispExperts k.pk
    let sparse := (leAt pl 7 1).testBit 0
    let rsv := decide (16 ≤ leAt pl 6 1) || decide (2 ≤ leAt pl 7 1) ||
      (List.range 8).any (fun i => if i < n then decide (2 ^ 14 ≤ leAt pl (8 + 2 * i) 2) ||
          (! x.d.gfmt && ! zeroAt pl (26 + 4 * i) 2)
        else ! zeroAt pl (8 + 2 * i) 2 || ! zeroAt pl (24 + 4 * i) 4)
    let set := (d.dt k.pk.hdr.dstId.toNat).ref
    if k.pk.hdr.slice ≠ x.d.slice then .stale
    else if n = 0 ∨ 8 < n ∨ ¬ ex.Nodup ∨ rsv ∨ ! fanDataOk x.d k.pk sparse then .bad r 1
    else if ex.any (fun e => ! (d.et e).valid || (d.et e).set != set) then .bad r 2
    else if x.combos.any (fun c => some c.port == k.ing && c.token == fanToken k.pk) then .dup r
    else .ok r

/-- The outcome of a failed test (R306). -/
def Dev.dispFail (d : Dev) (k : Pkt) (c : DispChk) : Dev :=
  let id := fanRound k.pk
  match c with
  | .ok _ => d
  | .stale => ((d.fanStale id).fanNotice k.pk.hdr.slice.toNat k.pk.hdr.srcId.toNat id (fanToken k.pk) 2 0 0 0).rmPkt k.id
  | .bad r n => (d.fanFail r 4 (fanDet n id)).rmPkt k.id
  | .dup r => (d.fanFail r 6 id).rmPkt k.id

/-! ## Copies (R308-R314) -/

/-- The port of an expert on the device its endpoint attaches to. -/
def Dev.xport (d : Dev) (e : Nat) : Nat := (d.dt (d.et e).epId).ref % 128
def Dev.xhere (d : Dev) (e : Nat) : Bool := (d.dt (d.et e).epId).coord == d.own

/-- R309. -/
def Dev.xavail (d : Dev) (e : Nat) : Bool := d.isUp (d.xport e) && ! d.fenced (d.xport e)

/-- Tokens admitted in the window of the current frame. -/
def Dev.xcnt (d : Dev) (e : Nat) : Nat := mapGet 0 d.xcount e
def Dev.setXcnt (d : Dev) (e n : Nat) : Dev := { d with xcount := mapSet 0 d.xcount e n }

/-- The packet of a copy for expert `e`, with its flags. A copy received from another device keeps its CRC: no device recomputes it
(R149, log 91). -/
def Dev.copyPk (d : Dev) (pk : Packet) (e : Nat) (redir defer : Bool) : Packet :=
  let fl := leAt pk.payload 11 1
  let pl := putAt (putAt pk.payload 8 2 e) 11 1 (fl % 2 + 2 * b2n redir + 4 * b2n defer)
  let h := { pk.hdr with dstId := BitVec.ofNat 16 (d.et e).epId }
  { pk with hdr := h, payload := pl, crc := if h.srcId = d.devId then pktCrc h pl else pk.crc }

/-- The output of a copy for a local expert. -/
def Dev.copyTgt (d : Dev) (e : Nat) : List Tgt := [{ port := some (d.xport e), dir := 0, vc := vcOf 2 0 0 }]

/-- Put a copy before output admission at its expert's port: one that waits at the head of its hold stays there (R310). -/
def Dev.copyOut (d : Dev) (r : Nat) (k : Copy) : Dev :=
  let pk := d.copyPk k.pk k.expert k.redirected k.deferredF
  let tgts := d.copyTgt k.expert
  let d1 := match k.hold with
    | some id => d.onPkt id (fun y => { y with pk := pk, arr := some (y.arr.getD y.pk.hdr), tgts := tgts, use := .copy r, st := .hold })
    | none => d.addPkt { id := 0, ing := none, pk := pk, conf := true, tgts := tgts, use := .copy r, since := d.now }
  d1.onRnd r (fun x => { x with admitted := (d.xport k.expert) :: x.admitted.filter (· != d.xport k.expert) })

/-- A copy leaves its hold: discarded, or accepted into QREGION and sampled (R192). -/
def Dev.copyGone (d : Dev) (k : Copy) : Dev := match k.hold with | some id => d.rmPkt id | none => d
def Dev.copyTaken (d : Dev) (k : Copy) : Dev :=
  match k.hold.bind d.pkt with
  | some y => (d.sample (y.ing.getD 0) 0 y.arrived).rmPkt y.id
  | none => d

/-- Copies QREGION holds, and whether a write to it succeeds: its 4,608-byte records have room (DESIGN CHOICE, log 15) and
no stack is in FAULT. -/
def Dev.qHeld (d : Dev) (q : Nat) : Nat :=
  ((d.rounds.filter (fun r => r.2.d.qregion == q)).map (fun r => r.2.copies.length)).sum
def Dev.qFull (d : Dev) (q : Nat) : Bool := decide ((d.rt q).size / 4608 ≤ d.qHeld q)
def Dev.qFails (d : Dev) : Bool := d.hbms.any (· == .fault)

/-- The accesses that a copy's record in QREGION takes (R344; log 16). -/
def Dev.qDraw (d : Dev) (r : Nat) (k : Copy) : Dev :=
  let q := (d.rnd r).d.qregion
  d.drawUnits ((d.rt q).base + 4608 * d.qHeld q) (64 + 256 * cellsOfPkt k.pk.hdr)

/-- Copies held in the rank index of a die. -/
def Dev.rankHeld (d : Dev) (k : Nat) : Nat :=
  (d.rounds.map (fun r => (r.2.copies.filter (fun c => c.st == .held && d.owner (d.xport c.expert) == k)).length)).sum

/-- A copy is discarded with a DROPPED notice that names the expert dispatched to (R312). -/
def Dev.copyDrop (d : Dev) (r : Nat) (k : Copy) (reason : Nat) : Dev :=
  let x := d.rnd r
  ((d.copyGone k).setRnd r { x with dropped := x.dropped + 1 }).fanNotice x.d.slice.toNat k.src.toNat x.d.round k.token 1 k.pos k.first reason

/-- The expert takes one more copy in the window of the current frame (R310). -/
def Dev.xroom (d : Dev) (e : Nat) : Bool := d.xavail e && decide (d.xcnt e < (d.et e).cap)

/-- The copy is admitted (R310). -/
def Dev.copyAdmit (d : Dev) (r : Nat) (k : Copy) : Dev := (d.setXcnt k.expert (d.xcnt k.expert + 1)).copyOut r k

/-- A copy as its packet brings it; `hold` names one that waits in its hold. -/
def copyOf (pk : Packet) (ing : Nat) (hold : Option Nat := none) : Copy :=
  { expert := fanExpert pk, first := fanExpert pk, token := fanToken pk, src := fanSrc pk, pos := fanPos pk, ing := ing
    pk := pk, hold := hold, st := .held }

/-- Confirmed copies that contend for an expert in ARRIVAL mode, in the order of R62 (R310): at the head of their holds, kept by no
drain. -/
def Dev.copyConts (d : Dev) (e : Nat) : List Pkt :=
  d.tieOrder (d.pkts.filter (fun k => k.pk.hdr.op == 0x31 && k.st == .engine && k.conf && d.isHead k && ! d.kept k && fanExpert k.pk == e &&
    (d.et e).valid && (d.et e).epId == k.pk.hdr.dstId.toNat &&
    (match d.slotOfRound (fanRound k.pk) rsRun with | some r => ! (d.rnd r).d.ranked | none => false)))

/-- A copy's turn in ARRIVAL mode (R310, R312): admitted, or overflowing by its expert's POLICY. One that is redirected is offered to its
fallback after the fallback's own contenders, those in `busy`, whose turn this is, apart; `n` bounds how often that goes on. -/
def Dev.copyTurn : Nat → List Nat → Dev → Nat → Copy → Dev
  | 0, _, d, _, _ => d
  | n + 1, busy, d, r, k =>
    let e := d.et k.expert
    if d.xroom k.expert then d.copyAdmit r k
    else
      match e.policy with
      | 1 =>
        let now := k.hold.toList ++ busy
        let d1 := ((d.copyConts e.fallback).filter (fun j => ! now.contains j.id)).foldl (fun (x : Dev) j =>
          match x.slotOfRound (fanRound j.pk) rsRun with
          | some q => if (x.pkt j.id).any (fun y => y.st == .engine) then Dev.copyTurn n now x q (copyOf j.pk (j.ing.getD 128) (some j.id)) else x
          | none => x) d
        let d2 := d1.onRnd r (fun x => { x with redirected := x.redirected + 1 })
        let k1 := { k with expert := e.fallback, redirected := true }
        if d2.xroom e.fallback then d2.copyAdmit r k1 else d2.copyDrop r k1 3
      | 2 =>
        if d.qFull (d.rnd r).d.qregion ∨ d.qFails then d.copyDrop r k 4
        else ((d.qDraw r k).copyTaken k).onRnd r (fun x => { x with
          deferred := x.deferred + 1
          copies := x.copies ++ [{ k with st := .deferred, deferredF := true, hold := none }] })
      | _ => d.copyDrop r k (if d.xavail k.expert then 1 else 2)

/-- A copy in RANKED mode before RANK (R311). -/
def Dev.copyHold (d : Dev) (r : Nat) (k : Copy) : Dev :=
  let x := d.rnd r
  let id := x.d.round
  if rdRank x.d ≤ d.fno then (d.copyGone k).fanFail r 8 id
  else if d.qFull x.d.qregion ∨ d.qFails ∨ 32768 ≤ d.rankHeld (d.owner (d.xport k.expert)) then (d.copyGone k).fanFail r 9 id
  else ((d.qDraw r k).copyTaken k).onRnd r (fun y => { y with copies := y.copies ++ [{ k with hold := none }] })

/-- A copy of the device's own dispatch is handed over in the round (R307; log 91). -/
def Dev.copyHandle (d : Dev) (r : Nat) (k : Copy) : Dev :=
  if (d.rnd r).d.ranked then d.copyHold r k else d.copyTurn (d.pkts.length + 1) [] r k

/-- FAN_COPY at the slice of its port (R308, R310, R326): in ARRIVAL mode it has its turn after the contenders before it (R62). -/
def Dev.fanCopy (d : Dev) (k : Pkt) : Dev :=
  let id := fanRound k.pk
  let e := fanExpert k.pk
  let me (j : Pkt) : Copy := copyOf j.pk (j.ing.getD 128) (some j.id)
  match d.slotOfRound id rsRun with
  | none => (d.fanStale id).rmPkt k.id
  | some r =>
    if ! (d.et e).valid ∨ (d.et e).epId ≠ k.pk.hdr.dstId.toNat then (d.fanFail r 4 (fanDet 3 id)).rmPkt k.id
    else if (d.rnd r).d.ranked then d.copyHold r (me k)
    else
      let l := d.copyConts e
      if ! l.any (fun j => j.id == k.id) then d
      else
        (l.take (l.findIdx (fun j => j.id == k.id) + 1)).foldl (fun (x : Dev) j =>
          match x.slotOfRound (fanRound j.pk) rsRun with
          | some q => if (x.pkt j.id).any (fun y => y.st == .engine) then x.copyTurn (d.pkts.length + 1) [] q (me j) else x
          | none => x) d

/-! ## Acceptance of a dispatch (R307) -/

/-- The FAN_COPY of position `i` (R308). -/
def Dev.mkCopy (d : Dev) (k : Pkt) (i e : Nat) : Packet :=
  let pl := k.pk.payload
  let u := unit64 [(0, 2, leAt pl 0 2), (2, 4, leAt pl 2 4), (6, 2, k.pk.hdr.srcId.toNat), (8, 2, e), (10, 1, i),
    (11, 1, leAt pl 7 1 % 2), (56, 8, leAt pl 56 8)]
  ownPkt d 0x31 2 k.pk.hdr.slice.toNat (d.et e).epId 0 (u ++ pl.drop 64)

/-- The first step of one copy: none where it is not granted. -/
def Dev.copyStep (d : Dev) (r : Nat) (pk : Packet) (e : Nat) : Option Dev :=
  if d.xhere e then some (d.copyHandle r (copyOf pk 128))
  else
    let n := d.nextId
    let d1 := d.originate pk none none false
    match d1.pkt n with
    | none => none
    | some k =>
      let (d2, ok) := d1.offer 0 k
      if ok then some d2 else none

/-- A dispatch that passes R306 presents: accepted with all its copies in one round, or it stays (R307). -/
def Dev.dispAdmit (d : Dev) (k : Pkt) : Dev :=
  match d.dispCheck k with
  | .ok r =>
    let x := (d.rnd r).d
    let n := x.units * perUnit x.vfmt
    let p := k.ing.getD 0
    let ex := dispExperts k.pk
    if d.freeSlots (d.owner p) < n then d
    else
      let c : Combo :=
        { port := p, token := fanToken k.pk, src := k.pk.hdr.srcId, experts := ex, gates := dispGates k.pk
          pos := ex.map (fun _ => .waiting), accs := List.replicate n {}, taken := [] }
      let d1 := (d.rmPkt k.id).onRnd r (fun y => { y with combos := y.combos ++ [c], dispatched := y.dispatched + 1 })
      let res := ex.zipIdx.foldl (fun (m : Option Dev) e =>
        match m with
        | none => none
        | some y => y.copyStep r (d.mkCopy k e.2 e.1) e.1) (some d1)
      match res with
      | some y => y.sample p 0 k.arrived
      | none => d
  | c => d.dispFail k c

/-! ## Rank and windows (R311, R313) -/

/-- Order of rank: TOKEN, ORIG_SRC, POS. -/
def rankLt (a b : Copy) : Bool :=
  decide (a.token < b.token ∨ (a.token = b.token ∧
    (a.src.toNat < b.src.toNat ∨ (a.src.toNat = b.src.toNat ∧ a.pos < b.pos))))

/-- Insert in rank order. -/
def insRank (k : Copy) : List Copy → List Copy
  | [] => [k]
  | x :: l => if rankLt k x then k :: x :: l else x :: insRank k l

def rankSort (l : List Copy) : List Copy := l.foldr insRank []

/-- One expert's held copies in frame RANK (R311, R312). -/
def Dev.rankOne (d : Dev) (r e : Nat) : Dev :=
  let x := d.rnd r
  let mine := rankSort (x.copies.filter (fun c => c.st == .held && c.expert == e && ! c.redirected))
  let t := d.et e
  let av := d.xavail e
  let n := if av then min t.cap mine.length else 0
  let adm := (mine.take n).map (fun c => { c with st := .wait, from_ := d.now + 1 })
  let ovf := mine.drop n
  let rest := x.copies.filter (fun c => ! (c.st == .held && c.expert == e && ! c.redirected))
  let d1 := (d.setRnd r { x with copies := rest ++ adm, rankAdm := mapSet 0 x.rankAdm e n }).setXcnt e (d.xcnt e + n)
  match t.policy with
  | 1 => d1.onRnd r (fun y => { y with redirected := y.redirected + ovf.length
                                       copies := y.copies ++ ovf.map (fun c => { c with expert := t.fallback, redirected := true }) })
  | 2 => d1.onRnd r (fun y => { y with deferred := y.deferred + ovf.length
                                       copies := y.copies ++ ovf.map (fun c => { c with st := .deferred, deferredF := true }) })
  | _ => ovf.foldl (fun y c => y.copyDrop r c (if av then 1 else 2)) d1

/-- Frame RANK. -/
def Dev.rankAll (d : Dev) (r : Nat) : Dev :=
  let es := (((d.rnd r).copies.filter (fun c => c.st == .held)).map (·.expert)).dedup
  (es.foldl (fun y e => y.rankOne r e) d).onRnd r (fun x => { x with ranked := true })

/-- Redirected copies at one fallback in frame RANK + 1. -/
def Dev.rankBack (d : Dev) (r e : Nat) : Dev :=
  let x := d.rnd r
  let mine := rankSort (x.copies.filter (fun c => c.st == .held && c.redirected && c.expert == e))
  let left := (d.et e).cap - mapGet 0 x.rankAdm e
  let n := if d.xavail e then min left mine.length else 0
  let adm := (mine.take n).map (fun c => { c with st := .wait, from_ := d.now + 1 })
  let rest := x.copies.filter (fun c => ! (c.st == .held && c.redirected && c.expert == e))
  (mine.drop n).foldl (fun y c => y.copyDrop r c 3)
    ((d.setRnd r { x with copies := rest ++ adm }).setXcnt e (d.xcnt e + n))

def Dev.rankBackAll (d : Dev) (r : Nat) : Dev :=
  let es := (((d.rnd r).copies.filter (fun c => c.st == .held && c.redirected)).map (·.expert)).dedup
  (es.foldl (fun y e => y.rankBack r e) d).onRnd r (fun x => { x with fellBack := true })

/-- Admitted copies present in rank order, at most C cells per frame of the expert's port (R311); done at a boundary. -/
def Dev.rankRelease (d : Dev) (r : Nat) : Dev :=
  if ! rsRun (d.rnd r).st then d else
  let go := (rankSort (((d.rnd r).copies.filter (fun c => c.st == .wait && decide (c.from_ ≤ d.now)))))
  let res := go.foldl (fun (m : Dev × List (Nat × Nat)) c =>
    let p := m.1.xport c.expert
    let n := cellsOfPkt c.pk.hdr
    let used := mapGet 0 m.2 p
    if m.1.cap p < used + n then m
    else (((((m.1.onRnd r (fun x => { x with copies := x.copies.erase c })).qDraw r c).copyOut r c), mapSet 0 m.2 p (used + n)))) (d, [])
  res.1

/-- A window boundary of an expert: the count restarts and deferred copies come first (R313). -/
def Dev.windowStart (d : Dev) (e : Nat) : Dev :=
  let t := d.et e
  let d0 := ({ d with xwin := mapSet 0 d.xwin e (d.now + 1) } : Dev).setXcnt e 0
  if ! d.xavail e then d0
  else
    (List.range 16).foldl (fun (y : Dev) r =>
      if ! rsRun (y.rnd r).st then y
      else
        let q := (y.rnd r).copies.filter (fun c => c.st == .deferred && c.expert == e)
        (q.take (t.cap - y.xcnt e)).foldl (fun (z : Dev) c =>
          (((z.onRnd r (fun x => { x with copies := x.copies.erase c })).setXcnt e (z.xcnt e + 1)).qDraw r c).copyOut r c) y) d0

/-! ## Outputs and the combine (R315-R320) -/

/-- Exponent of 2 that takes a format's smallest magnitude to 2^-149 (R318). -/
def fanShift (f : Nat) : Nat :=
  match f with
  | 0 => 0
  | 1 => 125
  | 2 => 16
  | 3 => 140
  | _ => 133

/-- A term GATE × value, exactly, in units of 2^-298 (R318). -/
def fanTerm (g v : Val) (sh : Nat) : Elt :=
  match g, v with
  | .nan, _ => { nan := true }
  | _, .nan => { nan := true }
  | .inf a, .inf b => { pinf := a == b, ninf := a != b }
  | .inf a, .fin b m => if m = 0 then { nan := true } else { pinf := a == b, ninf := a != b }
  | .fin a m, .inf b => if m = 0 then { nan := true } else { pinf := a == b, ninf := a != b }
  | .fin a m, .fin b n =>
    let i : Int := ((m * n * 2 ^ sh : Nat) : Int)
    { fin := if a == b then i else - i, negz := decide (m = 0 ∨ n = 0) && a != b }

/-- A gate's value (R305): bfloat16 is the upper half of a binary32. -/
def gateVal (gf : Bool) (e : Nat) : Val := decF (ffOf 0) (if gf then e else e % 65536 * 65536)

/-- The terms an output brings. -/
def fanTerms (x : RDesc) (gate : Nat) (pk : Packet) : List Elt :=
  let es := unpackE (ffOf x.vfmt).bits (spread x.units (fanFlag pk 0) (leAt pk.payload 56 8) (pk.payload.drop 64))
  es.map (fun e => fanTerm (gateVal x.gfmt gate) (decF (ffOf x.vfmt) e) (fanShift x.vfmt))

/-- A sum fits a slot's window (R318). -/
def fanFits (v : Int) : Bool :=
  (List.range 527).any (fun p => v % 2 ^ p == 0 && decide (- 2 ^ 112 ≤ v / 2 ^ p ∧ v / 2 ^ p < 2 ^ 112))

/-- The key a combine state is known by. -/
def comboKey (c : Combo) : Nat := c.port * 2 ^ 32 + c.token

def Dev.combo (d : Dev) (r port token : Nat) : Option Combo :=
  (d.rnd r).combos.find? (fun c => c.port == port && c.token == token)
def Dev.onCombo (d : Dev) (r key : Nat) (f : Combo → Combo) : Dev :=
  d.onRnd r (fun x => { x with combos := x.combos.map (fun c => if comboKey c = key then f c else c) })

/-- What R317 finds of an output. -/
inductive OutChk where
  | ok (c : Combo)
  | bad
  | dup
  deriving DecidableEq, Repr

/-- R317. -/
def Dev.outCheck (d : Dev) (r : Nat) (pk : Packet) : OutChk :=
  let x := (d.rnd r).d
  let port := (d.dt (fanSrc pk).toNat).ref % 128
  let i := fanPos pk
  match d.combo r port (fanToken pk) with
  | none => .bad
  | some c =>
    let e := c.experts.getD i 0
    let want := if fanFlag pk 1 then (d.et e).fallback else e
    if c.experts.length ≤ i ∨ fanExpert pk ≠ want ∨ ! fanDataOk x pk (fanFlag pk 0) then .bad
    else if c.pos.getD i .done ≠ .waiting then .dup
    else .ok c

/-- Subtract a list of values. -/
def subAll (l : List Int) (accs : List Acc) : List Acc := List.zipWith (fun a v => { a with v := a.v - v }) accs l

/-- The sums of a combine state change (R318): an escape takes two full records and is counted; without them the round aborts; else `f`
goes on with the sums. -/
def Dev.fanEscape (d : Dev) (r : Nat) (c : Combo) (l : List Acc) (f : Dev → List Acc → Dev) : Dev :=
  let accs := l.map (fun a => { a with esc := a.esc || ! fanFits a.v })
  let n := (accs.filter (·.esc)).length - (c.accs.filter (·.esc)).length
  let die := d.owner c.port
  if d.freeRecs die < 2 * n then d.fanFail r 0xC (die * 4096 + (d.rnd r).d.round % 4096)
  else f (if n = 0 then d else d.add64 (ra 8 (0x410010 + 0x1000 * die)) n) accs

/-- Finite terms are added (R319). -/
def Dev.fanAdd (d : Dev) (r : Nat) (c : Combo) (k : Pkt) : Dev :=
  let x := (d.rnd r).d
  let i := fanPos k.pk
  let ts := fanTerms x (c.gates.getD i 0) k.pk
  d.fanEscape r c (List.zipWith addFin c.accs ts) (fun y accs =>
    ((if k.conf then y.sample (k.ing.getD 0) 0 k.arrived else y).onCombo r (comboKey c) (fun z =>
      { z with accs := accs, taken := z.taken ++ [(k.id, i)] })).onPkt k.id (fun z => { z with st := .taken }))

/-- Flags are taken and the position is DONE (R319). -/
def Dev.fanMark (d : Dev) (r : Nat) (c : Combo) (k : Pkt) : Dev :=
  let x := (d.rnd r).d
  let i := fanPos k.pk
  let ts := fanTerms x (c.gates.getD i 0) k.pk
  (d.onCombo r (comboKey c) (fun y => { y with
    accs := List.zipWith (addConf 0 0) y.accs ts, taken := y.taken.filter (fun t => t.1 != k.id)
    pos := y.pos.set i .done, redirected := if fanFlag k.pk 1 then y.redirected ||| 2 ^ i else y.redirected })).rmPkt k.id

/-- The combine state that has taken packet `id`: slot and state. -/
def Dev.takenBy (d : Dev) (id : Nat) : Option (Nat × Combo) :=
  (d.rounds.flatMap (fun r => r.2.combos.map (fun c => (r.1, c)))).find? (fun e => e.2.taken.any (fun t => t.1 == id))

/-- A stomped output is to be subtracted (R319). -/
def Dev.fanUndo (d : Dev) (k : Pkt) : Dev :=
  match d.takenBy k.id with
  | none => d
  | some (r, c) =>
    let ts := fanTerms (d.rnd r).d (c.gates.getD (fanPos k.pk) 0) k.pk
    d.onCombo r (comboKey c) (fun y => { y with
      taken := y.taken.filter (fun t => t.1 != k.id), retr := y.retr ++ [(k.id, d.now, ts.map (·.fin))] })

/-- FAN_OUT at the source slice (R317, R319, R326). -/
def Dev.fanOutIn (d : Dev) (k : Pkt) : Dev :=
  let id := fanRound k.pk
  match d.takenBy k.id with
  | some (r, c) =>
    if ! k.conf then d
    else if ! rsRun (d.rnd r).st then ((d.fanUndo k).fanStale id).rmPkt k.id
    else if c.pos.getD (fanPos k.pk) .done ≠ .waiting then ((d.fanUndo k).fanFail r 6 id).rmPkt k.id
    else d.fanMark r c k
  | none =>
    match d.slotOfRound id rsRun with
    | none => if k.conf then (d.fanStale id).rmPkt k.id else d
    | some r =>
      match d.outCheck r k.pk with
      | .bad => if k.conf then (d.fanFail r 5 (fanDet 2 id)).rmPkt k.id else d
      | .dup => if k.conf then (d.fanFail r 6 id).rmPkt k.id else d
      | .ok c =>
        let d1 := d.fanAdd r c k
        match k.conf, d1.takenBy k.id with
        | true, some (r1, c1) => d1.fanMark r1 c1 k
        | true, none => d1.rmPkt k.id
        | false, _ => d1

/-- FAN_OUT from an expert, at its device (R316). -/
def Dev.fanOutFwd (d : Dev) (k : Pkt) : Dev :=
  let id := fanRound k.pk
  let e := fanExpert k.pk
  let t := d.et e
  let s := d.dt (fanSrc k.pk).toNat
  match d.slotOfRound id rsRun with
  | none => (d.fanStale id).rmPkt k.id
  | some r =>
    if ! t.valid ∨ t.set ≠ (d.dt k.pk.hdr.dstId.toNat).ref ∨ ! d.xhere e ∨ k.ing ≠ some (d.xport e) ∨ s.ty ≠ 1 then
      (d.fanFail r 5 (fanDet 1 id)).rmPkt k.id
    else
      let h := { k.pk.hdr with srcId := d.devId, viaV := true, via := BitVec.ofNat 12 s.coord }
      let pk := { k.pk with hdr := h, crc := pktCrc h k.pk.payload }
      if s.coord = d.own then d.onPkt k.id (fun y => { y with pk := pk, rank := 1 })
      else ((d.sample (k.ing.getD 0) 0 k.arrived).rmPkt k.id).originate pk none none false

/-- The output stands at its expert's device, and not yet at the source slice. -/
def atExpert (k : Pkt) : Bool := ! k.fromSw && k.rank == 0

/-- The rounded element of a combined token (R320). -/
def fanElt (f : Nat) (sat dropped : Bool) (a : Acc) : ResE :=
  if dropped then { enc := 0 }
  else if a.nan ∨ (a.pinf ∧ a.ninf) then { enc := canonNan f, nan := true }
  else if a.pinf ∨ a.ninf then encInf f a.ninf
  else roundF f sat a.v (2 ^ (149 + fanShift f - lsbShift f)) a.nzall

/-- A combine state whose every position is settled, with nothing to be confirmed or subtracted (R320). -/
def comboReady (c : Combo) : Bool := c.pos.all (· != .waiting) && c.taken.isEmpty && c.retr.isEmpty && ! c.sent

/-- Send the combined token (R320). -/
def Dev.fanCombined (d : Dev) (r : Nat) (c : Combo) : Dev :=
  let x := (d.rnd r).d
  let all := c.pos.all (· == .dropped)
  let es := c.accs.map (fanElt x.vfmt x.sat all)
  let fl := b2n (es.any (·.ovf)) + 2 * b2n (es.any (·.nan)) + 4 * b2n (es.any (·.inexact)) + 8 * b2n (es.any (·.zloss))
  let dr := (c.pos.zipIdx.map (fun p => if p.1 = .dropped then 2 ^ p.2 else 0)).sum
  let u := unit64 [(0, 2, x.round), (2, 4, c.token), (6, 1, c.experts.length), (7, 1, dr), (8, 1, c.redirected), (9, 1, fl)]
  let n := d.nextId
  let d1 := d.originate (ownPkt d 0x33 2 x.slice.toNat c.src.toNat 0 (u ++ packE (ffOf x.vfmt).bits (es.map (·.enc))))
    none none false
  ((d1.onPkt n (fun k => { k with use := .comb r (comboKey c) })).onCombo r (comboKey c) (fun y => { y with sent := true })).onRnd r
    (fun y => { y with combined := y.combined + 1 })

/-- The last cell of a combined token is in the replay buffer: its state is freed (R320). -/
def Dev.combSent (d : Dev) (r key : Nat) : Dev :=
  d.onRnd r (fun x => { x with combos := x.combos.filter (fun c => comboKey c != key) })

/-- A DROPPED notice passes the source slice (R319). -/
def Dev.noticeSeen (d : Dev) (k : Pkt) : Dev :=
  let e := d.dt k.pk.hdr.dstId.toNat
  if leAt k.pk.payload 6 1 ≠ 1 ∨ e.ty ≠ 1 ∨ e.coord ≠ d.own then d
  else
    match d.slotOfRound (fanRound k.pk) rsRun with
    | none => d
    | some r =>
      match d.combo r (e.ref % 128) (fanToken k.pk) with
      | none => d
      | some c =>
        let i := leAt k.pk.payload 7 1
        if c.pos.getD i .done = .waiting then d.onCombo r (comboKey c) (fun y => { y with pos := y.pos.set i .dropped })
        else d

/-! ## The end of a round -/

/-- R323's conditions at a boundary. -/
def Dev.roundMet (d : Dev) (r : Nat) : Bool :=
  let x := d.rnd r
  x.st == .closed && (! x.d.ranked || decide (rdRank x.d + 2 ≤ d.fno)) && x.combos.isEmpty && x.copies.isEmpty &&
  ! d.pkts.any (fun (k : Pkt) => k.use == Use.copy r && k.st == PkSt.hold)

/-- An endpoint port left UP (R314). -/
def Dev.memberDownFan (d : Dev) (p : Nat) : Dev :=
  (List.range 16).foldl (fun (y : Dev) r =>
    let x := y.rnd r
    if (rsRun x.st || y.fanNow x) ∧ (x.combos.any (fun c => c.port == p) ∨ p ∈ x.admitted) then y.fanFail r 7 p else y) d

/-- A device-form abort message received (R325). -/
def Dev.fanMsg (d : Dev) (k : Pkt) : Dev :=
  let pl := k.pk.payload
  let d0 := d.rmPkt k.id
  match d.slotOfRound (leAt pl 2 2) (fun s => rsLive s || s == .aborting || s == .done) with
  | none => d0
  | some r => d0.fanAdopt r (leAt pl 8 6) (BitVec.ofNat 32 (leAt pl 4 4)) true

/-! ## Commands -/

/-- ROUND_OPEN (R301): at START. -/
def execRoundOpen (r : BitVec 4) (s : State) : Host.Outcome State Fault Refusal :=
  devStep (fun d =>
    let x := d.rnd r.toNat
    if x.st = .armed ∧ x.d.start ≤ d.fno then d.setRnd r.toNat { x with st := .open } else d) s

/-- ROUND_CLOSE (R301): at CLOSE. -/
def execRoundClose (r : BitVec 4) (s : State) : Host.Outcome State Fault Refusal :=
  devStep (fun d =>
    let x := d.rnd r.toNat
    if x.st = .open ∧ x.d.close ≤ d.fno then d.setRnd r.toNat { x with st := .closed } else d) s

/-- RANK (R311): once, in frame RANK. -/
def execRank (r : BitVec 4) (s : State) : Host.Outcome State Fault Refusal :=
  devStep (fun d =>
    let x := d.rnd r.toNat
    if x.st = .closed ∧ x.d.ranked ∧ ! x.ranked ∧ rdRank x.d ≤ d.fno then d.rankAll r.toNat else d) s

/-- RANK_FALLBACK (R311): once, in frame RANK + 1. -/
def execRankFallback (r : BitVec 4) (s : State) : Host.Outcome State Fault Refusal :=
  devStep (fun d =>
    let x := d.rnd r.toNat
    if x.st = .closed ∧ x.ranked ∧ ! x.fellBack ∧ rdRank x.d + 1 ≤ d.fno then d.rankBackAll r.toNat else d) s

/-- ROUND_DONE (R323, R327). -/
def execRoundDone (r : BitVec 4) (s : State) : Host.Outcome State Fault Refusal :=
  devStep (fun d =>
    if d.roundMet r.toNat then (d.onRnd r.toNat (fun x => { x with st := .done })).postFan r.toNat 0 5 else d) s

/-- ROUND_TIMEOUT (R323): at the boundary of END. -/
def execRoundTimeout (r : BitVec 4) (s : State) : Host.Outcome State Fault Refusal :=
  devStep (fun d =>
    let x := d.rnd r.toNat
    if (x.st = .closed ∨ d.fanNow x) ∧ rdEnd x.d ≤ d.fno then d.fanFail r.toNat 3 x.d.round else d) s

/-- FAN_DISPATCH (R306): a confirmed dispatch is tested; one that passes stays to present. -/
def execFanDispatch (id : Nat) (s : State) : Host.Outcome State Fault Refusal :=
  devStep (fun d => d.onPacket id (fun k => atEngine 0x30 k && k.conf) (fun x k => x.dispFail k (x.dispCheck k))) s

/-- DISPATCH_ADMIT (R307): the confirmed head of its hold presents, where no drain keeps it (R223). -/
def execDispatchAdmit (id : Nat) (s : State) : Host.Outcome State Fault Refusal :=
  devStep (fun d => d.onPacket id (fun k => atEngine 0x30 k && k.conf && d.isHead k && ! d.kept k) Dev.dispAdmit) s

/-- FAN_COPY (R308, R310, R311). -/
def execFanCopy (id : Nat) (s : State) : Host.Outcome State Fault Refusal :=
  devStep (fun d => d.onPacket id (fun k => atEngine 0x31 k && k.conf) Dev.fanCopy) s

/-- WINDOW_BOUNDARY (R313): once in a frame whose number is a multiple of W. -/
def execWindowBoundary (e : BitVec 14) (s : State) : Host.Outcome State Fault Refusal :=
  devStep (fun d =>
    let t := d.et e.toNat
    if t.valid ∧ t.w ≠ 0 ∧ d.fno % t.w = 0 ∧ mapGet 0 d.xwin e.toNat ≠ d.now + 1 then d.windowStart e.toNat else d) s

/-- FAN_OUT_FORWARD (R316): what a drain keeps waits (R223). -/
def execFanOutForward (id : Nat) (s : State) : Host.Outcome State Fault Refusal :=
  devStep (fun d => d.onPacket id (fun k => atEngine 0x32 k && k.conf && atExpert k && ! d.kept k) Dev.fanOutFwd) s

/-- FAN_OUT_COMBINE (R317-R319). -/
def execFanOutCombine (id : Nat) (s : State) : Host.Outcome State Fault Refusal :=
  devStep (fun d => d.onPacket id (fun k => atEngine 0x32 k && ! atExpert k) Dev.fanOutIn) s

/-- A stomped output is subtracted exactly and counted, in the frame after the stomp (R319). -/
def Dev.fanSub (d : Dev) (id : Nat) : Dev :=
  let due (t : Nat × Nat × List Int) : Bool := t.1 == id && decide (t.2.1 < d.now)
  match (d.rounds.flatMap (fun r => r.2.combos.map (fun c => (r.1, c)))).find? (fun e => e.2.retr.any due) with
  | none => d
  | some (r, c) =>
    (d.fanEscape r c ((c.retr.filter due).foldl (fun a t => subAll t.2.2 a) c.accs) (fun y accs =>
      y.onCombo r (comboKey c) (fun z => { z with accs := accs, retr := z.retr.filter (fun t => t.1 != id) }))).add64
        (ra 8 (0x410008 + 0x1000 * d.owner c.port)) 1

/-- FAN_RETRACT (R319). -/
def execFanRetract (id : Nat) (s : State) : Host.Outcome State Fault Refusal := devStep (fun d => d.fanSub id) s

/-- The end of a frame: the outputs stomped in the frame before it are subtracted (R319). -/
def Dev.fanTick (d : Dev) : Dev :=
  (d.rounds.flatMap (fun r => r.2.combos.flatMap (fun c => c.retr.map (·.1)))).foldl (fun (x : Dev) i => x.fanSub i) d

/-- FAN_NOTICE (R319): a confirmed notice passes the source slice; its delivery is its admission. -/
def execFanNotice (id : Nat) (s : State) : Host.Outcome State Fault Refusal :=
  devStep (fun d => d.onPacket id (fun k => k.pk.hdr.op == 0x34 && k.conf && k.rank == 0) (fun x k =>
    let y := x.noticeSeen k
    if k.st = .accepted then y.rmPkt k.id else y.onPkt k.id (fun q => { q with rank := 1 }))) s

/-- COMBINE_SEND (R320, R329): not once an abort is adopted. -/
def execCombineSend (p : BitVec 7) (round : BitVec 16) (token : BitVec 32) (s : State) :
    Host.Outcome State Fault Refusal :=
  devStep (fun d =>
    match d.slotOfRound round.toNat rsRun with
    | none => d
    | some r =>
      match d.combo r p.toNat token.toNat with
      | some c => if comboReady c then d.fanCombined r c else d
      | none => d) s

/-- FAN_ABORT_MESSAGE (R325). -/
def Dev.fanAbortAct (d : Dev) (id : Nat) : Dev :=
  d.onPacket id (fun k => atEngine 0x40 k && k.conf && leAt k.pk.payload 0 1 == 8 && leAt k.pk.payload 1 1 == 1) Dev.fanMsg

/-- FAN_ABORT_MESSAGE: a confirmed proposal waits for the boundary (R55, R71). -/
def execFanAbortMessage (id : Nat) (s : State) : Host.Outcome State Fault Refusal := .next (s.wait (.fanAbortMessage id))

/-- FAN_ABORT_FRAME (R326, R327): in frame AF. -/
def execFanAbortFrame (r : BitVec 4) (s : State) : Host.Outcome State Fault Refusal :=
  devStep (fun d =>
    let x := d.rnd r.toNat
    match x.prop with
    | some (af, _) => if x.st = .aborting ∧ af ≤ d.fno then d.fanAbortEnd r.toNat else d
    | none => d) s

end Sys2Proof.Machine
end

