-- ==== Sys2Proof/Machine/Bas.lean ====
section
/-! DEFINITION. Basin (R332-R361): bytes, requests, their admission and completions. Each
command that grants is a round of its own, so that the order of R349 within a round is that of the writes of one (log 16). -/

namespace Sys2Proof.Machine

/-! ## Bytes -/

/-- The byte at a device address. -/
def readByte (m : List Host.Cell) (a : Nat) : Byte := mapGet memDefault m a

/-- `n` bytes from an address. -/
def readBytes (m : List Host.Cell) (a n : Nat) : List Byte := (List.range n).map (fun i => readByte m (a + i))

/-- Write one byte; the canonical form is kept. -/
def writeByte (m : List Host.Cell) (a : Nat) (v : Byte) : List Host.Cell := mapSet memDefault m a v

/-- Write bytes from an address. -/
def writeBytes : List Host.Cell → Nat → List Byte → List Host.Cell
  | m, _, [] => m
  | m, a, b :: bs => writeBytes (writeByte m a b) (a + 1) bs

/-- First address that is not mapped (R332). -/
def basTop : Nat := 0x3800000000

/-- TRAY_POS of the device (R529). -/
def Dev.trayPos (d : Dev) : Nat := Machine.fld d.straps 12 2

/-! ## Words that read as uncorrectable (R355) -/

def Dev.badIn (d : Dev) (a n : Nat) : List Nat := d.bad.filter (fun w => decide (w * 16 < a + n ∧ a < w * 16 + 16))

/-- Count and raise uncorrectable words. -/
def Dev.uncorr (d : Dev) (ws : List Nat) : Dev :=
  ws.foldl (fun x w =>
    let s := stackOf (w * 16)
    let y := (x.addSat (ra 9 (0x108 + 0x20 * s)) 1).raise 9 8 s
    let r := rowOf (w * 16)
    if r ∈ y.dueRows then y else { y with dueRows := y.dueRows ++ [r] }) d

/-- The bytes of a read: a unit with an uncorrectable word returns 00h bytes; the stack of the first. -/
def Dev.readUnits (d : Dev) (m : List Host.Cell) (a n : Nat) : List Byte × Option Nat :=
  let ws := d.badIn (a / 256 * 256) ((a % 256 + n + 255) / 256 * 256)
  if ws = [] then (readBytes m a n, none)
  else
    ((List.range n).map (fun i => if ws.any (fun w => w * 16 / 256 == (a + i) / 256) then 0 else readByte m (a + i)),
      (ws.head?).map (fun w => stackOf (w * 16)))

/-- A write of whole words replaces uncorrectable ones. -/
def Dev.wrote (d : Dev) (a n : Nat) : Dev :=
  { d with bad := d.bad.filter (fun w => ! decide (a ≤ w * 16 ∧ w * 16 + 16 ≤ a + n)) }

/-! ## Requests (R338-R341) -/

def basAddr (pk : Packet) : Nat := leAt pk.payload 0 5
def basDa (pk : Packet) : Nat := basAddr pk % 2 ^ 38
/-- Bytes a request reads or writes. -/
def basLen (pk : Packet) : Nat :=
  match pk.hdr.op.toNat with
  | 0x10 => 64 * leAt pk.payload 8 2
  | 0x12 => 64 * leAt pk.payload 8 2
  | 0x11 => pk.payload.length - 64
  | _ => 8

/-- Test 1 of R341: every field as R338 and R339 have it. -/
def basFieldsOk (pk : Packet) : Bool :=
  let pl := pk.payload
  let op := pk.hdr.op.toNat
  let rd := op == 0x10 || op == 0x12
  let at_ := op == 0x13 || op == 0x14
  zeroAt pl 5 1 && zeroAt pl 32 32 &&
  (if rd then decide (1 ≤ leAt pl 8 2 ∧ leAt pl 8 2 ≤ 32768 ∧ 1 ≤ leAt pl 10 1 ∧ leAt pl 10 1 ≤ 63) else zeroAt pl 8 3) &&
  (if op = 0x11 then decide (leAt pl 11 1 < 2) && decide (64 < pl.length) else zeroAt pl 11 1 && pl.length == 64) &&
  (op == 0x12 || zeroAt pl 12 2) &&
  (if pk.hdr.cls = 1 then decide (leAt pl 14 2 < 0x1000) else zeroAt pl 14 2) &&
  (at_ || zeroAt pl 16 8) && (op == 0x14 || zeroAt pl 24 8) &&
  (basAddr pk % (if at_ then 8 else 64) == 0)

/-- A region's PURPOSE accepts a request (R335, R351). -/
def purposeOk (r : RtE) (pk : Packet) : Bool :=
  let op := pk.hdr.op.toNat
  if r.purpose = 0 then true
  else if r.purpose = 1 then
    let ps := 16384 * 2 ^ r.page
    decide (op ≤ 0x12) && (basDa pk - r.base) / ps == (basDa pk + basLen pk - 1 - r.base) / ps
  else false

/-- The first test of R341 that a request fails: condition and DETAIL. -/
def Dev.basTest (d : Dev) (k : Pkt) : Option (Nat × Nat) :=
  let pk := k.pk
  let op := pk.hdr.op.toNat
  let ref := (d.dt pk.hdr.dstId.toNat).ref % 0x1000
  let r := d.rt ref
  let p := k.ing.getD 0
  let grp := if op = 0x10 ∨ op = 0x12 then r.rdGrp else if op = 0x11 then r.wrGrp else r.atomGrp
  let res := d.dt (leAt pk.payload 12 2)
  if ! basFieldsOk pk then some (1, p)
  else if basAddr pk / 2 ^ 38 ≠ d.trayPos then some (2, p)
  else if ! r.valid then some (3, ref)
  else if basDa pk < r.base ∨ r.base + r.size < basDa pk + basLen pk then some (4, ref)
  else if ! purposeOk r pk then some (5, ref)
  else if ! d.inAg grp pk.hdr.srcId.toNat then some (6, ref)
  else if op = 0x12 ∧ ¬ (res.ty = 3 ∧ res.slice = pk.hdr.slice.toNat ∧ (d.mt (res.ref % 0x2000)).root = d.own) then
    some (7, ref)
  else none

/-- A confirmed request is tested: refused with one completion, or it stays to be admitted (R341). -/
def Dev.basRequest (d : Dev) (k : Pkt) : Dev :=
  match d.basTest k with
  | some (c, det) =>
    let d1 := ((d.add64 (ra 9 0x40) 1).raise 9 c det).rmPkt k.id
    d1.answer k.ing k.pk.hdr k.pk.payload (condWord 9 c det)
  | none => d.onPkt k.id (fun x => { x with rank := 2 })

/-! ## Slots (R342) -/

/-- Requests in slots of a die, by class. -/
def Dev.slotsUsed (d : Dev) (k : Nat) (corr : Bool) : Nat := (d.reqs.filter (fun r => r.die == k && r.corr == corr)).length
def Dev.corrSlots (d : Dev) : Nat := d.fld (ra 9 0) 16 10
/-- Free reserved and free unreserved slots of a die. -/
def Dev.corrFree (d : Dev) (k : Nat) : Nat := d.corrSlots - d.slotsUsed k true
def Dev.plainFree (d : Dev) (k : Nat) : Nat :=
  1024 - d.corrSlots - (d.slotsUsed k false + (d.slotsUsed k true - d.corrSlots))

/-- The lowest free slot number of a die. -/
def Dev.freeSlot (d : Dev) (k : Nat) : Nat :=
  ((List.range 1024).find? (fun i => ! d.reqs.any (fun r => r.slot == k * 1024 + i))).getD 1023 + k * 1024

/-- A request that cannot be accepted (R342). -/
def Dev.basWait (d : Dev) (k : Pkt) : Dev :=
  let p := k.ing.getD 0
  if k.pk.hdr.cls = 1 then d.dropPkt k { cause := .corrSlot, atOut := false, port := p }
  else if condWord 9 0xA p ∈ d.words then d
  else (d.addSat (ra 9 0x48) 1).raise 9 0xA p

/-- The request a packet makes. -/
def reqOf (k : Pkt) (slot : Nat) : Req :=
  let pl := k.pk.payload
  { slot := slot, die := slot / 1024, corr := k.pk.hdr.cls == 1, ing := k.ing.getD 0, op := k.pk.hdr.op.toNat
    src := k.pk.hdr.srcId, slice := k.pk.hdr.slice, tag := leAt pl 6 2, addr := basAddr k.pk, len := basLen k.pk
    cplUnits := leAt pl 10 1, resId := BitVec.ofNat 16 (leAt pl 12 2), retCid := leAt pl 14 2 % 0x1000
    operand := leAt pl 16 8, swap := leAt pl 24 8 }

/-- A tested request at the head of its hold, where no drain keeps it, at its Basin engine (R223, R342). -/
def Dev.basHead (d : Dev) (k : Pkt) : Bool :=
  decide (0x10 ≤ k.pk.hdr.op.toNat ∧ k.pk.hdr.op.toNat ≤ 0x14) && k.st == .engine && k.rank == 2 && d.isHead k && ! d.kept k

/-- Two requests contend: for the slots of one die, or as writes for the accesses of one stack (R342, R344). -/
def Dev.basMeet (d : Dev) (a b : Pkt) : Bool :=
  let on (k : Pkt) := (unitsOf (basDa k.pk) (basLen k.pk)).map stackOf
  d.owner (a.ing.getD 0) == d.owner (b.ing.getD 0) || (a.pk.hdr.op == 0x11 && b.pk.hdr.op == 0x11 && (on a).any (on b).contains)

/-- The requests that present in one round, contenders in the order of R62. -/
def Dev.basTurns (d : Dev) : List Pkt := (components d.basMeet (d.pkts.filter d.basHead)).flatMap d.tieOrder

/-- A request is accepted: it takes its slot, and a write its accesses, or it waits (R342, R344, R346); whether it was. -/
def Dev.basTake (d : Dev) (k : Pkt) : Dev × Bool :=
  let die := d.owner (k.ing.getD 0)
  let free := decide (0 < d.plainFree die) || (k.pk.hdr.cls == 1 && decide (0 < d.corrFree die))
  let isW := k.pk.hdr.op == 0x11
  let da := basDa k.pk
  let res := if isW then d.reserve da (basLen k.pk) else some d
  match free, res with
  | true, some d1 =>
    let q := reqOf k (d.freeSlot die)
    let d2 := (d1.rmPkt k.id).sample (k.ing.getD 0) 0 k.arrived
    let d3 := if isW then d2.wrote da q.len else d2
    (if isW && (leAt k.pk.payload 11 1).testBit 0 then d3 else { d3 with reqs := d3.reqs ++ [q] }, true)
  | _, _ => (d.basWait k, false)

/-- Place of a source among those of one round (R349). -/
def Dev.basPos (d : Dev) (ing : Nat) : Nat := (ing + 129 - d.fno % 129) % 129

/-- A round of the Basin engines: its contenders are served in the order of R62, and the writes accepted take effect at every stack in
the one order of R349, their ordering point (R342, R348). -/
def basRound (s : State) : State :=
  let r := s.dev.basTurns.foldl (fun (m : Dev × List Pkt) k =>
    let t := m.1.basTake k
    (t.1, if t.2 && k.pk.hdr.op == 0x11 then m.2 ++ [k] else m.2)) (s.dev, [])
  let ws := r.2.insertionSort (fun a b => s.dev.basPos (a.ing.getD 0) ≤ s.dev.basPos (b.ing.getD 0))
  { s with dev := r.1, mem := ws.foldl (fun m k => writeBytes m (basDa k.pk) (k.pk.payload.drop 64)) s.mem }

/-! ## Completions (R340, R343, R345, R350) -/

/-- A request ends: its slot is free, the loss raised and counted (R346). -/
def Dev.endReq (d : Dev) (slot port : Nat) : Dev :=
  if d.reqs.any (fun r => r.slot == slot) then
    (({ d with reqs := d.reqs.filter (fun r => r.slot != slot) } : Dev).addSat (ra 9 0x4C) 1).raise 9 9 port
  else d

/-- A completion or segment is presented; what comes of it: granted, lost at a port, or not granted. -/
inductive Grant where
  | done (d : Dev)
  | lost (d : Dev) (port : Nat)
  | wait (d : Dev)

/-- Present a packet for a request's slot to output admission. -/
def Dev.present (d : Dev) (q : Req) (pk : Packet) : Grant :=
  let n := d.nextId
  let d1 := (d.originate pk none (if q.corr then some q.ing else none) false).onPkt n (fun k => { k with use := .cpl q.slot })
  match d1.pkt n with
  | none => .lost d1 0
  | some k =>
    let port := tryPort (match k.tgts with | t :: _ => d1.tryTgt 0 k t | [] => .no 0 .tail)
    let (d2, ok) := d1.offer 0 k
    if ok then .done d2
    else if (d2.pkt n).isNone then .lost d2 port
    else .wait { d with ports := d2.ports }

/-- A BAS_CPL of a request (R340). -/
def Dev.cplPkt (d : Dev) (q : Req) (cond : Word) (lastF : Bool) (addr seg old : Nat) (data : List Byte) : Packet :=
  ownPkt d 0x15 (if q.corr then 1 else 3) q.slice.toNat q.src.toNat (if q.corr then q.retCid else 0)
    (cplUnit cond.toNat q.tag q.op (b2n lastF) addr seg old q.src.toNat ++ data)

/-- Finish a presentation: the slot is freed with the last completion; a discard ends the request. -/
def Dev.granted (g : Grant) (d : Dev) (q : Req) (next : Option Req) : Dev :=
  match g with
  | .done x =>
    match next with
    | some n => { x with reqs := x.reqs.map (fun r => if r.slot = q.slot then n else r) }
    | none => { x with reqs := x.reqs.filter (fun r => r.slot != q.slot) }
  | .lost x p => { x.endReq q.slot p with stackU := d.stackU }
  | .wait x => { x with stackU := d.stackU }

/-- The value of an atomic after the operation (R339). -/
def atomNew (q : Req) (old : Nat) : Nat :=
  if q.op = 0x13 then (old + q.operand) % 2 ^ 64 else if old = q.operand then q.swap else old

/-- SEGMENT_GRANT for a request in a slot. -/
def segGrant (s : State) (q : Req) : State :=
  let d := s.dev
  let da := q.addr % 2 ^ 38
  if q.op = 0x10 ∨ q.op = 0x12 then
    if q.last then
      { s with dev := Dev.granted (d.present q (d.cplPkt q q.cond true q.addr 0 0 [])) d q none }
    else
      let off := 64 * q.cplUnits * q.seg
      let n := min (64 * q.cplUnits) (q.len - off)
      let fin := decide (q.len ≤ off + n)
      match d.reserve (da + off) n with
      | none => s
      | some d1 =>
        let (data, badS) := d.readUnits s.mem (da + off) n
        let cond := match badS with | some t => condWord 9 8 t | none => 0
        let count (x : Dev) : Dev := x.uncorr (d.badIn ((da + off) / 256 * 256) (((da + off) % 256 + n + 255) / 256 * 256))
        if q.op = 0x10 then
          let g := d1.present q (d.cplPkt q cond fin (q.addr + off) q.seg 0 data)
          let x := Dev.granted g d q (if fin then none else some { q with seg := q.seg + 1 })
          { s with dev := match g with | .done _ => count x | _ => x }
        else
          let pk := ownPkt d 0x01 3 q.slice.toNat q.resId.toNat 0
            (cplUnit cond.toNat q.tag q.op 2 (q.addr + off) q.seg 0 q.src.toNat ++ data)
          let g := d1.present q pk
          let x := Dev.granted g d q (some { q with seg := q.seg + 1, last := fin })
          { s with dev := match g with | .done _ => count x | _ => x }
  else if q.op = 0x11 then
    { s with dev := Dev.granted (d.present q (d.cplPkt q 0 true q.addr 0 0 [])) d q none }
  else
    match d.reserve da 8 with
    | none => s
    | some d1 =>
      let ws := d.badIn da 8
      let old := leNat (readBytes s.mem da 8)
      let cond := match ws with | w :: _ => condWord 9 8 (stackOf (w * 16)) | [] => 0
      let g := d1.present q (d.cplPkt q cond true q.addr 0 (if ws = [] then old else 0) [])
      let x := Dev.granted g d q none
      match g with
      | .done _ =>
        if ws = [] then { s with dev := x, mem := writeBytes s.mem da (leBytes 8 (atomNew q old)) }
        else { s with dev := x.uncorr ws }
      | _ => { s with dev := x }

/-! ## Commands -/

/-- A confirmed request of one OP that waits at the engine, not yet tested. -/
def basNew (op : Nat) (k : Pkt) : Bool := k.pk.hdr.op.toNat == op && k.st == .engine && k.conf && k.rank == 0

/-- BAS_READ (R338, R339, R341). -/
def execBasRead (id : Nat) (s : State) : Host.Outcome State Fault Refusal :=
  devStep (fun d => d.onPacket id (basNew 0x10) Dev.basRequest) s

/-- BAS_WRITE (R338, R339, R341). -/
def execBasWrite (id : Nat) (s : State) : Host.Outcome State Fault Refusal :=
  devStep (fun d => d.onPacket id (basNew 0x11) Dev.basRequest) s

/-- BAS_MREAD (R339, R341, R350). -/
def execBasMread (id : Nat) (s : State) : Host.Outcome State Fault Refusal :=
  devStep (fun d => d.onPacket id (basNew 0x12) Dev.basRequest) s

/-- BAS_ADD (R339, R341). -/
def execBasAdd (id : Nat) (s : State) : Host.Outcome State Fault Refusal :=
  devStep (fun d => d.onPacket id (basNew 0x13) Dev.basRequest) s

/-- BAS_CAS (R339, R341). -/
def execBasCas (id : Nat) (s : State) : Host.Outcome State Fault Refusal :=
  devStep (fun d => d.onPacket id (basNew 0x14) Dev.basRequest) s

/-- BASIN_ADMIT (R342): a tested request presents, in a round of the engines. -/
def execBasinAdmit (id : Nat) (s : State) : Host.Outcome State Fault Refusal :=
  .next (match s.dev.pkt id with
    | some k => if s.dev.basHead k then basRound s else s
    | none => s)

/-- SEGMENT_GRANT (R343, R345): the request in a slot presents its next segment or completion. -/
def execSegmentGrant (slot : Nat) (s : State) : Host.Outcome State Fault Refusal :=
  .next (match s.dev.reqs.find? (fun r => r.slot == slot) with
    | some q => segGrant s q
    | none => s)

end Sys2Proof.Machine
end

