-- ==== Sys2Proof/Machine/PortDown.lean ====
section
/-! DEFINITION. Stomps (R73), a port leaving UP (R128, R189, R354, R478-R480), lanes that begin training (R95, R98), and parts in
FAULT (R42). -/

namespace Sys2Proof.Machine

/-! ## Stomps -/

/-- Take back what an unconfirmed queue entry drew from a budget whose frame has not ended (R188). -/
def Dev.giveBack (d : Dev) (q : QEnt) : Dev :=
  let add (b : Nat × Nat) : Nat × Nat :=
    if q.draw = d.now then (b.1 + q.n, b.2) else if q.draw = d.now + 1 then (b.1, b.2 + q.n) else b
  if q.cls = 1 then { d with corr := mapSet (0, 0) d.corr q.cid (add (mapGet (0, 0) d.corr q.cid)) }
  else d.setBud q.out q.cls (add (d.budOf q.out q.cls))

/-- The packet with cells `n` and later void: their packet bytes are 00h and VERDICT is FFh (R151). -/
def voidFrom (pk : Packet) (n : Nat) : Packet :=
  let kept := 256 * n - 16
  { pk with payload := pk.payload.take kept ++ zeros (pk.payload.length - kept), crc := 0, tailRsv := 0, verdict := 0xFF
            pad := zeros pk.pad.length }

/-- The train of a queue entry in progress is completed void from its next cell on, and its buffers are given back (R73, R151, R178);
the replay buffer holds what was and will be sent. The entry keeps a charge of `u`. -/
def Dev.voidEnt (d : Dev) (q : QEnt) (u : Nat) : Dev :=
  let pk := if d.sentOf q = q.n then q.pk else voidFrom q.pk (d.sentOf q)
  let d0 := d.freeEnt q
  let d1 : Dev := { d0 with queue := d0.queue.map (fun x => if x.key = q.key then { x with stomped := true, charge := u, pk := pk } else x) }
  d1.onPort q.out (fun x => { x with
    replay := x.replay.map (fun c => if c.pid = q.pid then { c with pk := pk, counted := true } else c) })

/-- Name every cell of a packet that was sent and whose verdict is still to come, and every one still held for replay, bad to the
partner it went to (R72, R73, R86). -/
def Dev.nameBad (d : Dev) (id : Nat) : Dev :=
  let ps := (d.ports.filter (fun e => e.2.unsure.any (fun c => c.2 == id) || e.2.replay.any (fun c => c.pid == id))).map (·.1)
  ps.foldl (fun (x : Dev) p =>
    let y := x.port p
    let tags := (((y.unsure.filter (fun c => c.2 == id)).map (·.1)) ++ (y.replay.filter (fun c => c.pid == id)).map (·.tag)).dedup
    let z := x.setPort p { y with
      replay := y.replay.map (fun c => if c.pid = id then { c with bad := true } else c)
      unsure := y.unsure.filter (fun c => c.2 != id), badTags := y.badTags ++ tags }
    tags.foldl (fun w t => w.emit (.verdBad p t)) z) d

/-- Release what an unconfirmed packet holds at its outputs (R73, R188): its reservations and charges are returned; a copy not begun is
not sent, one begun is completed void; its buffers are given back. -/
def Dev.release (d : Dev) (id : Nat) : Dev :=
  let d1 := (d.queue.filter (fun q => q.pid == id && ! q.stomped)).foldl (fun (x : Dev) q =>
    if q.begun then (x.giveBack q).voidEnt q 0 else (x.giveBack q).freeEnt q) d
  { d1 with queue := d1.queue.filter (fun q => ! (q.pid == id && ! q.begun)) }

/-- Stomp a packet not yet confirmed (R73, R151, R188): it is released, its cells are named bad, what it added is retracted, and it is
counted once. -/
def Dev.stomp (d : Dev) (k : Pkt) : Dev :=
  let d3 := (((d.release k.id).nameBad k.id).catUndo k).fanUndo k
  let d4 := d3.countStomp k.ing k.pk.hdr
  let d5 := match k.ing with | some p => d4.capStomp p k.pk.hdr | none => d4
  d5.rmPkt k.id

/-- Stomp every packet of a port that is not confirmed (R128, R478). -/
def Dev.stompPort (d : Dev) (p : Nat) : Dev :=
  (d.pkts.filter (fun k => k.ing == some p && ! k.conf)).foldl (fun x k => x.stomp k) d

/-! ## Losses (R479, R480) -/

/-- The abort cause of a lost packet. -/
def Dev.lossAbort (d : Dev) (pk : Packet) (w : Word) : Dev :=
  let op := pk.hdr.op.toNat
  let pl := pk.payload
  if 0x30 ≤ op then
    match d.slotCause (fanRound pk) with
    | some r => d.fanCause r w
    | none => d
  else
    let g := if op = 0x22 then leAt pl 0 2 % 0x1000 else if op = 0x24 then leAt pl 2 2 % 0x1000 else d.refGroup pk
    let ln := if op = 0x24 then leAt pl 14 2 else leAt pl 2 2
    if (d.launch g).d.launch.toNat = ln then d.cause g w true else d

/-- Act on every loss noted so far. -/
def Dev.settleLoss (d : Dev) : Dev :=
  d.lost.foldl (fun (x : Dev) e => x.lossAbort e.1 e.2) { d with lost := [] }

/-! ## Lanes -/

/-- Taps of a preset (R95). -/
def presetTaps (n : Nat) : List Int :=
  match n with
  | 0 => [0, 0, 63, 0]
  | 1 => [0, 0, 55, -8]
  | 2 => [0, 0, 51, -12]
  | 3 => [0, -4, 51, -8]
  | 4 => [0, -6, 47, -10]
  | 5 => [-2, -6, 45, -10]
  | 6 => [-2, -8, 43, -10]
  | _ => [-3, -10, 40, -10]

/-- Taps within the limits of NAR_TXLIM_d of the lane's die (R438): c(-1) gives way to c(-2) under PRE_MAX (log 19). -/
def Dev.clampTaps (d : Dev) (l : Nat) (t : List Int) : List Int :=
  let a := ra 0xE (0x100 + 4 * (l / 64))
  let post := d.fld a 16 8
  let pre := d.fld a 8 8
  let c0 := max 32 (d.fld a 0 6)
  let m2 := min (t.getD 0 0).natAbs pre
  let m1 := min (t.getD 1 0).natAbs (pre - m2)
  [- (m2 : Int), - (m1 : Int), min (t.getD 2 0) (c0 : Int), - ((min (t.getD 3 0).natAbs post : Nat) : Int)]

/-- A lane leaves SERVICE: the frame is noted, and a GO sampled in it is refused after all (R108). -/
def Dev.quitService (d : Dev) (l : Nat) : Dev :=
  let x := d.lane l
  if x.st ≠ .service then d
  else
    let late := x.inj.isSome && x.tInj == d.now + 1
    let d1 := d.onLane l (fun y => { y with tLeft := d.now + 1, inj := if late then none else y.inj })
    if late then d1.raiseAt 2 0xA l l else d1

/-- A lane enters ADAPT with its preset (R95, R98). -/
def Dev.toAdapt (d : Dev) (l : Nat) : Dev :=
  (d.quitService l).onLane l (fun x => { x with
    st := .adapt, taps := d.clampTaps l (presetTaps (d.fld (rl 0 l) 2 3)), run := 0, limited := false, rxEi := false, rxLock := false
    chkLock := false, tAdapt := some d.now, found := 0, headers := (0, []) })

/-- The lanes of a port restart at ADAPT, those in OFF, TEST and FAULT apart. -/
def Dev.retrainPort (d : Dev) (p : Nat) : Dev :=
  ((d.lanesOf p).filter (fun l => ! [LaneSt.off, .test, .fault].contains (d.lane l).st)).foldl (fun x l => x.toAdapt l) d

/-- Lanes of a port that goes down in electrical idle or waking train again. -/
def Dev.idleLanes (d : Dev) (p : Nat) : Dev :=
  ((d.lanesOf p).filter (fun l => (d.lane l).st == .ei || (d.lane l).st == .wake)).foldl (fun x l => x.toAdapt l) d

/-! ## A port leaves UP -/

/-- Parked packets of an ingress port are lost (R354). -/
def Dev.flushParked (d : Dev) (p : Nat) : Dev :=
  (d.pkts.filter (fun k => k.st == .parked && k.ing == some p)).foldl
    (fun x k => x.dropPkt k { cause := .flush, atOut := false, port := p }) d

/-- Basin requests whose completion waits at a port end (R346, R359). -/
def Dev.endCpls (d : Dev) (p : Nat) : Dev :=
  let slots := (d.queue.filter (fun q => q.out == p)).filterMap (fun q => match q.use with | .cpl s => some s | _ => none)
  slots.dedup.foldl (fun x s => x.endReq s p) d

/-- Pattern sources of a port pause; what they presented is presented anew (R509). -/
def Dev.pausePats (d : Dev) (p : Nat) : Dev :=
  (List.range 8).foldl (fun (x : Dev) i =>
    let s := mapGet {} x.pats i
    if s.st = .run ∧ x.fld (patReg 0 i) 0 7 = p then
      ({ x with pats := mapSet {} x.pats i { s with st := .paused } } : Dev).patWithdraw i
    else x) d

/-- The flush of R189 and what goes with it. -/
def Dev.flushPort (d : Dev) (p : Nat) (quar : Bool) : Dev :=
  let d1 := (d.shutBud p).endCpls p
  ((((d1.flushQueue p quar).flushHolds p).flushOrder p).flushParked p).raise 5 5 p

/-- The other port of a remap has its own role again (R121). -/
def Dev.unmap (d : Dev) (p : Nat) : Dev :=
  match (d.port p).role with
  | some q => (d.onPort q (fun x => if x.role = some p then { x with role := none } else x)).onPort p
      (fun x => { x with role := none })
  | none => d

/-- A token of a port ends (R442). -/
def Dev.dropToken (d : Dev) (p : Nat) : Dev :=
  { d with col := { d.col with tokens := d.col.tokens.filter (fun t => t.1 != p) } }

/-- Port `p` enters DOWN, QUAR or DISABLED (R113, R123, R128, R189, R286, R314, R478-R480). In QUAR the link keeps running. -/
def Dev.portLeave (d : Dev) (p : Nat) (st1 : PortSt) (cause : Nat) : Dev :=
  let x := d.port p
  let quar := st1 == .quar
  let up := x.st == .up
  let d1 := if quar then d else d.stompPort p
  let d2 := if quar then d1 else d1.dropReplay p
  let d3 := if up then d2.flushPort p quar else if x.decided then d2.flushHolds p else d2
  let live := (d.launches.filter (fun e => up && d.launchLive e.2)).map (·.1)
  let d4 := ((if up then d3.pausePats p else d3).settleLoss).launchPort p live
  let d5 := if up && d.dir p == 0 then d4.memberDownFan p else d4
  if quar then
    (d5.onPort p (fun y => { y with
      st := .quar, cause := cause, tQuar := d.now, tOut := if up then d.now else y.tOut, due := []
      decided := false, swapWait := none, remapWait := none, missing := if up then false else y.missing })).refreshXoff p
  else
    let d6 := ((if x.st = .quar then d5.dropToken p else d5).unmap p).idleLanes p
    d6.setPort p { st := st1, cause := 0, wasUp := x.wasUp, tOut := if up then d.now else x.tOut, 
                   missing := if up then false else x.missing }

/-- A change of a port's state is due at the next boundary (R113). -/
def Dev.later (d : Dev) (p : Nat) (u : Due) : Dev := d.onPort p (fun x => if u ∈ x.due then x else { x with due := x.due ++ [u] })

/-- A port goes down at the next boundary, where it is not DOWN or DISABLED. -/
def Dev.portDown (d : Dev) (p : Nat) : Dev :=
  if (d.port p).st = .down ∧ (d.port p).due = [] ∨ (d.port p).st = .disabled then d.idleLanes p else d.later p .down

/-- A port goes down and its lanes retrain from ADAPT. -/
def Dev.portFail (d : Dev) (p : Nat) : Dev := (d.portDown p).retrainPort p

/-- The port of a lane goes down, where it has one (R98). -/
def Dev.laneDown (d : Dev) (l : Nat) : Dev :=
  match d.portOf l with
  | some p => d.portDown p
  | none => d

/-- A port's DOWN that is due takes place: what a control action or an activation does to its lanes takes it down in that frame
(R100). -/
def Dev.downNow (d : Dev) (p : Nat) : Dev := if (d.port p).due.contains .down then d.portLeave p .down 0 else d

/-- Raise a LANE condition for a port: every lane of the port holds it (R109, R110). -/
def Dev.raisePort (d : Dev) (c p : Nat) : Dev :=
  (d.lanesOf p).foldl (fun x l => x.holdAt 2 c p l) { d with words := d.words ++ [condWord 2 c p] }

/-! ## Parts in FAULT (R42) -/

/-- A part's state. -/
def Dev.partSt (d : Dev) (pt : Part) : PartSt :=
  match pt with
  | .die i => d.dies.getD i.val .off
  | .stack i => d.hbms.getD i.val .off
  | .bridge i => d.bridges.getD i.val .off

def Dev.setPart (d : Dev) (pt : Part) (v : PartSt) : Dev :=
  match pt with
  | .die i => { d with dies := d.dies.set i.val v }
  | .stack i => { d with hbms := d.hbms.set i.val v }
  | .bridge i => { d with bridges := d.bridges.set i.val v }

end Sys2Proof.Machine
end

