-- ==== Sys2Proof/Machine/Access.lean ====
section
/-! DEFINITION. Who may reach a register: Narrows' refusals of Col writes (R420) and dies that are not UP (R38). -/

namespace Sys2Proof.Machine

/-- Registers whose Col writes Narrows discards (R420). -/
def colProtected (a : Nat) : Bool :=
  let o := off a
  match blk a with
  | 1 => o == 0xC || o == 0x10 || o == 0x14
  | 2 => decide (o < 0x200000) && o % 0x1000 == 0x70
  | 3 => decide (o < 0x200000) && pOff o == 0x14
  | 6 => o == 0x40
  | 0xA => o == 4 || o == 0x40
  | 0xD => o == 8 || o == 0xC
  | 0xE => o != 0x10
  | 0xF => o == 0xC || o == 0x10 || o == 0x14 || o == 0x20
  | 0x11 => decide (o < 0x200000) && pOff o == 0x110
  | _ => false

/-- Lane die of a lane, as a die index. -/
def laneDie (l : Nat) : Nat := 4 + l / 64 % 8

/-- The die a register lies on, beside the Col die (R29, R38): LANE and LINK on lane dies, per-port registers on the port's owner
die, an entry of the Corridor Table on the owner die of its output port, per-die registers on their die, and what the chapters
leave open on CD_0, those of a stack on the core die beside it (log 18). -/
def Dev.accDie (d : Dev) (a : Nat) : Option Nat :=
  let o := off a
  match blk a with
  | 2 => if o < 0x200000 then some (laneDie (o / 0x1000)) else none
  | 3 => if o < 0x200000 then some (laneDie (d.lane0 (pOf o))) else none
  | 9 => some (if 0x100 ≤ o ∧ o < 0x200 then (o - 0x100) / 0x40 else if 0x400000 ≤ o ∧ o < 0x404000 then (o - 0x400000) / 0x1000 else 0)
  | b =>
    if b ≤ 1 ∨ (0xA ≤ b ∧ b ≤ 0xF) ∨ 0x11 < b then none
    else if o < 0x200000 ∧ 0x100 ≤ pOff o then some (d.owner (pOf o))
    else if b = 6 ∧ 0x800000 ≤ o ∧ o < 0x810000 then some (d.owner (d.ct ((o - 0x800000) / 0x10)).outP)
    else if b = 8 ∧ 0x410000 ≤ o ∧ o < 0x414000 then some ((o - 0x410000) / 0x1000)
    else if (b = 5 ∨ b = 7) ∧ 0x400000 ≤ o ∧ o < 0x404000 then some ((o - 0x400000) / 0x1000)
    else some 0

/-- The condition that refuses an access to a register on a die not UP: GLB 04h. -/
def Dev.dieRefusal (d : Dev) (a : Nat) : Option (Nat × Nat × Nat) :=
  match d.accDie a with
  | some k => if d.dies.getD k .off = .up then none else some (0, 4, blk a * 256 + k)
  | none => none

/-- The condition that refuses a write before it reaches its block: BLOCK, COND, DETAIL. -/
def Dev.writeRefusal (d : Dev) (src : Src) (a : Nat) : Option (Nat × Nat × Nat) :=
  if isCol src && colProtected a then some (0xE, 3, blk a * 256) else d.dieRefusal a

/-- A write that its block receives, or its refusal. -/
def Dev.gate (d : Dev) (src : Src) (a : Nat) (f : Dev → Dev) : Dev :=
  match d.writeRefusal src a with
  | some (b, c, det) => (if b = 0xE then d.addSat (ra 0xE 0x14) 1 else d).raise b c det
  | none => f d

end Sys2Proof.Machine
end

