-- ==== Sys2Proof/Machine/Lane.lean ====
section
/-! DEFINITION. Lanes (R76-R110): their states, adaptation, electrical idle, test patterns and injection. -/

namespace Sys2Proof.Machine

/-! ## Control -/

/-- A pattern or loopback code that is not OFF (R105, R106). -/
def patOn (c : Nat) : Bool := decide (1 ≤ c ∧ c ≤ 3)

/-- ENABLE is in force: the data path is in service (R21), a plat is active (R362) and the port is not DISABLED (R113). -/
def Dev.laneEn (d : Dev) (l : Nat) : Bool :=
  d.inService && d.plat.active && d.bit (rl 0 l) 0 && (match d.portOf l with | some p => (d.port p).st != .disabled | none => true)

/-- GEN, CHK or LPBK is not 0 (R98). -/
def Dev.laneTest (d : Dev) (l : Nat) : Bool :=
  patOn (d.fld (rl 0x50 l) 0 3) || patOn (d.fld (rl 0x50 l) 4 3) || decide (1 ≤ d.fld (rl 0 l) 5 2 ∧ d.fld (rl 0 l) 5 2 ≤ 2)

/-- A lane that carries its port: leaving these states takes the port down (R98). -/
def carries (s : LaneSt) : Bool := s == .service || s == .ei || s == .wake

/-- Move a lane to a state; a lane that leaves SERVICE takes its port down. -/
def Dev.moveLane (d : Dev) (l : Nat) (st : LaneSt) : Dev :=
  let was := (d.lane l).st
  let d1 := if st = .adapt then d.toAdapt l
    else (d.quitService l).onLane l (fun x => { x with
      st := st, run := 0, rxEi := if st = .hunt ∨ st = .tune then x.rxEi else false, rxLock := false, found := 0, headers := (0, []) })
  if carries was then d1.laneDown l else d1

/-- The port of a lane goes down in the frame of a control action that took the lane out of SERVICE (R100). -/
def Dev.downLane (d : Dev) (l : Nat) : Dev :=
  match d.portOf l with
  | some p => d.downNow p
  | none => d

/-- The state ENABLE, DISABLE and the test selections give a lane (R98, R99). -/
def Dev.evalLane (d : Dev) (l : Nat) : Dev :=
  let st := (d.lane l).st
  if ! d.laneEn l then (if st = .off then d else d.moveLane l .off)
  else if st = .fault then d
  else if d.laneTest l then (if st = .test then d else d.moveLane l .test)
  else if st = .off ∨ st = .test then d.moveLane l .adapt
  else d

/-- A write of LANE_CTL (R98, R106). -/
def Dev.laneCtlWrite (d : Dev) (l : Nat) (v : Word) : Dev :=
  let d1 := d.wr (rl 0 l) (v &&& 0x00FFFFFD)
  let d2 := if Machine.bit v 1 && d1.laneEn l && (d1.lane l).st != .off then
      (d1.onLane l (fun x => { x with timeouts := 0 })).moveLane l .adapt
    else d1
  (d2.evalLane l).downLane l

/-- LANE_ENABLE (R98). -/
def execLaneEnable (src : Src) (l : BitVec 9) (v : Word) (s : State) : Host.Outcome State Fault Refusal :=
  .next (s.waitFrom src (.laneEnable src l v))

/-- LANE_DISABLE (R98, R100). -/
def execLaneDisable (src : Src) (l : BitVec 9) (v : Word) (s : State) : Host.Outcome State Fault Refusal :=
  .next (s.waitFrom src (.laneDisable src l v))

/-- RETRAIN (R98, R99). -/
def execRetrain (src : Src) (l : BitVec 9) (v : Word) (s : State) : Host.Outcome State Fault Refusal :=
  .next (s.waitFrom src (.retrain src l v))

/-- LOOPBACK_SELECT (R106). -/
def execLoopbackSelect (src : Src) (l : BitVec 9) (v : Word) (s : State) : Host.Outcome State Fault Refusal :=
  .next (s.waitFrom src (.loopbackSelect src l v))

/-! ## Training (R91-R99) -/

/-- EQUALISER_SETTLED (R98): not while LANECLK of the lane's die has stopped (R538). -/
def execEqualiserSettled (l : BitVec 9) (s : State) : Host.Outcome State Fault Refusal :=
  devStep (fun d =>
    if (d.lane l.toNat).st = .adapt ∧ l.toNat / 64 ∉ d.clkDead then
      d.onLane l.toNat (fun x => { x with st := .hunt, sig := true, found := 0 })
    else d) s

/-- The lane is in far-end loopback: its receiver trains and locks within TEST (R106). -/
def Dev.farEnd (d : Dev) (l : Nat) : Bool := (d.lane l).st == .test && d.fld (rl 0 l) 5 2 == 2

/-- The receiver of a lane hunts for lock: in HUNT, on the wake burst, or in far-end loopback (R91, R102, R106). -/
def Dev.rxHunts (d : Dev) (l : Nat) : Bool :=
  let x := d.lane l
  if x.rxEi then x.sig && ! x.rxLock else x.st == .hunt || (d.farEnd l && ! x.rxLock)

/-- The receiver of a lane has lock (R92). -/
def Dev.rxLocked (d : Dev) (l : Nat) : Bool :=
  let x := d.lane l
  if x.rxEi then x.rxLock else x.st == .tune || x.st == .ready || carries x.st || (d.farEnd l && x.rxLock)

/-- A lane acquires lock (R91); an idle receiver, on the wake burst (R102); in far-end loopback, within TEST (R106). -/
def Dev.gainLock (d : Dev) (l : Nat) : Dev :=
  let x := d.lane l
  if x.rxEi ∨ d.farEnd l then d.onLane l (fun y => { y with rxLock := true, headers := (0, []) })
  else if x.st = .hunt then d.onLane l (fun y => { y with st := .tune, run := 0, eqiNew := true, headers := (0, []) })
  else d

/-- LOCK_ACQUIRED (R91). -/
def execLockAcquired (l : BitVec 9) (s : State) : Host.Outcome State Fault Refusal := devStep (fun d => d.gainLock l.toNat) s

/-- A lane loses lock (R92): not while its receiver is in electrical idle; in far-end loopback it hunts anew within TEST. -/
def Dev.loseLock (d : Dev) (l : Nat) : Dev :=
  let x := d.lane l
  let d1 := (d.addSat (rl 0x4C l) 1).raiseAt 2 1 l l
  if x.rxEi then d
  else if x.st = .tune ∨ x.st = .ready ∨ carries x.st then d1.moveLane l .hunt
  else if d.farEnd l ∧ x.rxLock then d1.onLane l (fun y => { y with rxLock := false, found := 0, back := [] })
  else d

/-- LOCK_LOST (R92). -/
def execLockLost (l : BitVec 9) (s : State) : Host.Outcome State Fault Refusal := devStep (fun d => d.loseLock l.toNat) s

/-- EQI_UPDATE (R96, R97): after every window of an active receiver. -/
def execEqiUpdate (l : BitVec 9) (up1 low0 up2 low1 up3 low2 : List (Byte × Nat)) (s : State) : Host.Outcome State Fault Refusal :=
  devStep (fun d =>
    let n := l.toNat
    let x := d.lane n
    if x.st = .off ∨ x.st = .fault then d
    else
      let e := eqiOf (eyeOpen up1 low0) (eyeOpen up2 low1) (eyeOpen up3 low2)
      let ev : BitVec 8 := BitVec.ofNat 8 e
      let low := if x.eqiNew then ev else if e < x.eqiLow.toNat then ev else x.eqiLow
      let d1 := d.onLane n (fun y => { y with eqi := ev, eqiLow := low, eqiNew := false })
      let good := decide (max 96 (d.fld (rl 0 n) 8 8) ≤ e)
      if x.st = .tune then
        (if ! good then d1.onLane n (fun y => { y with run := 0 })
         else if x.run = 0 then d1.onLane n (fun y => { y with run := 1 })
         else d1.onLane n (fun y => { y with st := .ready, run := 0, timeouts := 0, tAdapt := none }))
      else if carries x.st && ! x.rxEi then
        (if good then d1.onLane n (fun y => { y with run := 0 })
         else if x.run = 0 then (d1.onLane n (fun y => { y with run := 1 })).raiseAt 2 5 n n
         else ((d1.raiseAt 2 6 n n).onLane n (fun y => { y with eqiNew := true })).moveLane n .tune)
      else d1) s

/-- Sum of tap magnitudes. -/
def tapSum (t : List Int) : Nat := (t.map Int.natAbs).sum

/-- Taps within R94's ranges and sum. -/
def tapsOk (t : List Int) : Bool :=
  decide (-8 ≤ t.getD 0 0 ∧ t.getD 0 0 ≤ 0 ∧ -16 ≤ t.getD 1 0 ∧ t.getD 1 0 ≤ 0 ∧ 32 ≤ t.getD 2 0 ∧ t.getD 2 0 ≤ 63 ∧
    -24 ≤ t.getD 3 0 ∧ t.getD 3 0 ≤ 0) && decide (tapSum t ≤ 63)

/-- What a TXEQ_REQ does to the taps, and the STATUS answered (R93, R94, R438): a step out of range is not applied, one past
a Narrows limit is clamped to it. -/
def Dev.txeqStep (d : Dev) (l : Nat) (t : List Int) (req : BitVec 16) : List Int × Nat :=
  let tap := req.toNat % 8
  let action := req.toNat / 8 % 4
  if tap = 7 then
    let p := presetTaps (req.toNat / 32 % 8)
    let q := d.clampTaps l p
    (q, if q = p then 1 else 2)
  else if 1 ≤ tap ∧ tap ≤ 4 ∧ (action = 1 ∨ action = 2) then
    let n := t.set (tap - 1) (t.getD (tap - 1) 0 + (if action = 1 then 1 else -1))
    if ! tapsOk n then (t, 2)
    else
      let q := d.clampTaps l n
      if q = n then (n, 1) else (d.clampTaps l t, 2)
  else (t, 1)

/-- TXEQ_REQUEST (R93): each new REQ_ID is answered once, by a lane whose receiver is active. -/
def execTxeqRequest (l : BitVec 9) (req : BitVec 16) (s : State) : Host.Outcome State Fault Refusal :=
  devStep (fun d =>
    let n := l.toNat
    let x := d.lane n
    let id : BitVec 6 := BitVec.ofNat 6 (req.toNat / 256)
    if ! (x.st = .tune ∨ x.st = .ready ∨ (carries x.st ∧ ! x.rxEi)) ∨ x.lastReq = some id then d
    else
      let (t, st) := d.txeqStep n x.taps req
      let a : BitVec 8 := BitVec.ofNat 8 (st * 64 + id.toNat)
      let d1 := (d.onLane n (fun y => { y with taps := t, lastReq := some id, ack := a })).emit (.txAck n a)
      if st = 2 ∧ ! x.limited then (d1.onLane n (fun y => { y with limited := true })).raiseAt 2 0xB n n else d1) s

/-- TRAIN_TIMEOUT (R99): 200,000 frames from the entry to ADAPT; the third in a row places the lane in FAULT. READY, RETRAIN and FAULT
end the run, nothing else does (DESIGN CHOICE, log 92). -/
def execTrainTimeout (l : BitVec 9) (s : State) : Host.Outcome State Fault Refusal :=
  devStep (fun d =>
    let n := l.toNat
    let x := d.lane n
    let late : Bool := match x.tAdapt with | some t => decide (200000 ≤ d.age t) | none => false
    if late ∧ (x.st = .adapt ∨ x.st = .hunt ∨ x.st = .tune) then
      (if 2 ≤ x.timeouts then (d.onLane n (fun y => { y with st := .fault, timeouts := 0 })).raiseAt 2 4 n n
       else ((d.toAdapt n).onLane n (fun y => { y with timeouts := x.timeouts + 1 })).raiseAt 2 3 n n)
    else d) s

/-- A lane's active receiver sees no signal energy (R99). -/
def Dev.loseSignal (d : Dev) (n : Nat) : Dev :=
  let x := d.lane n
  if [LaneSt.off, .test, .fault].contains x.st || x.rxEi then d
  else ((d.raiseAt 2 2 n n).onLane n (fun y => { y with sig := false })).moveLane n .adapt

/-- SIGNAL_LOST (R99). -/
def execSignalLost (l : BitVec 9) (s : State) : Host.Outcome State Fault Refusal :=
  devStep (fun d => d.loseSignal l.toNat) s

/-- LANECLK_LOST (R538): every lane of LD_d loses its signal. -/
def execLaneclkLost (i : BitVec 3) (s : State) : Host.Outcome State Fault Refusal :=
  devStep (fun d =>
    let d1 := { d with clkDead := if i.toNat ∈ d.clkDead then d.clkDead else d.clkDead ++ [i.toNat] }
    ((List.range 64).map (fun k => i.toNat * 64 + k)).foldl (fun x l => x.loseSignal l) d1) s

/-- LANECLK_RETURN (R538). -/
def execLaneclkReturn (i : BitVec 3) (s : State) : Host.Outcome State Fault Refusal :=
  devStep (fun d => { d with clkDead := d.clkDead.filter (· != i.toNat) }) s

/-- PORT_DESKEW (R88): every lane READY, or still in SERVICE after its port went down: the port enters EXCHANGE at the next boundary
(R113); on a receiver that wakes, its lanes are deskewed (R102). -/
def execPortDeskew (p : BitVec 7) (skewNs : Nat) (consistent : Bool) (s : State) : Host.Outcome State Fault Refusal :=
  devStep (fun d =>
    let n := p.toNat
    let ls := d.lanesOf n
    if d.pvalid n ∧ (d.port n).rxWakeAt.isSome ∧ ls.all (fun l => (d.lane l).rxLock) then
      (if 48 < skewNs ∨ ! consistent then d else d.onPort n (fun x => { x with rxDeskew := true }))
    else if ! d.pvalid n ∨ (d.port n).st ≠ .down ∨ ! ls.all (fun l => (d.lane l).st == .ready || (d.lane l).st == .service) then d
    else if 48 < skewNs ∨ ! consistent then (d.raisePort 8 n).retrainPort n
    else
      (ls.foldl (fun (x : Dev) l => x.onLane l (fun y => { y with st := .service, run := 0 })) d).later n .exchange) s

/-! ## Electrical idle (R101-R104) -/

/-- R101: the role, EI_EN on every lane, no corridor, and idle for EI_IDLE frames: for those of every lane (DESIGN CHOICE, log 92). -/
def Dev.eiOk (d : Dev) (p : Nat) : Bool :=
  let ls := d.lanesOf p
  (d.dir p == 0 || d.dir p == 7) && ls.all (fun l => d.bit (rl 0 l) 7 && (d.lane l).st == .service) && ! d.portCorr p &&
  ls.all (fun l => decide (max 1 (d.fld (rl 0 l) 16 8) ≤ (d.port p).idle)) && d.isUp p && ! (d.port p).txEi &&
  ! d.queue.any (fun q => q.out == p) && (d.port p).replay.isEmpty

/-- EI_ENTER (R101, R103). -/
def execEiEnter (p : BitVec 7) (s : State) : Host.Outcome State Fault Refusal :=
  devStep (fun d =>
    let n := p.toNat
    if ! d.eiOk n then d
    else
      let d1 := (d.lanesOf n).foldl (fun (x : Dev) l => x.onLane l (fun y => { y with st := .ei })) d
      ((d1.onPort n (fun x => { x with txEi := true, wakeAt := none, wakeDue := none, eiSend := true })).shutBud n).emit (.idle n)) s

/-- EI_ENTER_RECEIVED (R101, R102). -/
def execEiEnterReceived (p : BitVec 7) (s : State) : Host.Outcome State Fault Refusal :=
  devStep (fun d =>
    let n := p.toNat
    if ! d.pvalid n ∨ ! (d.lanesOf n).all (fun l => carries (d.lane l).st) then d
    else
      let d1 := (d.lanesOf n).foldl
        (fun (x : Dev) l => x.onLane l (fun y => { y with rxEi := true, rxLock := false, sig := false, found := 0 })) d
      d1.onPort n (fun x => { x with rxWakeAt := none, rxDeskew := false })) s

/-- WAKE_START (R103): in a frame after the one in which a packet first found no room. -/
def execWakeStart (p : BitVec 7) (s : State) : Host.Outcome State Fault Refusal :=
  devStep (fun d =>
    let n := p.toNat
    let x := d.port n
    let due : Bool := match x.wakeDue with | some f => decide (f < d.now) | none => false
    if x.txEi ∧ due ∧ x.wakeAt.isNone then
      let d1 := (d.lanesOf n).foldl (fun (y : Dev) l => y.onLane l (fun z => { z with st := .wake })) d
      (d1.onPort n (fun y => { y with wakeAt := some d.now })).emit (.burst n)
    else d) s

/-- WAKE_COMPLETE (R103): at W + 8 the budgets are restored. -/
def execWakeComplete (p : BitVec 7) (s : State) : Host.Outcome State Fault Refusal :=
  devStep (fun d =>
    let n := p.toNat
    match (d.port n).wakeAt with
    | some w =>
      if 8 ≤ d.age w then
        let d1 := (d.lanesOf n).foldl (fun (y : Dev) l => y.onLane l (fun z => { z with st := .service })) d
        (d1.onPort n (fun y => { y with txEi := false, wakeAt := none, wakeDue := none, idle := 0 })).openBud n
      else d
    | none => d) s

/-- WAKE_FAIL (R104): the far receiver did not return the port by W + 8. -/
def execWakeFail (p : BitVec 7) (s : State) : Host.Outcome State Fault Refusal :=
  devStep (fun d =>
    match (d.port p.toNat).wakeAt with
    | some w => if 8 ≤ d.age w then (d.raisePort 9 p.toNat).portFail p.toNat else d
    | none => d) s

/-- RX_WAKE (R102): signal energy returns to an idle receiver. -/
def execRxWake (p : BitVec 7) (s : State) : Host.Outcome State Fault Refusal :=
  devStep (fun d =>
    let n := p.toNat
    if d.pvalid n ∧ (d.lanesOf n).all (fun l => (d.lane l).rxEi) ∧ (d.port n).rxWakeAt.isNone then
      let d1 := (d.lanesOf n).foldl (fun (y : Dev) l => y.onLane l (fun z => { z with sig := true })) d
      d1.onPort n (fun x => { x with rxWakeAt := some d.now, rxDeskew := false })
    else d) s

/-- Every lane of a waking receiver has locked, and they are deskewed (R102). -/
def Dev.rxBack (d : Dev) (p : Nat) : Bool := (d.port p).rxDeskew && (d.lanesOf p).all (fun l => (d.lane l).rxLock)

/-- RX_WAKE_FAIL (R102): not locked and deskewed within 8 frames. -/
def execRxWakeFail (p : BitVec 7) (s : State) : Host.Outcome State Fault Refusal :=
  devStep (fun d =>
    let n := p.toNat
    match (d.port n).rxWakeAt with
    | some t =>
      if 8 ≤ d.age t ∧ ! d.rxBack n then (d.raisePort 9 n).portFail n else d
    | none => d) s

/-- At a boundary RX_EI clears on ports whose lanes have all locked and are deskewed (R102). -/
def Dev.clearRxEi (d : Dev) (p : Nat) : Dev :=
  if (d.port p).rxWakeAt.isSome && d.rxBack p then
    ((d.lanesOf p).foldl (fun (y : Dev) l => y.onLane l (fun z => { z with rxEi := false, rxLock := false })) d).onPort p
      (fun x => { x with rxWakeAt := none, rxDeskew := false })
  else d

/-! ## Test functions (R105-R108) -/

/-- A write of LANE_PAT_CTL (R105): a changed CHK starts the checker afresh, a changed GEN its generator (log 84). -/
def Dev.patCtlWrite (d : Dev) (l : Nat) (v : Word) : Dev :=
  let same := Machine.fld v 4 3 == d.fld (rl 0x50 l) 4 3
  let gen := Machine.fld v 0 3
  let d0 := if gen = d.fld (rl 0x50 l) 0 3 then d else d.onLane l (fun x => { x with gen := if gen = 3 then 0 else 1 })
  let d1 := ((d0.wr (rl 0x50 l) (v &&& 0x77)).evalLane l).downLane l
  if same then d1 else d1.onLane l (fun x => { x with chkLock := false })

/-- PATTERN_GENERATOR_SET (R105). -/
def execPatternGeneratorSet (src : Src) (l : BitVec 9) (v : Word) (s : State) : Host.Outcome State Fault Refusal :=
  .next (s.waitFrom src (.patternGeneratorSet src l v))

/-- PATTERN_CHECKER_SET (R105). -/
def execPatternCheckerSet (src : Src) (l : BitVec 9) (v : Word) (s : State) : Host.Outcome State Fault Refusal :=
  .next (s.waitFrom src (.patternCheckerSet src l v))

/-- The checker runs. -/
def Dev.checking (d : Dev) (l : Nat) : Bool := (d.lane l).st == .test && patOn (d.fld (rl 0x50 l) 4 3)

/-- CHK_LOCK (R105). -/
def execChkLock (l : BitVec 9) (s : State) : Host.Outcome State Fault Refusal :=
  devStep (fun d => if d.checking l.toNat then d.onLane l.toNat (fun x => { x with chkLock := true }) else d) s

/-- The 64 bits of LANE_PAT_USER (R105). -/
def Dev.userBits (d : Dev) (l : Nat) : Nat := (d.rd (rl 0x54 l)).toNat + 2 ^ 32 * (d.rd (rl 0x58 l)).toNat

/-- CHECKER_RESEED (R105): the symbols compared since the last count, and those that differ, are added; CHK_LOCK stays (DESIGN CHOICE,
log 92). -/
def execCheckerReseed (l : BitVec 9) (rx : List (BitVec 2)) (seed : BitVec 31) (s : State) : Host.Outcome State Fault Refusal :=
  devStep (fun d =>
    let n := l.toNat
    let own := (patternRun (d.fld (rl 0x50 n) 4 3) (d.userBits n) rx.length seed.toNat).1
    let errs := ((List.zip rx own).filter (fun e => e.1 != e.2)).length
    if d.checking n && (d.lane n).chkLock then (d.add64 (rl 0x68 n) rx.length).add64 (rl 0x60 n) errs else d) s

/-- A write of LANE_INJ_CTL (R107, R108). MODE 00b ends an injection, a finite one too, and a GO with it injects nothing (DESIGN
CHOICE, log 92). -/
def Dev.injCtlWrite (d : Dev) (l : Nat) (v : Word) : Dev :=
  let d1 := d.wr (rl 0x70 l) (v &&& 0x00FF1F03)
  let mode := Machine.fld v 0 2
  let d2 := if mode = 0 then d1.onLane l (fun x => { x with inj := none }) else d1
  if ! Machine.bit v 31 then d2
  else
    let st := (d2.lane l).st
    let en := match d2.portOf l with | some p => d2.bit (rp 0x11 0x100 p) 2 | none => false
    if ! (st = .service ∨ st = .test) ∨ (d2.lane l).tLeft = d2.now + 1 ∨ (st = .service ∧ ! en) ∨ (st = .test ∧ 2 ≤ mode) then d2.raiseAt 2 0xA l l
    else
      let rep := Machine.fld v 16 8
      (d2.wr (rl 0x74 l) 0).onLane l (fun x => { x with
        tInj := d2.now + 1
        inj := if mode = 0 then none else some (if rep = 0 then none else some rep) })

/-- LANE_INJ_GO (R107, R108). -/
def execLaneInjGo (src : Src) (l : BitVec 9) (v : Word) (s : State) : Host.Outcome State Fault Refusal :=
  .next (s.waitFrom src (.laneInjGo src l v))

/-- LANE_INJ_END (R107): what is left of REPEAT codewords has been corrupted, in this frame. -/
def execLaneInjEnd (l : BitVec 9) (s : State) : Host.Outcome State Fault Refusal :=
  devStep (fun d =>
    match (d.lane l.toNat).inj with
    | some (some n) => (d.addSat (rl 0x74 l.toNat) n).onLane l.toNat (fun x => { x with inj := none, injOwed := x.injOwed + n })
    | _ => d) s

end Sys2Proof.Machine
end

