-- ==== Sys2Proof/Machine/Link.lean ====
section
/-! DEFINITION. Links (R111-R141, R53): identity, the way up, quarantine, retry, flow control fields, violations. -/

namespace Sys2Proof.Machine

/-- A port that sends and acts on sideband fields (R114). -/
def linked (s : PortSt) : Bool := s == .exchange || s == .check || s == .up || s == .quar

/-- The port processes received cells as in UP (R113, R120). -/
def takesCells (x : Port) : Bool := x.st == .up || (x.st == .check && x.decided)

/-- A link control block waits for its place in the port's stream (R111, R133). -/
def Dev.sendCtl (d : Dev) (p : Nat) (payload : Nat) : Dev := d.onPort p (fun x => { x with ctlBlocks := x.ctlBlocks ++ [payload] })

/-- The first waiting link control block enters the stream, where 63 block slots lie behind the last one (R133). -/
def Dev.putCtl (d : Dev) (p : Nat) : Dev :=
  let x := d.port p
  match x.ctlBlocks with
  | b :: rest =>
    if x.sinceCtl < 63 then d
    else (d.setPort p { x with ctlBlocks := rest, stream := x.stream ++ [.blk (ctlBlk b)], sinceCtl := 0 }).emit (.linkCtl p b)
  | [] => d

/-! ## Violations (R136, R137) -/

/-- A violation by the partner: counted, raised, announced once per code and frame, and counted toward quarantine. On an
EMU_CHECK port it is recorded instead of raised, and never quarantines (R516). -/
def Dev.violation (d : Dev) (p code : Nat) (pk : Option Packet) : Dev :=
  let x := d.port p
  let w := condWord 3 0xC (code * 256 + p)
  let d1 := d.addSat (rp 3 0x70 p) 1
  let d2 := if d1.emuRole p = 2 then d1.check p w pk else d1.raiseAt 3 0xC (code * 256 + p) p
  let n := x.violCount + b2n (x.st == .up && d1.emuRole p != 2)
  let d3 := d2.onPort p (fun y => { y with violCount := n, protoSent := if code ∈ y.protoSent then y.protoSent else y.protoSent ++ [code] })
  let d4 := if code ∈ x.protoSent then d3
    else d3.sendCtl p (protoErrBlk code n d.fno (x.st == .quar))
  let lim := d.fld (rp 3 0xC (d.role p)) 0 8
  if x.st = .up ∧ d1.emuRole p ≠ 2 ∧ lim ≠ 0 ∧ n = lim then
    (d4.later p (.quar 6)).raiseAt 3 0xD (min n 255 * 256 + p) p
  else d4

/-! ## Identity and delay (R112, R115, R505) -/

/-- The IDENT the port sends. -/
def Dev.ownIdent (d : Dev) (p : Nat) : Ident :=
  let emu := d.isEmu p
  let l0 : BitVec 9 := BitVec.ofNat 9 (d.lane0 p)
  { dir := if emu then 0 else BitVec.ofNat 3 (d.dir p), roleLane0 := if emu then l0 else BitVec.ofNat 9 (d.lane0 (d.role p))
    lane0 := l0, trayPos := BitVec.ofNat 2 d.trayPos, coord := if emu ∨ ! d.coordV then 0 else d.coord, fwVer := d.col.fwVer
    lproto := Config.lproto, part := 0x9464, vendor := 0x1A57
    serial := if emu then BitVec.ofNat 64 (d.rd64 (rp 0x11 0x108 (d.role p))) else Config.serial
    remap := (d.port p).role.isSome, coordV := ! emu && d.coordV
    stomp := if emu then d.bit (rp 0x11 0x104 (d.role p)) 16 else true, switch := ! emu }

/-- Expectation of a role (R389): word 0 and SERIAL. -/
def Dev.nb (d : Dev) (r : Nat) : Word := d.rd (rp 0xA 0x110 r)
def Dev.nbSerial (d : Dev) (r : Nat) : Nat := d.rd64 (rp 0xA 0x118 r)

/-- The opposite direction. -/
def oppDir (g : Nat) : Nat := if g % 2 = 1 then g + 1 else g - 1

/-- A partner matches the expectation of role `r` (R118). -/
def Dev.matchesRole (d : Dev) (i : Ident) (r : Nat) : Bool :=
  let w := d.nb r
  let g := d.fld (rp 6 0x100 r) 0 3
  if 1 ≤ g ∧ g ≤ 6 then
    i.switch && i.coordV && i.coord.toNat == Machine.fld w 0 12 && i.roleLane0.toNat == Machine.fld w 12 9 &&
      i.dir.toNat == oppDir g
  else i.switch == Machine.bit w 29 && (! Machine.bit w 28 || i.serial.toNat == d.nbSerial r)

/-- Send the abort words kept for a port (R290, R326). -/
def Dev.sendPend (d : Dev) (p : Nat) : Dev :=
  let go (w : Nat) : Word := BitVec.ofNat 32 (w / 2 ^ 32)
  let d1 := if d.bit (rp 7 0x100 p) 31 then
      let w := d.rd64 (rp 7 0x108 p)
      let g := w / 65536 % 65536
      let (af, ln) := mapGet (0, 0) d.pend (2 * p)
      let x := (d.setBit (rp 7 0x100 p) 31 false)
      x.send 0x24 0 (x.gt g).slice (x.fld (rp 7 0x100 p) 0 16) 0
        (abortUnit (go w) g af ln 0)
    else d
  if d1.bit (rp 8 0x108 p) 0 then
    let w := d1.rd64 (rp 8 0x100 p)
    let id := w / 65536 % 65536
    let (af, sl) := mapGet (0, 0) d1.pend (2 * p + 1)
    let x := d1.setBit (rp 8 0x108 p) 0 false
    x.send 0x34 0 sl (x.fld (rp 7 0x100 p) 0 16) 0
      (unit64 [(0, 2, id), (6, 1, 3), (16, 8, w), (24, 6, af)])
  else d1

/-- A port enters UP from CHECK (R119, R120): its transmit state starts afresh, its budgets are set (R190), and a pending
abort word goes out first (R290, R326). The round robin begins at its first class with no deficit, and the count of violations at 0
(DESIGN CHOICE, log 93). -/
def Dev.enterUp (d : Dev) (p : Nat) : Dev :=
  let d1 := d.onPort p (fun x => { x with
    st := .up, wasUp := true, missing := false, sndRseq := 0, txTag := 0, rxXoff := 0, replay := [], served := none, badTags := [], unsure := []
    rr := 0, visiting := false, deficit := [0, 0, 0, 0, 0], vcLast := [0, 0, 0, 0, 0], idle := 0, violCount := 0
    swapWait := none, remapWait := none })
  (d1.openBud p).sendPend p

/-- A port leaves QUAR for UP with its receive and transmit state as they stand (R120, R123), and no violations counted (log 93). -/
def Dev.resumeUp (d : Dev) (p : Nat) : Dev :=
  let d1 := (d.dropToken p).onPort p (fun x => { x with
    st := .up, cause := 0, wasUp := true, missing := false, violCount := 0, idle := 0 })
  (d1.openBud p).sendPend p

/-- Decide UP (R117, R120). -/
def Dev.decideUp (d : Dev) (p : Nat) : Dev :=
  let x := d.port p
  let diff := match x.ident with | some i => i.switch && i.fwVer != d.col.fwVer | none => false
  let d1 := if diff then
      d.raiseAt 3 0xB ((match x.ident with | some i => i.fwVer.toNat / 2 ^ 24 | none => 0) * 256 + p) p
    else d
  let d2 := d1.onPort p (fun y => { y with
    decided := true, tDecide := d.now, ackRseq := 0, rxTag := 0, rxNext := 0, rxSeen := 0, rxBlocks := 0, reqOpen := false, reqFor := none
    txXoff := 0, fwDiff := diff, swapWait := none, remapWait := none, columns := 0 })
  if x.upReady then d2.enterUp p else d2

/-- Quarantine from the checks. -/
def Dev.quarantine (d : Dev) (p cause cond det : Nat) : Dev := (d.raiseAt 3 cond (det * 256 + p) p).portLeave p .quar cause

/-- Both ports of a swapped pair are quarantined (R121). -/
def Dev.quarPair (d : Dev) (p q : Nat) : Dev := (d.quarantine p 3 7 q).quarantine q 3 7 p

/-- The outcome of a swapped pair (R121). -/
def Dev.swapPair (d : Dev) (p q : Nat) : Dev :=
  let sw (r : Nat) : Bool := d.pSwitch r
  let plus (r : Nat) : Bool := d.dir r == 1 || d.dir r == 3 || d.dir r == 5
  let minus (r : Nat) : Bool := d.dir r == 2 || d.dir r == 4 || d.dir r == 6
  let base := d.bit (rp 3 8 p) 8 && d.bit (rp 3 8 q) 8 && d.wcode p == d.wcode q && ! d.portCorr p && ! d.portCorr q
  if base && ((! sw p && ! sw q) || (plus p && plus q)) then
    let d1 := (d.onPort p (fun x => { x with role := some q })).onPort q (fun x => { x with role := some p })
    let d2 := (d1.raiseAt 3 8 (q * 256 + p) p).raiseAt 3 8 (p * 256 + q) q
    (d2.decideUp p).decideUp q
  else if base && sw p && sw q && minus p && minus q then
    (d.onPort p (fun x => { x with remapWait := some q, swapWait := none, tCheck := d.now })).onPort q
      (fun x => { x with remapWait := some p, swapWait := none, tCheck := d.now })
  else d.quarPair p q

/-- The port whose expectation the partner of `p` meets, other than `p`'s: the lowest of several (DESIGN CHOICE, log 93). -/
def Dev.swapOf (d : Dev) (p : Nat) (i : Ident) : Option Nat :=
  d.validPorts.find? (fun q => q != p && Machine.bit (d.nb q) 31 && d.matchesRole i q &&
    ((d.port q).st == .exchange || (d.port q).st == .check))

/-- What a failed test of R117 gives: QCAUSE, LINK condition, DETAIL [15:8]; 2h is what test 4 gives. -/
def Dev.linkTest (d : Dev) (p : Nat) (i : Ident) (delay : Nat) : Option (Nat × Nat × Nat) :=
  let r := d.role p
  if 256 < delay then some (5, 0xA, min 255 (delay / 4))
  else if i.lproto.toNat / 256 ≠ Config.lproto.toNat / 256 ∨ i.lproto.toNat % 256 < d.fld (rp 3 8 r) 0 8 then
    some (4, 9, i.lproto.toNat / 256)
  else if ! Machine.bit (d.nb r) 31 then some (1, 4, 0)
  else if ! d.matchesRole i r then some (2, 5, 0)
  else none

/-- A port that fails test 4 with no pair is quarantined as WRONG (R117). -/
def Dev.wrong (d : Dev) (p : Nat) : Dev := d.quarantine p 2 5 0

/-- Port `p` fails test 4 (R121): with a port that waits for it, or one that has evaluated and waits too, it forms a pair; toward one still
in EXCHANGE it waits. -/
def Dev.swapCheck (d : Dev) (p : Nat) (i : Ident) (waits : List Nat) : Dev :=
  match waits.find? (fun r => d.matchesRole i r) with
  | some r => d.swapPair r p
  | none =>
    match d.swapOf p i with
    | none => d.wrong p
    | some q => if (d.port q).st = .exchange then d.onPort p (fun x => { x with swapWait := some q }) else d.wrong p

/-- The evaluation in CHECK (R117, R121); a port that waited for this one and forms no pair with it takes its own outcome then. -/
def Dev.linkCheck (d : Dev) (p : Nat) (i : Ident) (delay : Nat) : Dev :=
  let waits := d.validPorts.filter (fun r => (d.port r).st == .check && (d.port r).swapWait == some p)
  let d1 := match d.linkTest p i delay with
    | none => d.decideUp p
    | some (2, _, _) => d.swapCheck p i waits
    | some (cause, c, det) => d.quarantine p cause c det
  (waits.filter (fun r => (d1.port r).swapWait == some p)).foldl (fun (x : Dev) r => x.wrong r) d1

/-- EXCHANGE is held: R115's last paragraph. -/
def Dev.exchWaits (d : Dev) (p : Nat) : Bool :=
  d.isTorus p && (! d.coordV ||
  (match (d.port p).ident with | some i => i.switch && ! i.coordV | none => false))

/-- IDENT_RECEIVED (R112, R115, R121, R122): the block's payload; what it makes of a waiting port's test 4 is seen at the next boundary. -/
def execIdentReceived (p : BitVec 7) (b : BitVec 256) (s : State) : Host.Outcome State Fault Refusal :=
  devStep (fun d =>
    let n := p.toNat
    let x := d.port n
    let i := identOf b
    match x.st with
    | .exchange => d.onPort n (fun y => { y with cand := some i, ident := if x.cand = some i then some i else y.ident })
    | .down => d
    | .disabled => d
    | st =>
      match x.ident with
      | none => d
      | some j =>
        if i = j then d
        else if st = .check ∧ i.remap ∧ ! x.remapSeen ∧ i.roleLane0 ≠ j.roleLane0 ∧
            ({ i with roleLane0 := j.roleLane0, remap := j.remap } : Ident) = j then
          let d1 := d.onPort n (fun y => { y with ident := some i, remapSeen := true })
          if x.remapWait.isSome then d1.later n .check else d1
        else d.violation n 4 none) s

/-- TIME_PROBE (R115): answered with a TIME_REPLY. -/
def execTimeProbe (p : BitVec 7) (i : BitVec 3) (turnaround : BitVec 16) (s : State) : Host.Outcome State Fault Refusal :=
  devStep (fun d => if linked (d.port p.toNat).st then d.sendCtl p.toNat (replyBlk i.toNat turnaround.toNat) else d) s

/-- TIME_REPLY (R115): with all eight round trips LINK_DELAY is known. -/
def execTimeReply (p : BitVec 7) (i : BitVec 3) (cycles turnaround : Nat) (s : State) : Host.Outcome State Fault Refusal :=
  devStep (fun d =>
    let n := p.toNat
    let x := d.port n
    if x.st ≠ .exchange ∨ x.ident.isNone then d
    else
      let t := mapPut x.trips i.toNat (cycles - turnaround)
      let m := (t.map (·.2)).foldl min (cycles - turnaround)
      d.onPort n (fun y => { y with trips := t, delay := if t.length = 8 then some (cdiv m 2) else y.delay })) s

/-- Identity and delay are established, and nothing holds the port in EXCHANGE (R115). -/
def Dev.canCheck (d : Dev) (p : Nat) : Bool :=
  let x := d.port p
  x.st == .exchange && x.ident.isSome && x.delay.isSome && ! d.exchWaits p

/-- PORT_CHECK (R115, R117): the port enters CHECK at the next boundary. -/
def execPortCheck (p : BitVec 7) (s : State) : Host.Outcome State Fault Refusal :=
  devStep (fun d => if d.canCheck p.toNat then d.later p.toNat .check else d) s

/-- A port enters CHECK and is evaluated, or one that waits for its partner's remap runs test 4 again (R117, R121). -/
def Dev.checkNow (d : Dev) (p : Nat) : Dev :=
  let x := d.port p
  match x.ident, x.delay with
  | some i, some t =>
    if x.st = .exchange then
      (d.onPort p (fun y => { y with st := .check, tCheck := d.now, columns := 0 })).linkCheck p i t
    else if x.st = .check ∧ x.remapWait.isSome ∧ (d.linkTest p i t).isNone then d.decideUp p
    else d
  | _, _ => d

/-- SWAP_WAIT_EXPIRE (R121): both ports enter QUAR; the other one of a wait for an evaluation where it is still to come. -/
def execSwapWaitExpire (p : BitVec 7) (s : State) : Host.Outcome State Fault Refusal :=
  devStep (fun d =>
    let n := p.toNat
    let x := d.port n
    let q := match x.swapWait with | some q => some q | none => x.remapWait
    match q with
    | none => d
    | some q =>
      if x.st ≠ .check ∨ d.age x.tCheck < 8000 then d
      else
        let y := d.port q
        if y.st = .exchange ∨ (y.st = .check ∧ ! y.decided) then (d.later n (.swapped q)).later q (.swapped n) else d.later n (.swapped q)) s

/-- EXCHANGE_TIMEOUT (R116). -/
def execExchangeTimeout (p : BitVec 7) (s : State) : Host.Outcome State Fault Refusal :=
  devStep (fun d =>
    let n := p.toNat
    let x := d.port n
    if x.st = .exchange ∧ x.tWaited + 8000 ≤ d.age x.tExch then (d.raiseAt 3 3 n n).portFail n else d) s

/-- UP_READY (R119): a port that has decided enters UP at the next boundary. -/
def execUpReady (p : BitVec 7) (s : State) : Host.Outcome State Fault Refusal :=
  devStep (fun d =>
    let n := p.toNat
    let x := d.port n
    if x.st = .exchange ∨ x.st = .check then
      let d1 := d.onPort n (fun y => { y with upReady := true })
      if x.st = .check ∧ x.decided then d1.later n .up else d1
    else d) s

/-- UP_READY_TIMEOUT (R119). -/
def execUpReadyTimeout (p : BitVec 7) (s : State) : Host.Outcome State Fault Refusal :=
  devStep (fun d =>
    let n := p.toNat
    let x := d.port n
    if x.st = .check ∧ x.decided ∧ 8000 ≤ d.age x.tDecide then (d.raiseAt 3 3 n n).portFail n else d) s

/-- NB_MISSING (R120, R390): once for each occurrence. -/
def execNbMissing (p : BitVec 7) (s : State) : Host.Outcome State Fault Refusal :=
  devStep (fun d =>
    let n := p.toNat
    let x := d.port n
    if Machine.bit (d.nb (d.role n)) 31 ∧ x.st ≠ .up ∧ ! x.missing ∧ 640000 ≤ d.age x.tOut then
      (d.raiseAt 3 6 n n).onPort n (fun y => { y with missing := true })
    else d) s

/-- Narrows holds a token for the port and cause, valid from the boundary after its check (R442). -/
def Dev.tokenOk (d : Dev) (p cause : Nat) : Bool :=
  d.col.tokens.any (fun t => t.1 == p && t.2.1 == cause && decide (d.fno ≤ t.2.2.1) && decide (t.2.2.2 < d.fno))

/-- An activation of a plat is due in this frame (R141); a test instruction of the TAP holds it (R521). -/
def Dev.actDue (d : Dev) : Bool :=
  match d.plat.act with
  | some a => decide (a.t = if a.first then d.now else d.fno) && ! d.tapHeld
  | none => false

/-- An activation of routing is due in this frame; as above. -/
def Dev.ractDue (d : Dev) : Bool := match d.ract with | some a => decide (a.t = d.fno) && ! d.tapHeld | none => false

/-- A LINK_QCLR with its CAUSE is tested (R123); one on a port not in QUAR is refused too (DESIGN CHOICE, log 93). -/
def Dev.qclrTest (d : Dev) (n c : Nat) : Dev :=
  let x := d.port n
  if x.st ≠ .quar ∨ c ≠ x.cause ∨ x.cause = 4 ∨ x.cause = 5 ∨ (x.cause ≤ 3 ∧ ! d.tokenOk n c) ∨ x.tQuar = d.now then
    d.raiseAt 3 0xE (c * 256 + n) n
  else (d.dropToken n).later n .up

/-- A write of LINK_QCLR (R123); in the frame of an activation it is tested after it (R141). -/
def Dev.qclr (d : Dev) (n : Nat) (v : Word) : Dev :=
  let c := Machine.fld v 0 4
  if ! Machine.bit v 31 then d else if d.actDue then d.onPort n (fun x => { x with qclrHeld := some c }) else d.qclrTest n c

/-- The LINK_QCLRs held for an activation are tested (R141). -/
def Dev.qclrAll (d : Dev) : Dev :=
  (d.ports.filterMap (fun e => e.2.qclrHeld.map (fun c => (e.1, c)))).foldl (fun (x : Dev) e =>
    (x.onPort e.1 (fun y => { y with qclrHeld := none })).qclrTest e.1 e.2) d

/-- LINK_QCLR (R123). -/
def execLinkQclr (src : Src) (p : BitVec 7) (v : Word) (s : State) : Host.Outcome State Fault Refusal :=
  .next (s.waitFrom src (.linkQclr src p v))

/-- A write of LINK_CTL (R113). -/
def Dev.linkCtlWrite (d : Dev) (n : Nat) (v : Word) : Dev :=
  let d1 := d.wr (rp 3 0 n) (v &&& 1)
  let st := (d1.port n).st
  if Machine.bit v 0 then
    (if st = .disabled then d1
     else (d1.lanesOf n).foldl (fun x l => x.evalLane l) (d1.portLeave n .disabled 0))
  else if st = .disabled then
    (d1.lanesOf n).foldl (fun x l => x.evalLane l) (d1.onPort n (fun y => { y with st := .down }))
  else d1

/-- PORT_DISABLE (R113, R189). -/
def execPortDisable (src : Src) (p : BitVec 7) (s : State) : Host.Outcome State Fault Refusal :=
  .next (s.waitFrom src (.portDisable src p))

/-- PORT_ENABLE (R113). -/
def execPortEnable (src : Src) (p : BitVec 7) (s : State) : Host.Outcome State Fault Refusal :=
  .next (s.waitFrom src (.portEnable src p))

/-! ## Retry (R124-R127) -/

/-- Position of the first cell not acknowledged by an ACK_RSEQ, where the sender holds it or it is the next. -/
def ackPos (x : Port) (ack : BitVec 12) : Option Nat :=
  match x.replay.findIdx? (fun c => c.rseq == ack) with
  | some i => some i
  | none => if ack = x.sndRseq then some x.replay.length else none

/-- Free acknowledged cells (R125). -/
def Dev.ackTo (d : Dev) (p : Nat) (ack : BitVec 12) : Dev :=
  match ackPos (d.port p) ack with
  | some i => if i = 0 then d else d.onPort p (fun x => { x with replay := x.replay.drop i, fullSeen := false })
  | none => d

/-- The eight data blocks of cell `i` of a packet (R87, R143): its 256 bytes in order, with padding after the tail. -/
def cellBlocks (pk : Packet) (i : Nat) : List Block :=
  let cell := padTo 256 (((pktBytes pk ++ pk.pad).drop (256 * i)).take 256)
  (List.range 8).map (fun k => dataBlk (BitVec.ofNat 256 (leNat ((cell.drop (32 * k)).take 32))))

/-- Split a stream for a replay (R127): what is left of the cell in progress, of `left` blocks; the link control blocks not yet laid
out, by payload; and the number of data blocks taken out. -/
def splitStream : Nat → List TxItem → List TxItem × List Nat × Nat
  | _, [] => ([], [], 0)
  | left, .start _ :: l => splitStream left l
  | left, .blk b :: l =>
    if ! isData b then
      let r := splitStream left l
      (r.1, b.2.toNat :: r.2.1, r.2.2)
    else match left with
      | 0 => let r := splitStream 0 l; (r.1, r.2.1, r.2.2 + 1)
      | n + 1 => let r := splitStream n l; (.blk b :: r.1, r.2)

/-- Data blocks in a stream. -/
def streamData (l : List TxItem) : Nat := (l.filter (fun i => match i with | .blk b => isData b | .start _ => false)).length

/-- A sender decodes a REQ (R127): the cell in progress is completed, START and the cells from ACK_RSEQ follow under new tags, in which
those of which nothing was sent yet have no share; link control blocks not sent wait again. A cell whose verdict was bad is named again, one without a verdict awaits it. -/
def Dev.reqIn (d : Dev) (p : Nat) (ack : BitVec 12) (id : BitVec 6) : Dev :=
  let x := d.port p
  if x.served = some id then d
  else
    match ackPos x ack with
    | none => d.violation p 3 none
    | some _ =>
      let d1 := d.ackTo p ack
      let y := d1.port p
      let (rest, ctl, cut) := splitStream (streamData y.stream % 8) y.stream
      let unsent := cut / 8
      let t0 := y.txTag - BitVec.ofNat 12 unsent
      let cells := y.replay.zipIdx.map (fun c => { c.1 with tag := t0 + BitVec.ofNat 12 c.2 })
      let bad := (cells.filter (·.bad)).map (·.tag)
      let due := cells.filter (fun c => ! c.bad && d.pkts.any (fun k => k.id == c.pid && ! k.conf))
      let d2 := d1.onPort p (fun z => { z with
        served := some id, ctlBlocks := ctl ++ z.ctlBlocks, sinceCtl := 8 * cells.length, replay := cells, txTag := t0 + BitVec.ofNat 12 cells.length, badTags := z.badTags ++ bad
        unsure := z.unsure.filter (fun u => decide (unsent ≤ (y.txTag - 1 - u.1).toNat)) ++ due.map (fun c => (c.tag, c.pid))
        stream := rest ++ .start id :: cells.flatMap (fun c => (cellBlocks c.pk c.idx).map .blk) })
      (d2.add64 (rp 3 0x58 p) (cells.length - unsent)).emit (.start p id cells)

/-- Issue a REQ with a new REQ_ID (R126): at the fourth with one ACK_RSEQ the port goes down. -/
def Dev.issueReq (d : Dev) (p : Nat) (ack : BitVec 12) : Dev :=
  let x := d.port p
  let id := x.reqId + 1
  let tries := if x.reqFor = some ack then x.reqTries + 1 else 1
  let d1 := ((d.onPort p (fun y => { y with
    reqAck := ack, reqId := id, reqOpen := true, resumed := false, reqTries := tries, reqFor := some ack, reqAt := d.now })).add64
      (rp 3 0x50 p) 1).emit (.req p ack id)
  if 4 ≤ tries then (d1.raiseAt 3 1 p p).portFail p else d1

/-- Tag and RSEQ of the next packet's first cell where a replay begins. -/
def Port.atStart (x : Port) : Port := { x with ackRseq := x.reqAck, rxBlocks := 0, rxTag := x.rxSeen + (x.rxNext - x.reqAck) }

/-- A receiver decodes a START (R124, R126, R136). -/
def Dev.startIn (d : Dev) (p : Nat) (id : BitVec 6) : Dev :=
  let x := d.port p
  if x.reqOpen ∧ x.reqId = id then
    d.onPort p (fun y => { (if y.resumed then y else y.atStart) with reqOpen := false, resumed := false })
  else (d.violation p 3 none).issueReq p x.ackRseq

/-- RETRY_REQ_RECEIVED (R127). -/
def execRetryReqReceived (p : BitVec 7) (ack : BitVec 12) (id : BitVec 6) (s : State) : Host.Outcome State Fault Refusal :=
  devStep (fun d => if linked (d.port p.toNat).st then d.reqIn p.toNat ack id else d) s

/-- RETRY_START_RECEIVED (R124, R126). -/
def execRetryStartReceived (p : BitVec 7) (id : BitVec 6) (s : State) : Host.Outcome State Fault Refusal :=
  devStep (fun d => if linked (d.port p.toNat).st then d.startIn p.toNat id else d) s

/-- REQ_TIMEOUT (R126): the fourth REQ_ID with one ACK_RSEQ takes the port down. -/
def execReqTimeout (p : BitVec 7) (s : State) : Host.Outcome State Fault Refusal :=
  devStep (fun d =>
    let n := p.toNat
    let x := d.port n
    if x.reqOpen ∧ 8 ≤ d.age x.reqAt then d.issueReq n x.reqAck else d) s

/-- ACK_RECEIVED (R125). -/
def execAckReceived (p : BitVec 7) (ack : BitVec 12) (s : State) : Host.Outcome State Fault Refusal :=
  devStep (fun d => if linked (d.port p.toNat).st then d.ackTo p.toNat ack else d) s

/-- PROTO_ERR_RECEIVED (R138). -/
def execProtoErrReceived (p : BitVec 7) (code : Byte) (s : State) : Host.Outcome State Fault Refusal :=
  devStep (fun d => if linked (d.port p.toNat).st then d.raiseAt 3 0xF (code.toNat * 256 + p.toNat) p.toNat else d) s

/-! ## Columns (R81, R83, R90-R92, R126) -/

/-- Count a lane's codeword (R81, R83): the symbols corrected, none where it is uncorrectable, and the blocks discarded. -/
def Dev.countCw (d : Dev) (l : Nat) (syms : Option Nat) (bad : Nat) : Dev :=
  let d1 := d.add64 (rl 0x20 l) 1
  match syms with
  | none => d1.add64 (rl 0x38 l) 1
  | some n =>
    let d2 := if n = 0 then d1 else (d1.add64 (rl 0x28 l) 1).add64 (rl 0x30 l) n
    if bad = 0 then d2 else d2.addSat (rl 0x48 l) bad

/-- What a lane's receiver makes of a codeword: its blocks, and its sideband word where it is usable. -/
abbrev LaneIn := List Block × Option (BitVec 238)

/-- A lane receives a codeword (R80, R81, R91, R92, R106): in HUNT its headers are tested; with lock it is decoded, counted, its headers
watched. -/
def Dev.laneIn (d : Dev) (l : Nat) (w : BitVec 5440) : Dev × LaneIn :=
  let x := d.lane l
  if d.rxHunts l then
    let hs := headersOf w
    let d1 := d.onLane l (fun y => { y with rxScr := (openWord x.rxScr w).2.2, found := lockRun x.found hs })
    (if (List.range 20).any (fun i => decide (64 ≤ lockRun x.found (hs.take i))) then d1.gainLock l else d1, [], none)
  else if ! d.rxLocked l then (d, [], none)
  else
    let got := rsDecode w
    let v := match got with | some r => r.1 | none => w
    let (blks, lsw, scr) := openWord x.rxScr v
    let hs := headerRun x.headers (headersOf v)
    let d1 := (d.countCw l (got.map (·.2)) (blks.filter blkBad).length).onLane l (fun y => { y with rxScr := scr, headers := hs })
    let d2 := if d1.farEnd l then
        d1.onLane l (fun y => { y with back := y.back ++ blks.filter (fun b => ! isFill b), backLsw := if got.isSome then lsw else y.backLsw })
      else d1
    (if 32 ≤ hs.2.length then d2.loseLock l else d2, blks, got.map (fun _ => lsw))

/-- A packet of a link whose first cells are discarded leaves the device: a stomp where it was forwarded, else it is withdrawn (R126). -/
def Dev.withdraw (d : Dev) (k : Pkt) : Dev :=
  if k.st == .taken || d.queue.any (fun q => q.pid == k.id && q.begun) then d.stomp k
  else (((d.release k.id).catUndo k).fanUndo k).rmPkt k.id

/-- The receiver discards cells from the one it expects next on, and sends REQ (R126): packets that begin there or later leave the device;
one that began before keeps what has arrived, but is stomped where it was forwarded. -/
def Dev.discardRx (d : Dev) (p : Nat) : Dev :=
  let a := (d.port p).ackRseq
  let mine := d.pkts.filter (fun k => k.ing == some p && ! k.conf)
  let fin (k : Pkt) : BitVec 12 := k.rseq0 + BitVec.ofNat 12 (cellsOfPkt k.pk.hdr)
  let later (k : Pkt) : Bool := decide ((k.rseq0 - a).toNat < 2048)
  let cut (k : Pkt) : Bool := ! later k && decide ((fin k - 1 - a).toNat < 2048)
  let d1 := (mine.filter later).foldl (fun (x : Dev) k => x.withdraw k) d
  let d2 := (mine.filter (fun k => cut k && (k.st == .taken || d.queue.any (fun q => q.pid == k.id && q.begun)))).foldl (fun (x : Dev) k =>
    x.stomp k) d1
  (d2.onPort p (fun x => { x with rxNext := match mine.find? cut with | some k => fin k | none => a })).issueReq p a

/-- Occupancy of a lane's elastic buffer, in 1/8,192 block, `t` core cycles after the reset: the owner die reads 3,125 each cycle. -/
def Lane.levelNow (x : Lane) (t : Nat) : Nat := x.level - 3125 * (t - x.levelAt)

/-- The deskewed blocks of a column are written into the elastic buffers (R90): FILL is deleted and counted; the lowest of the lanes whose
buffer has no room raises 07h, and the column is discarded (which lane is named: DESIGN CHOICE, log 92). -/
def Dev.bufferIn (d : Dev) (ins : List (Nat × LaneIn)) (t : Nat) : Dev × Bool :=
  let d1 := ins.foldl (fun (x : Dev) e =>
    let n := if e.2.2.isSome then (e.2.1.filter isFill).length else 0
    if n = 0 then x else x.add64 (rl 0x40 e.1) n) d
  let put (e : Nat × LaneIn) : Nat := 8192 * (e.2.1.filter (fun b => ! isFill b)).length
  let full := ins.filter (fun e => decide (64 * 8192 < (d.lane e.1).levelNow t + put e))
  let d2 := ins.foldl (fun (x : Dev) e =>
    x.onLane e.1 (fun y => { y with level := y.levelNow t + (if full.isEmpty then put e else 0), levelAt := t })) d1
  match full with
  | [] => (d2, false)
  | e :: _ => (d2.raiseAt 2 7 e.1 e.1, true)

/-- A START in a column that answers the REQ outstanding. -/
def Port.answered (x : Port) (ins : List (Nat × LaneIn)) : Bool :=
  match ins.findSome? (fun e => e.2.2) with
  | some w => x.reqOpen && (lswOf w).rop == 2 && (lswOf w).reqId == x.reqId
  | none => false

/-- A port takes a column (R83, R87, R111, R114, R124, R126). -/
def Dev.columnIn (d : Dev) (p : Nat) (ins : List (Nat × LaneIn)) (t : Nat) : Dev :=
  let (d1, over_) := d.bufferIn ins t
  let good := ins.filter (fun e => e.2.2.isSome)
  let bad := ((good.flatMap (fun e => e.2.1)).filter (fun b => blkBad b || typeReserved b)).length
  let d2 := (List.range bad).foldl (fun (y : Dev) _ => y.violation p 1 none) d1
  let lost := over_ || decide (good.length < ins.length)
  let d3 := if ! lost && (d2.port p).answered ins then d2.onPort p (fun y => { y.atStart with resumed := true }) else d2
  let x := d3.port p
  let n := x.rxBlocks + ((ins.flatMap (fun e => e.2.1)).filter isData).length
  let d4 := d3.onPort p (fun y => { y with rxBlocks := n % 8, rxSeen := y.rxSeen + BitVec.ofNat 12 (n / 8) })
  if x.reqOpen ∧ ! x.resumed then d4
  else if lost then d4.discardRx p
  else if n / 8 = 0 then d4
  else
    let d5 := d4.onPort p (fun y => { y with ackRseq := y.ackRseq + BitVec.ofNat 12 (n / 8), reqFor := none })
    if takesCells x then d5 else d5.add64 (rp 3 0x68 p) (n / 8)

/-- CODEWORD_DECODE (R81): every lane of the port takes its codeword; the port, where it is linked and all its receivers have lock, the
column. -/
def execCodewordDecode (p : BitVec 7) (col : Column) (s : State) : Host.Outcome State Fault Refusal :=
  devStep (fun d =>
    let n := p.toNat
    if ! d.pvalid n then d
    else
      let whole := linked (d.port n).st && (d.lanesOf n).all (fun l => d.rxLocked l && ! (d.lane l).rxEi)
      let r := (List.zip (d.lanesOf n) col.words).foldl (fun (m : Dev × List (Nat × LaneIn)) e =>
        let y := m.1.laneIn e.1 e.2
        (y.1, m.2 ++ [(e.1, y.2)])) (d, [])
      if whole then r.1.columnIn n r.2 (d.cycles 0 + col.cycle.toNat) else r.1) s

/-! ## The sideband word (R53, R85, R86, R135) -/

/-- The frame difference of a marker (R53, R135): the sender's frame and cycle with LINK_DELAY added, against the own frame and cycle at the
column's arrival, rounded up to whole frames. -/
def Dev.markOff (d : Dev) (p : Nat) (w : Lsw) (cycle : Nat) : Nat :=
  let sent := w.markFrame.toNat * 256 + w.markCycle.toNat + (d.port p).delay.getD 0
  let own := d.fno % 65536 * 256 + cycle
  cdiv (sInt 24 ((own + 2 ^ 24 - sent % 2 ^ 24) % 2 ^ 24)).natAbs 256

/-- Compare the frame marker (R53). -/
def Dev.markIn (d : Dev) (p : Nat) (w : Lsw) (cycle : Nat) : Dev :=
  if ! d.aligned then d
  else
    let o := d.markOff p w cycle
    if 1 < o then
      (d.onPort p (fun x => { x with skewed := true, skewGood := 0 })).raise 1 6 (p * 256 + min o 255)
    else d.onPort p (fun x => { x with skewGood := x.skewGood + 1 })

/-- Tag of a packet's last cell. -/
def lastTag (k : Pkt) : BitVec 12 := k.tag0 + BitVec.ofNat 12 (cellsOfPkt k.pk.hdr - 1)

/-- Verdicts (R72, R86): a packet with a cell named bad is stomped; one wholly covered has its verdict. -/
def Dev.verdIn (d : Dev) (p : Nat) (w : Lsw) : Dev :=
  let mine := d.pkts.filter (fun k => k.ing == some p && ! k.conf && ! k.verd)
  let inPkt (k : Pkt) (t : BitVec 12) : Bool := decide ((t - k.tag0).toNat < cellsOfPkt k.pk.hdr)
  let isBad (k : Pkt) : Bool :=
    (match w.bad0 with | some t => inPkt k t | none => false) || (match w.bad1 with | some t => inPkt k t | none => false)
  let d1 := (mine.filter isBad).foldl (fun x k => x.stomp k) d
  if ! w.upToV then d1
  else
    { d1 with pkts := d1.pkts.map (fun k =>
        if k.ing = some p ∧ ! k.conf ∧ ! k.verd ∧ (w.upTo - lastTag k).toNat < 2048 then { k with verd := true } else k) }

/-- A port acts on a sideband word (R114). -/
def Dev.lswIn (d : Dev) (p : Nat) (w : Lsw) (cycle : Nat) : Dev :=
  let d1 := d.onPort p (fun x => { x with rxXoff := w.xoff })
  let d2 := if w.rop = 1 then d1.reqIn p w.ack w.reqId else d1.ackTo p w.ack
  let d3 := if w.rop = 2 then d2.startIn p w.reqId else d2
  (d3.markIn p w cycle).verdIn p w

/-- LSW_RECEIVE (R84, R85): the word of the lowest lane whose codeword is usable; with none, the column's port fields are lost. -/
def execLswReceive (p : BitVec 7) (w : Sideband) (s : State) : Host.Outcome State Fault Refusal :=
  devStep (fun d =>
    match w.words.findSome? id with
    | some b => if linked (d.port p.toNat).st then d.lswIn p.toNat (lswOf b) w.cycle.toNat else d
    | none => d) s

/-- PEER_SKEW_CLEAR (R53): 64 sideband words in a row within one frame. -/
def execPeerSkewClear (p : BitVec 7) (s : State) : Host.Outcome State Fault Refusal :=
  devStep (fun d =>
    let x := d.port p.toNat
    if x.skewed ∧ 64 ≤ x.skewGood then d.onPort p.toNat (fun y => { y with skewed := false }) else d) s

end Sys2Proof.Machine
end

