-- ==== Sys2Proof/Machine/Packet.lean ====
section
/-! DEFINITION. A packet's way through the device: arrival, confirmation and stomp (R71-R73, R132, R150, R157, R490, R506, R516),
admission and ORDER (R164-R166, R183-R187), trains (R133, R134, R144, R151, R173, R185, R216), and device faults (R28, R69). -/

namespace Sys2Proof.Machine

/-! ## Counting what passes (R490, R496) -/

/-- Add to a port's bytes of the window in progress. -/
def Dev.winBytes (d : Dev) (p dir n : Nat) : Dev :=
  { d with bwin := mapSet 0 d.bwin (p * 2 + dir) (mapGet 0 d.bwin (p * 2 + dir) + n) }

/-- Count a received packet on the VC it arrived on. -/
def Dev.countRx (d : Dev) (p : Nat) (h : Header) : Dev :=
  let a := rp 0x10 (0x100 + 0x20 * h.vc.toNat) p
  ((d.add64 a (pktLen h)).add64 (a + 8) 1).winBytes p 0 (pktLen h)

/-- A packet whose last bit is sent and whose every cell is confirmed is counted, sampled and offered to capture with the
frame of its stamp (R512). -/
def Dev.countTx (d : Dev) (p : Nat) (pk : Packet) (stamp : Nat) : Dev :=
  let a := rp 0x10 (0x110 + 0x20 * pk.hdr.vc.toNat) p
  let d1 := ((d.add64 a (pktLen pk.hdr)).add64 (a + 8) 1).winBytes p 1 (pktLen pk.hdr)
  (d1.sample p 1 pk).capPacket p 1 pk stamp

/-! ## Arrival -/

/-- A packet whose hold has no room is dropped whole (R132). -/
def Dev.holdFull (d : Dev) (p : Nat) (h : Header) : Bool :=
  vcFc h.vc.toNat && decide (4 * d.cap p + 16 < d.holdOcc p h.vc.toNat + cellsOfPkt h)

/-- The packet's train is an overrun (R132). -/
def Dev.overruns (d : Dev) (p : Nat) (h : Header) (sinceXoff : Nat) : Bool :=
  (d.port p).txXoff.getLsbD h.vc.toNat && decide (2 * (d.port p).delay.getD 0 + 256 < sinceXoff)

/-- Put a received packet on the list without a lookup. -/
def Dev.arrive (d : Dev) (p : Nat) (pk : Packet) (tag rseq : BitVec 12) (st : PkSt) : Dev :=
  d.addPkt { id := 0, ing := some p, fromSw := d.pSwitch p, pk := pk, tag0 := tag, rseq0 := rseq, since := d.now, verd := ! pk.hdr.spec, st := st }

/-- Holds that changed: their buffers follow, and so does the FC_XOFF of every linked port (R130, R174). -/
def Dev.holdsMoved (d : Dev) : Dev :=
  let d1 := d.holdSync
  ((d1.ports.filter (fun e => linked e.2.st)).map (·.1)).foldl (fun (x : Dev) p => x.refreshXoff p) d1

/-- HEADER_LOOKUP (R157): on a port that takes cells, outside a retry in progress. -/
def execHeaderLookup (p : BitVec 7) (pk : Packet) (sinceXoff : Nat) (s : State) : Host.Outcome State Fault Refusal :=
  devStep (fun d =>
    let n := p.toNat
    let x := d.port n
    if ! takesCells x ∨ x.reqOpen then d
    else
      let h := pk.hdr
      let m : BitVec 12 := BitVec.ofNat 12 (cellsOfPkt h)
      let d1 := d.onPort n (fun y => { y with rxTag := y.rxTag + m, rxNext := y.rxNext + m })
      let d2 := if vcValid (d.pSwitch n) h.cls.toNat h.vc.toNat then d1 else d1.violation n 5 (some pk)
      let d3 := if d.overruns n h sinceXoff then d2.violation n 2 (some pk) else d2
      if d.isEmu n then d3.arrive n pk x.rxTag x.rxNext .accepted
      else if d.holdFull n h then d3.arrive n pk x.rxTag x.rxNext (.dropped { cause := .overrun, atOut := false, port := n })
      else (d3.lookup n pk x.rxTag x.rxNext).holdsMoved) s

/-! ## Verdicts -/

/-- The last tag up to which every cell sent on a port has its verdict: before the first of those still to come and of the bad ones still
to be named (R72, R86). -/
def Port.upTo (x : Port) : BitVec 12 :=
  x.txTag - 1 - BitVec.ofNat 12 (((x.unsure.map (·.1) ++ x.badTags).map (fun t => (x.txTag - t).toNat)).foldl max 0)

/-- Ports on which cells of a packet were sent without a verdict. -/
def Dev.unsureOn (d : Dev) (id : Nat) : List Nat := (d.ports.filter (fun e => e.2.unsure.any (fun c => c.2 == id))).map (·.1)

/-- The verdicts that a packet's confirmation or stomp settles on the ports it was sent on (R72). -/
def Dev.giveVerds (d : Dev) (ps : List Nat) (id : Nat) : Dev :=
  ps.foldl (fun (x : Dev) p =>
    let y := x.onPort p (fun z => { z with unsure := z.unsure.filter (fun c => c.2 != id) })
    y.emit (.verdUpTo p (y.port p).upTo)) d

/-- The tests of a port in EMU_CHECK on a confirmed packet (R516). -/
def Dev.emuChecks (d : Dev) (p : Nat) (pk : Packet) : Dev :=
  let h := pk.hdr
  let id := d.fld (rp 0x11 0x104 (d.role p)) 0 16
  let one (x : Dev) (fails : Bool) (w : Word) : Dev := if fails then x.check p w (some pk) else x
  let d1 := one d (d.tests (some p) h == some 1) (condWord 4 1 p)
  let d2 := one d1 (id != 0 && h.dstId.toNat != id) (condWord 4 4 p)
  let d3 := one d2 (h.spec && ! d.bit (rp 0x11 0x104 (d.role p)) 16) (condWord 0x11 0xA p)
  one d3 (h.rsv != 0 || pk.tailRsv != 0 || pk.pad.any (· != 0)) (condWord 0x11 0xC p)

/-- Commit what was provisional (R71, R158, R164, R192, R490). -/
def Dev.commit (d : Dev) (k : Pkt) : Dev :=
  let p := k.ing.getD 0
  let d1 := (d.countRx p k.arrived.hdr).capPacket p 0 k.arrived k.stamp
  if d.isEmu p then (d1.emuChecks p k.arrived).rmPkt k.id
  else
    let d2 : Dev := { d1 with queue := d1.queue.map (fun q => if q.pid = k.id then { q with conf := true } else q) }
    let d3 := d2.onPkt k.id (fun y => { y with conf := true, dues := [], owed := none, sentOn := [] })
    let d4 := d3.settleDues k k.dues
    let d5 := match k.owed with | some (o, _) => d4.track o k.pk.hdr | none => d4
    let d6 := k.sentOn.foldl (fun (x : Dev) e => x.countTx e.1 e.2.1 e.2.2) d5
    match k.st with
    | .dropped dr =>
      let d7 := if dr.cause = .catNoRoom then let g := d6.refGroup k.pk; d6.catFail g (catLaunch k.pk) 0x19 g else d6
      (d7.discard { k with conf := true } dr).rmPkt k.id
    | .accepted =>
      let d7 := d6.sample p 0 k.arrived
      if isWatched k.pk.hdr then d7 else d7.rmPkt k.id
    | .settled => if isWatched k.pk.hdr then d6 else d6.rmPkt k.id
    | .taken => d6.sample p 0 k.arrived
    | _ => d6

/-- The end of a command that settles packets: losses, verdicts and holds. -/
def Dev.afterVerdict (d : Dev) (ps : List Nat) (id : Nat) : Dev := ((d.settleLoss).giveVerds ps id).holdsMoved

/-- CELL_CONFIRM (R71, R150): the verdict of a packet's last cell is good. VERDICT and CRC are checked first. -/
def execCellConfirm (id : Nat) (s : State) : Host.Outcome State Fault Refusal :=
  devStep (fun d =>
    match d.pkt id with
    | none => d
    | some k =>
      let ps := d.unsureOn id
      if k.conf ∨ ! k.verd then d
      else if k.pk.verdict ≠ 0 then (d.stomp k).afterVerdict ps id
      else if k.pk.crc ≠ pktCrc k.arrived.hdr k.pk.payload then
        let w := condWord 4 0xA (ingDetail k.ing)
        let p := k.ing.getD 0
        let d1 := if d.emuRole p = 2 then d.check p w (some k.arrived) else d.raise 4 0xA (ingDetail k.ing)
        ((d1.countPkt 0xA k.ing).stomp k).afterVerdict ps id
      else (d.commit k).afterVerdict ps id) s

/-- CELL_STOMP (R73, R151). -/
def execCellStomp (id : Nat) (s : State) : Host.Outcome State Fault Refusal :=
  devStep (fun d =>
    match d.pkt id with
    | none => d
    | some k => if k.conf then d else (d.stomp k).afterVerdict (d.unsureOn id) id) s

/-! ## Admission and ORDER -/

/-- ADMISSION_ROUND (R183, R186, R187). -/
def execAdmissionRound (r : BitVec 4) (s : State) : Host.Outcome State Fault Refusal :=
  devStep (fun d => ((d.round r.toNat).settleLoss).holdsMoved) s

/-- ORDER_PRESENT (R164, R166): a confirmed ORDER packet at the head of its hold. -/
def execOrderPresent (id : Nat) (s : State) : Host.Outcome State Fault Refusal :=
  devStep (fun d =>
    match d.pkt id with
    | none => d
    | some k =>
      match d.orderPort k with
      | some o =>
        if k.st = .hold ∧ k.conf ∧ d.isHead k ∧ (d.affected k).isNone ∧ ! d.behindParked k then (d.orderPresent 0 k o).holdsMoved else d
      | none => d) s

/-- ORDER_RELEASE (R164): a held ORDER packet whose count is met. -/
def execOrderRelease (id : Nat) (s : State) : Host.Outcome State Fault Refusal :=
  devStep (fun d =>
    match d.pkt id with
    | none => d
    | some k =>
      match d.orderPort k with
      | some o =>
        if k.st = .ordHeld ∧ orderMet (mapGet {} d.trks (trkKey o k.pk.hdr.srcId)) k.pk.hdr then
          (d.onPkt id (fun y => { y with st := .released })).holdsMoved
        else d
      | none => d) s

/-- ORDER_TIMEOUT (R166): WAIT frames without a release, the count not met. -/
def execOrderTimeout (id : Nat) (s : State) : Host.Outcome State Fault Refusal :=
  devStep (fun d =>
    match d.pkt id with
    | none => d
    | some k =>
      match d.orderPort k with
      | some o =>
        if k.st = .ordHeld ∧ max 1 (d.fld (ra 4 4) 0 16) ≤ d.age k.since ∧
            ! orderMet (mapGet {} d.trks (trkKey o k.pk.hdr.srcId)) k.pk.hdr then (d.orderTimeout k o).holdsMoved
        else d
      | none => d) s

/-- A write of CORE_DIE_k_SHEAD: a value at or above SIZE is discarded (R193). -/
def Dev.sheadWrite (d : Dev) (k : Nat) (v : Word) : Dev :=
  let n := Machine.fld v 0 10
  if n < d.fld (ra 5 (0x4000A0 + 0x1000 * k)) 0 19 then d.setFld (ra 5 (0x400F14 + 0x1000 * k)) 0 10 n else d

/-- SAMPLE_CONSUME (R193). -/
def execSampleConsume (src : Src) (k : BitVec 2) (v : Word) (s : State) : Host.Outcome State Fault Refusal :=
  .next (s.waitFrom src (.sampleConsume src k v))

/-- WMARK fields of CORE: bits [31:16] of CORE_CLS_c_p_OCC, and CORE_POOL_k_j_WMARK. -/
def isCoreWmark (a : Nat) : Bool :=
  let o := off a
  blk a == 5 && ((decide (o < 0x200000) && decide (0x108 ≤ pOff o ∧ pOff o < 0x170) && pOff o % 0x10 == 8) ||
    (decide (0x400000 ≤ o ∧ o < 0x404000) && decide (o % 0x1000 < 0xC0) && o % 0x20 == 8))

/-- WMARK_CLR of CORE_CTL (R192). -/
def Dev.coreClr (d : Dev) : Dev := { d with regs := d.regs.filter (fun e => ! isCoreWmark e.1) }

/-- CORE_WMARK_CLR. -/
def execCoreWmarkClr (src : Src) (s : State) : Host.Outcome State Fault Refusal := .next (s.waitFrom src (.coreWmarkClr src))

/-! ## Device faults at an output -/

/-- Change the queue entry with a key. -/
def Dev.onEnt (d : Dev) (key : Nat) (f : QEnt → QEnt) : Dev :=
  { d with queue := d.queue.map (fun q => if q.key = key then f q else q) }

/-- A queued copy of which cells are still to be sent is lost to a device fault: counted, its train completed with VERDICT FFh or
never begun, its buffers given back, and the Basin request it answers ends (R28, R69, R151, R173, R346). -/
def Dev.loseEnt (d : Dev) (q : QEnt) : Dev :=
  if q.stomped || decide (q.n ≤ d.sentOf q) then d
  else
    let d1 := d.dropEnt q .deviceFault
    let d2 := match q.use with | .cpl s => d1.endReq s q.out | _ => d1
    if q.begun then d2.voidEnt q q.charge
    else
      let d3 := d2.freeEnt q
      { d3 with queue := d3.queue.filter (fun x => x.key != q.key) }

/-- Every copy of a packet that is stored in a core die is lost (R28, R173, R178). -/
def Dev.loseOn (d : Dev) (k pid : Nat) : Dev :=
  (d.queue.filter (fun q => q.pid == pid && d.owner q.out == k)).foldl (fun (x : Dev) q => x.loseEnt q) d

/-- The hop bound of a class at a port, in ns (R68). -/
def Dev.bound (d : Dev) (p c : Nat) : Nat := (d.rd (rp 1 (0x100 + 4 * c) p)).toNat

/-- A queued packet can no longer leave within its bound once this frame has passed (R69). -/
def Dev.late (d : Dev) (q : QEnt) : Bool :=
  decide (d.bound q.out q.cls < cdiv (125 * (d.cycles q.acc + d.frm.len)) 256 + cdiv (125 * q.n) (d.cap q.out))

/-- BOUND_MISS (R69). -/
def execBoundMiss (p : BitVec 7) (id : Nat) (s : State) : Host.Outcome State Fault Refusal :=
  devStep (fun d =>
    match d.queue.find? (fun q => q.out == p.toNat && q.pid == id && ! q.stomped) with
    | some q => if d.late q then (d.loseEnt q).raise 1 5 (p.toNat * 256 + q.cls) else d
    | none => d) s

/-- The read of the next cell of a queued packet fails (R173, R177): its packet is discarded, by CORE 03h for an uncorrectable word, with
the cell's buffer quarantined for a pointer that is not one of its pool (log 86). -/
def Dev.badRead (d : Dev) (q : QEnt) (b : BufRead) : Option Dev :=
  let k := d.owner q.out
  let j := poolOf q.cls
  let own := (d.bufOf k j q.pid).bind (fun x => (x.cells[d.sentOf q]?).map (·.1))
  if (match b.ptr with | some w => ! d.ptrOk k j w | none => false) then some ((d.ptrFault k j own).loseOn k q.pid)
  else if b.uncorr then some ((d.loseOn k q.pid).raise 5 3 (k * 0x4000 + q.out))
  else none

/-! ## Trains (R133, R134, R145, R169, R185, R216) -/

/-- Unconfirmed packets may be sent on the port. -/
def Dev.specOk (d : Dev) (p : Nat) : Bool := d.pSwitch p || (d.pStomp p && d.bit (rp 4 0x100 (d.role p)) 1)

/-- A queued packet may begin. -/
def Dev.ready (d : Dev) (q : QEnt) : Bool :=
  ! q.begun && (q.conf || (d.specOk q.out &&
    (match q.ing with | some i => decide (d.width q.out ≤ d.width i) | none => true)))

/-- The partner has XOFF'd a VC. -/
def Dev.xoffed (d : Dev) (p v : Nat) : Bool :=
  vcFc v && (d.port p).rxXoff.getLsbD v && ! (match d.injOn p 3 1 with | some i => i.param % 16 == v | none => false)

/-- The packet as an injection act of the packet layer sends it (R517): the packet, and the units done. -/
def Dev.injPkt (d : Dev) (p : Nat) (pk : Packet) : Packet × Nat :=
  let hit (i : Inj) : Bool := i.param % 128 == 0 || (i.param % 128).testBit pk.hdr.cls.toNat
  match d.injOn p 1 1, d.injOn p 1 2, d.injOn p 1 3 with
  | some i, _, _ => if hit i then ({ pk with crc := ~~~ pk.crc }, 1) else (pk, 0)
  | _, some _, _ => ({ pk with verdict := 0xFF }, 1)
  | _, _, some _ =>
    let h : Header := { pk.hdr with fmt := 0 }
    ({ pk with hdr := h, crc := pktCrc h pk.payload }, 1)
  | _, _, _ => (pk, 0)

/-- The packet a VC of an output would send next. -/
def Dev.vcHead (d : Dev) (p v : Nat) : Option QEnt :=
  match d.queue.find? (fun q => q.out == p && q.vc == v && ! q.begun) with
  | some q => if d.ready q && ! d.xoffed p v then some q else none
  | none => none

/-- VCs of a DWRR class. -/
def vcsOf (c : Nat) : List Nat := if lossless c then (List.range 4).map (fun i => 2 + 4 * (c - 2) + i) else [vcOf c 0 0]

/-- The head packet of the next of a class's VCs in turn. -/
def Dev.classHead (d : Dev) (p c i : Nat) : Option QEnt :=
  if d.wOf p c = 0 then none else (rotate (vcsOf c) i).findSome? (fun v => d.vcHead p v)

/-- Deficit-weighted round robin (R134): `n` bounds the visits made in one choice. -/
def Dev.dwrr (d : Dev) (p : Nat) : Nat → Port → Port × Option QEnt
  | 0, x => (x, none)
  | n + 1, x =>
    let c := x.rr + 2
    let df := x.deficit.getD x.rr 0
    let next : Port := { x with rr := (x.rr + 1) % 5, visiting := false }
    match d.classHead p c (x.vcLast.getD x.rr 0) with
    | none => d.dwrr p n (if 0 < df then { next with deficit := x.deficit.set x.rr 0 } else next)
    | some q =>
      let df1 := if x.visiting then df else df + (d.wOf p c : Int)
      if 0 < df1 then
        ({ x with visiting := true, deficit := x.deficit.set x.rr (df1 - (q.n : Int))
                  vcLast := x.vcLast.set x.rr ((q.vc - 2) % 4 + 1) }, some q)
      else d.dwrr p n { next with deficit := x.deficit.set x.rr df1 }

/-- The choice of R133 items 2 to 4, with the port as the round robin leaves it. -/
def Dev.pickTrain (d : Dev) (p : Nat) : Port × Option QEnt :=
  let x := d.port p
  match d.queue.find? (fun q => q.out == p && q.cls == 1 && d.ready q && decide (q.draw ≤ d.now)) with
  | some q => (x, some q)
  | none =>
    match d.vcHead p 0 with
    | some q => if x.ctlBegun + q.n ≤ d.ctlCells p then (x, some q) else d.dwrr p 100 x
    | none => d.dwrr p 100 x

/-- The replay buffer holds 4 x C cells (R125). -/
def Dev.replayFull (d : Dev) (p : Nat) : Bool := decide (4 * d.cap p ≤ (d.port p).replay.length)

/-- LINK 02h, once per occurrence (R125). -/
def Dev.noteFull (d : Dev) (p : Nat) : Dev :=
  if (d.port p).fullSeen then d else (d.onPort p (fun y => { y with fullSeen := true })).raiseAt 3 2 p p

/-- Begin a train (R169, R185): SPEC says whether the packet is still to be confirmed. -/
def Dev.beginTrain (d : Dev) (p : Nat) (x : Port) (q : QEnt) : Dev :=
  let kept := match q.use with | .pat _ => q.ing.isNone && q.pk.hdr.spec | _ => false
  let (pk, units) := d.injPkt p { q.pk with hdr := { q.pk.hdr with spec := ! q.conf || kept } }
  let over_ := if vcFc q.vc && (d.port p).rxXoff.getLsbD q.vc then q.n else 0
  let d1 := d.setPort p { x with train := some q.key, cellsSent := 0, ctlBegun := if q.cls = 0 then x.ctlBegun + q.n else x.ctlBegun }
  (if units + over_ = 0 then d1 else d1.injUnits p (units + over_)).onEnt q.key (fun y => { y with begun := true, pk := pk, stamp := d.fno })

/-- Send the next cell of the train in progress (R87, R124, R125, R178): it enters the replay buffer and the block stream, and its
buffer is given back; its verdict is owed where the packet has none, and is bad where it was stomped (R72, R86). -/
def Dev.sendCell (d : Dev) (p : Nat) (q : QEnt) : Dev :=
  let x := d.port p
  let owed := d.pkts.any (fun k => k.id == q.pid && ! k.conf)
  let bad := q.stomped && ! q.conf && ! owed
  let c : RCell := { rseq := x.sndRseq, tag := x.txTag, pid := q.pid, idx := x.cellsSent, pk := q.pk, bad := bad, counted := q.stomped }
  let d1 := d.setPort p { x with
    replay := x.replay ++ [c], sndRseq := x.sndRseq + 1, txTag := x.txTag + 1, cellsSent := x.cellsSent + 1
    stream := x.stream ++ (cellBlocks q.pk x.cellsSent).map .blk, sinceCtl := min 64 (x.sinceCtl + 8)
    unsure := if owed then x.unsure ++ [(x.txTag, q.pid)] else x.unsure, badTags := if bad then x.badTags ++ [x.txTag] else x.badTags }
  if q.stomped then d1 else d1.takeBack (d.owner q.out) (poolOf q.cls) q.pid x.cellsSent

/-- Choose the next train and send its first cell, unless the replay buffer has no room (R125, R133). -/
def Dev.nextTrain (d : Dev) (p : Nat) (b : BufRead) : Dev :=
  match d.pickTrain p with
  | (x, none) => d.setPort p x
  | (x, some q) =>
    if d.replayFull p then d.noteFull p
    else
      match d.badRead q b with
      | some d1 => d1
      | none =>
        let d1 := d.beginTrain p x q
        match d1.queue.find? (fun y => y.key == q.key) with
        | some y => d1.sendCell p y
        | none => d1

/-- The next cell of a train in progress; a void cell is not read (R144, R151). -/
def Dev.trainCell (d : Dev) (p : Nat) (q : QEnt) (b : BufRead) : Dev :=
  if q.n ≤ (d.port p).cellsSent then d
  else if d.replayFull p then d.noteFull p
  else
    match (if q.stomped then none else d.badRead q b) with
    | some d1 => d1
    | none => d.sendCell p q

/-- TRAIN_SELECT (R133): a link control block that is due, on a linked port; else, in UP, the next cell of the train in progress or
the first of the next train. -/
def execTrainSelect (p : BitVec 7) (b : BufRead) (s : State) : Host.Outcome State Fault Refusal :=
  devStep (fun d =>
    let n := p.toNat
    let x := d.port n
    if ! linked x.st ∨ d.txIdle n then d
    else if ! x.ctlBlocks.isEmpty ∧ 63 ≤ x.sinceCtl then d.putCtl n
    else if x.st ≠ .up then d
    else
      match x.train with
      | some key =>
        (match d.queue.find? (fun q => q.key == key) with
         | some q => (d.trainCell n q b).settleLoss
         | none => d)
      | none => (d.nextTrain n b).settleLoss) s

/-- What the end of a packet's train frees (R258, R320). -/
def Dev.useSent (d : Dev) (u : Use) : Dev :=
  match u with
  | .part g c => d.partSent g c
  | .comb r key => d.combSent r key
  | _ => d

/-- TRAIN_COMPLETE (R125, R182): the last bit is in the replay buffer; the charge is released. -/
def execTrainComplete (p : BitVec 7) (s : State) : Host.Outcome State Fault Refusal :=
  devStep (fun d =>
    let n := p.toNat
    match (d.port n).train with
    | none => d
    | some key =>
      match d.queue.find? (fun q => q.key == key) with
      | none => d.onPort n (fun x => { x with train := none })
      | some q =>
       if (d.port n).cellsSent < q.n then d
       else
        let d1 := ({ d with queue := d.queue.filter (fun y => y.key != key) } : Dev).onPort n (fun x => { x with train := none })
        let d2 := d1.emit (.train n q.pk q.stomped)
        if q.stomped then d2
        else
          let d3 := if q.conf then d2.countTx n q.pk q.stamp
            else d2.onPkt q.pid (fun k => { k with sentOn := k.sentOn ++ [(n, q.pk, q.stamp)] })
          d3.useSent q.use) s

/-! ## Bridges (R28) -/

/-- A completion or data write without its data, carrying a condition word. -/
def noData (w : Word) (pk : Packet) : Packet :=
  let h := { pk.hdr with len := 0 }
  let body := leBytes 4 w.toNat ++ (pk.payload.take 64).drop 4
  { pk with hdr := h, payload := body, crc := pktCrc h body, pad := [] }

/-- The packet with an id, in the device or queued. -/
def Dev.findPk (d : Dev) (id : Nat) : Option Packet :=
  match d.pkt id with
  | some k => some k.pk
  | none => (d.queue.find? (fun q => q.pid == id)).map (·.pk)

/-- Take a packet out of the device: what it added is retracted, its copies are not sent or completed void. One not yet confirmed stays
known until its verdict, which counts it (R28). -/
def Dev.pull (d : Dev) (id : Nat) : Dev :=
  let d1 := match d.pkt id with
    | some k =>
      let x := (d.catUndo k).fanUndo k
      if k.conf then x.rmPkt id else x.onPkt id (fun y => { y with st := .settled, tgts := [] })
    | none => d
  let d2 := (d1.queue.filter (fun q => q.pid == id && ! q.stomped)).foldl (fun (x : Dev) q =>
    if q.begun then x.voidEnt q q.charge else x.freeEnt q) d1
  { d2 with queue := d2.queue.filter (fun q => q.pid != id || q.begun) }

/-- The bridge carries a word that comes in on a port, leaves on one, or goes from one core die to another; `die` receives it
(R25-R27). -/
def Dev.viaIn (d : Dev) (b die p : Nat) : Bool := b == d.laneBridge p && die == d.owner p
def Dev.viaOut (d : Dev) (b die o : Nat) : Bool := b == d.laneBridge o && die == 4 + b
def viaCore (b die a c : Nat) : Bool := (coreBridges a c).contains b && die == c

/-- The bridge carries what goes from an ingress port to one of the dies `eng`, or from one of them to an output. -/
def Dev.viaEngine (d : Dev) (b die : Nat) (ing : Option Nat) (outs eng : List Nat) : Bool :=
  (match ing with | some p => d.viaIn b die p || eng.any (fun e => viaCore b die (d.owner p) e) | none => false) ||
  outs.any (fun o => d.viaOut b die o || eng.any (fun e => viaCore b die e (d.owner o)))

/-- A switched cell of packet `id` toward output `o` is lost on a bridge (R27, R28): before it is stored, in the output's die, or on its
way out; none where the bridge carries no cell of it. -/
def Dev.loseCell (d : Dev) (b die id o : Nat) : Option Dev :=
  let ing := match d.pkt id with | some k => k.ing | none => (d.queue.find? (fun q => q.pid == id)).bind (·.ing)
  let c := d.owner o
  let pools := d.bufs.filter (fun x => x.die == c && x.pid == id && x.pool != 2)
  let crossed (a : Nat) : Bool := pools.any (fun x => x.cells.any (fun e => bridgeFor a c (e.1.testBit 0) == some b)) && die == c
  let core := match ing with | some p => crossed (d.owner p) | none => (List.range 4).any crossed
  let inLane := match ing with | some p => d.viaIn b die p | none => false
  if inLane then
    let d1 := (d.queue.filter (fun q => q.pid == id)).foldl (fun (x : Dev) q => x.loseEnt q) d
    match d.pkt id with
    | some k => some (if inHold k then d1.dropPkt k { cause := .deviceFault, atOut := true, port := o } else d1)
    | none => some d1
  else if core then some (d.loseOn c id)
  else if d.viaOut b die o then (d.queue.find? (fun q => q.pid == id && q.out == o)).map d.loseEnt
  else none

/-- A Basin request or completion crosses the bridge (R27): a request to the die of its stack, by bit 8 of its Basin address where two
bridges join the dies. -/
def Dev.basCrosses (d : Dev) (b die : Nat) (ing : Option Nat) (outs : List Nat) (pk : Packet) : Bool :=
  if pk.hdr.op = 0x15 ∨ pk.hdr.op = 0x01 then d.viaEngine b die ing outs [0, 1, 2, 3]
  else
    match ing with
    | some p =>
      let c := stackOf (basDa pk) / 2
      d.viaIn b die p || (bridgeFor (d.owner p) c ((basDa pk).testBit 8) == some b && die == c)
    | none => false

/-- BRIDGE_UNCORR (R28): the item is one that the bridge carries to the die. -/
def execBridgeUncorr (b : Fin 15) (die : Fin 12) (it : BridgeItem) (s : State) : Host.Outcome State Fault Refusal :=
  devStep (fun d =>
    let det := b.val * 256 + die.val
    let w := condWord 0 1 det
    let ing (id : Nat) : Option Nat := (d.pkt id).bind (·.ing)
    let outs (id : Nat) : List Nat := (d.queue.filter (fun q => q.pid == id)).map (·.out)
    match it with
    | .cell id out =>
      (match d.loseCell b.val die.val id out.toNat with
       | some d1 => (d1.raise 0 1 det).holdsMoved
       | none => d)
    | .cat id =>
      (match d.findPk id with
       | some pk =>
         let g := d.refGroup pk
         if ! d.viaEngine b.val die.val (ing id) (outs id) [chunkDie g (catChunk pk)] then d
         else
           let d1 := ((d.pull id).raise 0 1 det).holdsMoved
           if (d1.launch g).d.launch.toNat = catLaunch pk then d1.cause g w false else d1
       | none => d)
    | .fan id =>
      (match d.findPk id with
       | some pk =>
         if ! d.viaEngine b.val die.val (ing id) (outs id) [0, 1, 2, 3] then d
         else
           let d1 := ((d.pull id).raise 0 1 det).holdsMoved
           (match d1.slotCause (fanRound pk) with | some r => d1.fanCause r w | none => d1)
       | none => d)
    | .basin id =>
      (match d.findPk id with
       | some pk =>
         if ! d.basCrosses b.val die.val (ing id) (outs id) pk then d
         else if pk.hdr.op = 0x15 ∨ pk.hdr.op = 0x01 then
           let mine := d.queue.filter (fun q => q.pid == id && ! q.begun)
           let d0 := mine.foldl (fun (x : Dev) q => x.giveUp (x.owner q.out) (poolOf q.cls) id 1 q.n) d
           let d1 : Dev := { d0 with queue := d0.queue.map (fun q => if q.pid = id ∧ ! q.begun then { q with pk := noData w q.pk, n := 1 } else q) }
           ((d1.onPkt id (fun k => { k with pk := noData w k.pk })).raise 0 1 det).holdsMoved
         else
           (match d.pkt id with
            | some k => (((d.rmPkt id).raise 0 1 det).answer k.ing pk.hdr pk.payload w).holdsMoved
            | none => d)
       | none => d)) s

end Sys2Proof.Machine
end

