-- ==== Sys2Proof/Machine/Sig.lean ====
section
/-! DEFINITION. SHA-256 and RSASSA-PSS verification (R369): SHA-256 as MGF1 hash, 32-byte salt, 3,072-bit keys with public exponent
65537. The two algorithms are the published standards R369 names (FIPS 180-4, RFC 8017; PRESUMED, log 20). -/

namespace Sys2Proof.Machine

/-! ## SHA-256 -/

/-- The whole part of the k-th root of `n`, found bit by bit from bit `b` down. -/
def rootFrom (k n : Nat) : Nat → Nat → Nat
  | 0, r => r
  | b + 1, r => rootFrom k n b (if (r + 2 ^ b) ^ k ≤ n then r + 2 ^ b else r)

/-- The first 32 bits of the fraction of the k-th root of `p`. -/
def rootFrac (k p : Nat) : Word := BitVec.ofNat 32 (rootFrom k (p * 2 ^ (32 * k)) 40 0)

/-- The first 64 primes. -/
def primes64 : List Nat := (List.range 312).filter (fun p => decide (2 ≤ p) && (List.range p).all (fun i => decide (i < 2) || p % i != 0))

/-- Round constants: cube roots of the first 64 primes. Initial hash value: square roots of the first eight. -/
def shaK : List Word := primes64.map (rootFrac 3)
def shaH0 : List Word := (primes64.take 8).map (rootFrac 2)

/-- The big-endian number of a byte string, and its `n` big-endian bytes. -/
def beNat (bs : List Byte) : Nat := bs.foldl (fun a b => a * 256 + b.toNat) 0
def beBytes (n v : Nat) : List Byte := (leBytes n v).reverse

def rotr (w : Word) (n : Nat) : Word := w.rotateRight n

/-- The message schedule, newest word first, extended `n` times. -/
def shaExtend : Nat → List Word → List Word
  | 0, w => w
  | n + 1, w =>
    let a := w.getD 14 0
    let b := w.getD 1 0
    let s0 := rotr a 7 ^^^ rotr a 18 ^^^ (a >>> 3)
    let s1 := rotr b 17 ^^^ rotr b 19 ^^^ (b >>> 10)
    shaExtend n ((w.getD 15 0 + s0 + w.getD 6 0 + s1) :: w)

/-- One round on the eight working variables. -/
def shaRound (v : List Word) (kw : Word × Word) : List Word :=
  match v with
  | [a, b, c, d, e, f, g, h] =>
    let t1 := h + (rotr e 6 ^^^ rotr e 11 ^^^ rotr e 25) + ((e &&& f) ^^^ (~~~e &&& g)) + kw.1 + kw.2
    let t2 := (rotr a 2 ^^^ rotr a 13 ^^^ rotr a 22) + ((a &&& b) ^^^ (a &&& c) ^^^ (b &&& c))
    [t1 + t2, a, b, c, d + t1, e, f, g]
  | _ => v

/-- One 64-byte block. -/
def shaBlock (h : List Word) (blk : List Byte) : List Word :=
  let w0 := (List.range 16).map (fun i => (BitVec.ofNat 32 (beNat ((blk.drop (4 * i)).take 4)) : Word))
  let w := (shaExtend 48 w0.reverse).reverse
  List.zipWith (· + ·) h ((List.zip shaK w).foldl shaRound h)

/-- SHA-256 of a byte string. -/
def sha256 (m : List Byte) : List Byte :=
  let pad := [0x80] ++ zeros ((119 - m.length % 64) % 64) ++ beBytes 8 (8 * m.length)
  let all := m ++ pad
  let h := (List.range (all.length / 64)).foldl (fun h i => shaBlock h ((all.drop (64 * i)).take 64)) shaH0
  h.flatMap (fun w => beBytes 4 w.toNat)

/-! ## RSASSA-PSS -/

/-- `x` squared `n` times, modulo `m`. -/
def sqr : Nat → Nat → Nat → Nat
  | 0, x, _ => x
  | n + 1, x, m => sqr n (x * x % m) m

/-- MGF1 with SHA-256: the first `n` bytes of the mask of a seed. -/
def mgf1 (seed : List Byte) (n : Nat) : List Byte :=
  ((List.range (cdiv n 32)).flatMap (fun i => sha256 (seed ++ beBytes 4 i))).take n

/-- EMSA-PSS verification of a 384-byte encoded message against a message digest. -/
def pssOk (em mHash : List Byte) : Bool :=
  let h := (em.drop 351).take 32
  let db := List.zipWith (fun (a b : Byte) => a ^^^ b) (em.take 351) (mgf1 h 351)
  let db1 := (db.take 1).map (fun b => b &&& 0x7F) ++ db.drop 1
  let salt := db1.drop 319
  em.getD 383 0 == 0xBC && decide ((em.getD 0 0).toNat < 128) && zeroAt db1 0 318 && db1.getD 318 0 == 1 &&
    h == sha256 (zeros 8 ++ mHash ++ salt)

/-- The signature of a message verifies under a modulus: both most significant byte first. -/
def sigOk (modulus msg sig : List Byte) : Bool :=
  let n := beNat modulus
  let s := beNat sig
  sig.length == 384 && decide (s < n) && pssOk (beBytes 384 (sqr 16 s n * s % n)) (sha256 msg)

end Sys2Proof.Machine
end

