-- ==== Sys2Proof/Machine/PlatFile.lean ====
section
/-! DEFINITION. The plat container and its tests (R363-R374), the checks of its content (R175, R181, R197-R217, R230, R235, R266,
R304, R337) and how its registers are set (R68, R368). -/

namespace Sys2Proof.Machine

/-! ## The container -/

/-- Header fields (R364). -/
def cKind (b : List Byte) : Nat := leAt b 6 1
def cNsect (b : List Byte) : Nat := leAt b 7 1
def cEpoch (b : List Byte) : Nat := leAt b 8 8
def cBase (b : List Byte) : Nat := leAt b 16 8
def cLen (b : List Byte) : Nat := leAt b 24 4
def cFabric (b : List Byte) : Nat := leAt b 40 4

/-- Directory entries: ID, OFFSET, LENGTH, and whether the reserved bytes are 00h (R365). -/
def cDir (b : List Byte) : List (Nat × Nat × Nat × Bool) :=
  (List.range (cNsect b)).map (fun i =>
    let o := 128 + 16 * i
    (leAt b o 1, leAt b (o + 4) 4, leAt b (o + 8) 4, zeroAt b (o + 1) 3 && zeroAt b (o + 12) 4))

/-- The records of a section (R366). -/
def recsAt (b : List Byte) (o len : Nat) : List (Nat × Word) :=
  (List.range (len / 8)).map (fun i => (leAt b (o + 8 * i) 4, BitVec.ofNat 32 (leAt b (o + 8 * i + 4) 4)))

/-- All records of a container. -/
def cRecs (b : List Byte) : List (Nat × Word) := (cDir b).flatMap (fun e => recsAt b e.2.1 e.2.2.1)

/-- The bytes of a section, none where the container omits it. -/
def cSect (b : List Byte) (id : Nat) : Option (List Byte) :=
  ((cDir b).find? (fun e => e.1 == id)).map (fun e => (b.drop e.2.1).take e.2.2.1)

/-- Test 1 of R374. -/
def hdrOk (b : List Byte) (loadLen : Nat) : Bool :=
  leAt b 0 4 == 0x54414C50 && leAt b 4 2 == 1 && decide (cKind b ≤ 1) && decide (1 ≤ cNsect b ∧ cNsect b ≤ 10) &&
  leAt b 28 2 == 0x9464 && leAt b 30 2 == 0x1A57 && cLen b == loadLen && decide (cLen b ≤ 0x800000) &&
  zeroAt b 53 3 && zeroAt b 64 64

/-- Ascending numbers. -/
def rising : List Nat → Bool
  | a :: b :: l => decide (a < b) && rising (b :: l)
  | _ => true

/-- A section breaks R366 or R367. -/
def sectBad (b : List Byte) (id o len : Nat) : Bool :=
  let rs := recsAt b o len
  ! rising (rs.map (·.1)) || rs.any (fun r => (platSec r.1).1 != id)

/-- Walk the directory: the section ID test 6 names, if it fails. -/
def dirWalk (b : List Byte) : Nat → Nat → List (Nat × Nat × Nat × Bool) → Option Nat
  | _, o, [] => if o + 384 = cLen b then none else some 0
  | last, o, (id, off, len, zs) :: l =>
    if ! zs ∨ id ≤ last ∨ 10 < id ∨ off ≠ o ∨ off % 8 ≠ 0 ∨ len % 8 ≠ 0 ∨ cLen b < off + len + 384 ∨ sectBad b id off len then some id
    else dirWalk b id (off + len) l

/-- Test 6 of R374: the directory and sections, and the sections each kind carries (R367). -/
def dirBad (b : List Byte) : Option Nat :=
  match dirWalk b 0 (128 + 16 * cNsect b) (cDir b) with
  | some id => some id
  | none =>
    let ids := (cDir b).map (·.1)
    if cKind b = 0 then [1, 2, 3, 4, 5].find? (fun i => i ∉ ids) else ids.find? (fun i => i ≠ 5 ∧ i ≠ 8)

/-- Test 7 of R374. -/
def portsBad (b : List Byte) : Bool :=
  let rs := cRecs b
  let get (a : Nat) : Option Word := (rs.find? (fun r => r.1 == a)).map (·.2)
  let vs := (List.range 128).filterMap (fun p => match get (rp 0xA 0x100 p) with
    | some w => if Machine.bit w 31 then some (p, fld w 16 3, fld w 0 9) else none
    | none => none)
  let lanes := vs.flatMap (fun e => (List.range (2 ^ min 4 e.2.1)).map (· + e.2.2))
  vs.any (fun e => decide (5 ≤ e.2.1) || e.2.2 % 2 ^ e.2.1 != 0 || e.2.2 / 32 != (e.2.2 + 2 ^ min 4 e.2.1 - 1) / 32 ||
    (get (rp 6 0x100 e.1)).isNone) || lanes.eraseDups.length != lanes.length

/-! ## Setting the registers (R68, R197, R366, R368) -/

/-- The hop bound of a class at a port (R68). -/
def Dev.hopBound (d : Dev) (o c : Nat) : Nat :=
  if ! d.carried o c then 0 else if c ≤ 1 then 250 else cdiv (d.lOf o c * 125) (d.cap o) + 250

/-- FRM_DELIVERY_BOUND of a port. -/
def isBound (a : Nat) : Bool := blk a == 1 && decide (off a < 0x200000) && decide (0x100 ≤ pOff (off a) ∧ pOff (off a) < 0x11C)

/-- What the device derives at an activation: NDEV, CC_MODE and the hop bounds. -/
def Dev.derive (d : Dev) : Dev :=
  let n := d.ndev
  let d1 := (d.setFld (ra 6 4) 16 7 (min n 0x7F)).setFld (ra 6 4) 15 1 (b2n (decide (16 < n)))
  let d2 := { d1 with regs := d1.regs.filter (fun e => ! isBound e.1) }
  d2.validPorts.foldl (fun (x : Dev) p =>
    (List.range 7).foldl (fun y c => y.wr (rp 1 (0x100 + 4 * c) p) (BitVec.ofNat 32 (y.hopBound p c))) x) d2

/-- Write the records of a container. -/
def Dev.setRecs (d : Dev) (rs : List (Nat × Word)) : Dev :=
  (rs.foldl (fun (x : Dev) r => x.wr r.1 (r.2 &&& (platSec r.1).2)) d).derive

/-- The registers as a container leaves them: a FULL plat returns what it does not name to reset (R368). -/
def Dev.withPlat (d : Dev) (b : List Byte) : Dev :=
  let d0 := if cKind b = 0 then { d with regs := d.regs.filter (fun e => (platSec e.1).1 == 0) } else d
  d0.setRecs (cRecs b)

/-! ## Checks of a plat's content: each gives the conditions it raises -/

abbrev Fails := List (Nat × Nat × Nat)

/-- R175. -/
def Dev.chkPools (d : Dev) : Fails :=
  (List.range 4).filterMap (fun k => if d.poolSize k 1 < 4096 then some (5, 9, k * 0x4000 + 0x800) else none)

/-- R181 at one port: one condition for each failure. -/
def Dev.chkPort (d : Dev) (o : Nat) : Fails :=
  let cs := [2, 3, 4, 5, 6]
  let car := cs.filter (fun c => d.carried o c)
  let room : Int := (d.cap o : Int) - d.kMax o - (d.ctlCells o + 2 * (d.trainMax o - 1) : Nat)
  let sw : Int := ((car.map (fun c => d.wOf o c)).sum : Nat)
  let sg : Int := ((car.map (fun c => d.gOf o c)).sum : Nat)
  let one (bad : Nat → Bool) : Fails := (cs.filter bad).map (fun c => (5, 8, c * 256 + o))
  one (fun c => (d.wOf o c == 0) != (d.gOf o c == 0)) ++
  one (fun c => d.carried o c && decide (((d.wOf o c : Int) * room) / sw < d.gOf o c)) ++
  one (fun c => d.carried o c && decide (d.capOf o c < d.trainMax o * d.vcs o c)) ++
  (if car ≠ [] ∧ room < sg then [(5, 8, 7 * 256 + o)] else []) ++
  (if d.ctlCells o = 0 ∨ d.cap o / 4 < d.ctlCells o then [(5, 8, o)] else []) ++
  (if (d.cap o : Int) - d.ctlCells o - d.trainMax o - 2 < d.kMax o then [(5, 8, 256 + o)] else [])

/-- R197, R200, R206, R208, R212, R217, R230. -/
def Dev.chkRoute (d : Dev) : Fails :=
  let n := d.ndev
  let vs := d.validPorts
  let ring (g : Nat) : Nat := d.ring ((g - 1) / 2)
  let badPlace (g : Nat) : List Nat :=
    let ps := d.group g
    match ps with
    | [] => []
    | q :: _ => if ring g = 1 then ps else ps.filter (fun p => d.lane0 p / 32 != d.lane0 q / 32) ++ ps.drop 4
  let val := d.bit (ra 6 4) 24 || d.bit (ra 6 4) 25
  let half := d.kx / 2 + d.ky / 2 + d.kz / 2
  let cts := (d.entries 0x06800000 0x10 4096 1).filter (fun i => (d.ct i).valid)
  let load (m o : Nat) : Nat := ((cts.filter (fun i => (d.ct i).mask.testBit m && (d.ct i).outP == o)).map (fun i => (d.ct i).cells)).sum
  let lead := d.fld (ra 6 0x50) 16 16
  let dr := d.fld (ra 6 0x50) 0 6
  let auto := [1, 2, 3].any (fun m => d.bit (ra 6 (0x10 + 4 * m)) 31 && d.bit (ra 6 (0x10 + 4 * m)) 30)
  (if n < 4 ∨ 64 < n then [(6, 0xC, 0x500)] else []) ++
  ((List.range 7).flatMap (fun g => if g = 0 then [] else (badPlace g).map (fun p => (6, 0xC, 0x100 + p)))) ++
  (if val ∧ n ≤ 16 then [(6, 0xC, 0x200)] else []) ++
  (if d.hopLimit < (if val then 2 else 1) * half then [(6, 0xC, 0x300)] else []) ++
  (if 16 < n ∧ d.fld (ra 6 8) 8 8 ≤ d.fld (ra 6 8) 16 8 then [(6, 0xC, 0x600)] else []) ++
  ((vs.filter (fun o => (List.range 4).any (fun m => decide (d.kMax o < load m o)) ||
    decide (((2 * d.cap o / 5 : Nat) : Int) - d.trainMax o - 1 < d.kMax o))).map (fun o => (6, 0xC, 0x400 + o))) ++
  (if auto ∧ lead < (if dr = 0 then 64 else dr) + 3 * (half + 2) then [(6, 0xC, 0x700)] else [])

/-- Direction group opposite to `g`. -/
def oppo (g : Nat) : Nat := if g % 2 = 1 then g + 1 else g - 1

/-- R235: rules broken by a group's entry. -/
def Dev.chkGroup (d : Dev) (gs : List Nat) (g : Nat) : List Nat :=
  let e := d.gt g
  let no (k : Nat) : Bool := decide (d.group k = []) || k == 7
  let r1 := decide (9 < e.fmt) || ! d.bit (ra 7 0) e.fmt
  let r2 := decide (3 < e.op) || e.units == 0 || decide (maxUnits e.fmt < e.units)
  let r3 := e.mTotal == 0 || decide (e.mTotal < e.members.length + e.inDirs.length)
  let r4 := e.members.any (fun p => ! d.pvalid p || d.dir p != 0 || ! d.sliceHas e.slice p)
  let r5 := decide (e.outDir ∈ e.inDirs) || (e.outDir != 0 && no e.outDir) || e.inDirs.any no
  let r6 := e.outDir != 0 && e.inDirs.any (fun k => decide ((e.outDir - 1) / 2 < (k - 1) / 2) ||
    ((e.outDir - 1) / 2 == (k - 1) / 2 && k != oppo e.outDir))
  let sp := d.rt e.spillRegion
  let r7 := e.spillEn && (! sp.valid || sp.purpose != 2 || sp.slice != e.slice ||
    gs.any (fun x => x != g && (d.gt x).spillEn && (d.gt x).spillRegion == e.spillRegion))
  let c := d.dt e.catchId
  let r8 := (e.outDir != 0 || e.inDirs != []) && ! (c.ty == 4 && c.ref % 0x1000 == g)
  ([(1, r1), (2, r2), (3, r3), (4, r4), (5, r5), (6, r6), (7, r7), (8, r8)].filter (fun x => x.2)).map (·.1)

/-- R235: the first rule a group breaks (log 74). -/
def Dev.chkCat (d : Dev) : Fails :=
  let gs := d.groups
  gs.flatMap (fun g => ((d.chkGroup gs g).take 1).map (fun r => (7, 0x10, r * 4096 + g)))

/-- R266. -/
def Dev.chkCatCfg (d : Dev) : Fails :=
  let m := d.fullMib
  if m = 0 ∨ 16 < m ∨ 2000 < d.fld (ra 7 4) 0 12 ∨ 512 < d.fld (ra 7 4) 16 10 then [(7, 0x10, 0x9000)] else []

/-- R304: rules broken by an expert's entry. -/
def Dev.chkExpert (d : Dev) (e : Nat) : List Nat :=
  let x := d.et e
  let s := d.et x.set
  let ep := d.dt x.epId
  let f := d.et x.fallback
  let r1 := ! s.valid || s.set != x.set || s.slice != x.slice
  let r2 := ep.ty != 1 || ep.slice != x.slice || x.cap == 0 || x.w == 0 || x.policy == 3
  let r3 := x.policy == 1 && (! f.valid || x.fallback == e || f.set != x.set || (d.dt f.epId).coord != ep.coord)
  let r4 := d.dests.any (fun i => (d.dt i).ty == 5 && (d.dt i).ref % 2 ^ 14 == e && (x.set != e || (d.dt i).slice != x.slice))
  ([(1, r1), (2, r2), (3, r3), (4, r4)].filter (fun y => y.2)).map (·.1)

def Dev.chkFan (d : Dev) : Fails := d.experts.flatMap (fun e => ((d.chkExpert e).take 1).map (fun r => (8, 0x10, (r - 1) * 0x4000 + e)))

/-- R337, rules 1 to 3 and 5; an overlap is raised once, for the later region (log 74). -/
def Dev.chkBas (d : Dev) : Fails :=
  let rs := d.regions
  let bad1 (i : Nat) : Bool :=
    let r := d.rt i
    decide (6 ≤ r.purpose) || r.size == 0 || decide (114688 * 2 ^ 21 < r.base + r.size) || (r.page != 0 && r.purpose != 1)
  let over_ (i j : Nat) : Bool :=
    let a := d.rt i
    let b := d.rt j
    i != j && decide (a.base < b.base + b.size ∧ b.base < a.base + a.size)
  let bad3 (i : Nat) : Bool :=
    ! d.sliceOn (d.rt i).slice
  let dts := d.dests.filter (fun e => (d.dt e).ty == 2 && (d.dt e).coord == d.own)
  let bad3d := dts.filter (fun e => let r := (d.dt e).ref % 0x1000; ! (d.rt r).valid || (d.rt r).slice != (d.dt e).slice)
  let su := d.fld (ra 9 0) 0 10
  ((rs.filter bad1).map (fun i => (9, 0x10, 0x1000 + i))) ++
  ((rs.filter (fun i => rs.any (fun j => decide (j < i) && over_ i j))).map (fun i => (9, 0x10, 0x2000 + i))) ++
  (bad3d.map (fun e => (9, 0x10, 0x3000 + (d.dt e).ref % 0x1000))) ++ ((rs.filter bad3).map (fun i => (9, 0x10, 0x3000 + i))) ++
  (if su = 0 ∨ 840 < su ∨ 512 < d.corrSlots then [(9, 0x10, 0x5000)] else [])

/-- Test 8 of R374: the conditions of the first check that fails, on the registers as the container leaves them. -/
def Dev.content (d : Dev) : Fails :=
  let x := { d with ports := [] }
  ([x.chkPools, x.validPorts.flatMap x.chkPort, x.chkRoute, x.chkCat, x.chkCatCfg, x.chkFan, x.chkBas].find? (fun l => l != [])).getD []

/-- The active owner digest and modulus (R427). -/
def Nv.owner (n : Nv) : Option (List Byte × List Byte) :=
  match n.owners.getLast?, n.moduli.getLast? with
  | some a, some b => some (a, b)
  | _, _ => none

/-- Test 3 of R374: KEY_ID and the signature. -/
def ownerSig (n : Nv) (keyId msg sig : List Byte) : Bool :=
  match n.owner with
  | some (dig, m) => keyId == dig.take 8 && sigOk m msg sig
  | none => false

/-- The signature of a container. -/
def contSig (n : Nv) (b : List Byte) : Bool :=
  ownerSig n ((b.drop 56).take 8) (b.take (cLen b - 384)) (b.drop (cLen b - 384))

/-- Test 5 of R374 (R370). -/
def epochOk (d : Dev) (n : Nv) (b : List Byte) : Bool :=
  if cKind b = 0 then decide (n.floor < cEpoch b)
  else d.plat.active && cBase b == d.plat.epoch && decide (d.plat.epoch < cEpoch b) && cFabric b == d.plat.fabric

/-- Tests 4 and 6 to 8: condition, DETAIL and the conditions of the checks (R376 runs these again). -/
def Dev.contTests (d : Dev) (b : List Byte) : Option (Nat × Nat × Fails) :=
  match dirBad b with
  | some id => some (6, id, [])
  | none =>
    if cKind b = 0 ∧ portsBad b then some (6, 3, [])
    else
      match (d.withPlat b).content with
      | [] => none
      | (blk, x) :: l => some (7, blk * 256, (blk, x) :: l)

/-- TARGET names this device or any (test 4). -/
def targetOk (b : List Byte) : Bool := leAt b 32 8 == 0 || leAt b 32 8 == Config.serial.toNat

/-- The tests of R374 in their order. -/
def Dev.platTests (d : Dev) (n : Nv) (b : List Byte) : Option (Nat × Nat × Fails) :=
  if ! hdrOk b d.plat.len then some (1, 0x100, [])
  else if d.col.fwVer.toNat < leAt b 44 4 then some (1, 0x200, [])
  else if ! contSig n b then some (2, 0, [])
  else if ! targetOk b then some (5, 0, [])
  else if ! epochOk d n b then some (4, 0, [])
  else d.contTests b

/-- A structural difference from the active plat (R379). -/
def structural (act b : List Byte) : Bool :=
  let mib (x : List Byte) : Nat :=
    match (cRecs x).find? (fun r => r.1 == ra 7 0) with
    | some r => fld r.2 24 5
    | none => 6
  [1, 2, 3].any (fun i => cSect act i != cSect b i) || mib act != mib b

end Sys2Proof.Machine
end

