-- ==== Sys2Proof/Machine/Data.lean ====
section
/-! DEFINITION. Putting a plat into effect (R168, R368, R379, R504, R522), ending launches and rounds (R385), residue (R224), and
what a data-path reset clears (R468, R469). -/

namespace Sys2Proof.Machine

/-- Code of the alignment state. -/
def frmCode : FrmSt → Nat
  | .free => 0
  | .locked => 1
  | .holdover => 2
  | .lost => 3

/-- Lanes that ENABLE or a state concerns. -/
def Dev.lanesInUse (d : Dev) : List Nat :=
  let a := (d.regs.filter (fun e => blk e.1 == 2 && decide (off e.1 < 0x200000) && off e.1 % 0x1000 == 0)).map (fun e => off e.1 / 0x1000)
  (a ++ d.lanes.map (·.1)).dedup

/-- Every lane takes the state its controls give it; a port that loses one goes down with it (R100). -/
def Dev.evalAll (d : Dev) : Dev :=
  let d1 := d.lanesInUse.foldl (fun (x : Dev) l => x.evalLane l) d
  (d1.ports.map (·.1)).foldl (fun (x : Dev) p => x.downNow p) d1

/-- The trackers of a port reset (R168): held ORDER packets time out, and the reset is reported. -/
def Dev.resetTrackers (d : Dev) (p : Nat) : Dev :=
  let d1 := d.flushOrder p
  ({ d1 with trks := d1.trks.filter (fun e => e.1 / 65536 != p) } : Dev).event 5 (leBytes 1 p ++ zeros 7)

/-- A capture channel or pattern source uses a region and is at work. -/
def Dev.capUses (d : Dev) (c i : Nat) : Bool :=
  ((d.cap_ c).st == .armed || (d.cap_ c).st == .run) && d.fld (capReg 4 c) 0 12 == i
def Dev.patUses (d : Dev) (s i : Nat) : Bool :=
  let x := mapGet {} d.pats s
  (x.st == .armed || x.st == .run || x.st == .paused) && d.fld (patReg 4 s) 0 12 == i

/-- Channels and sources whose region the new tables alter or remove stop (R522). -/
def Dev.stopRegions (old d : Dev) : Dev :=
  let changed (i : Nat) : Bool := old.rt i != d.rt i
  let d1 := (List.range 8).foldl (fun (x : Dev) c =>
    if x.capUses c (x.fld (capReg 4 c) 0 12) && changed (x.fld (capReg 4 c) 0 12) then
      (x.setCap c { x.cap_ c with st := .stopped, staged := [] }).raise 0x11 7 c
    else x) d
  (List.range 8).foldl (fun (x : Dev) s =>
    if x.patUses s (x.fld (patReg 4 s) 0 12) && changed (x.fld (patReg 4 s) 0 12) then
      (({ x with pats := mapSet {} x.pats s { mapGet {} x.pats s with st := .stopped } } : Dev).patWithdraw s).raise 0x11 7 (8 + s)
    else x) d1

/-- Direction role and ORD_EN of every port (R168). -/
def Dev.trkRoles (d : Dev) : List Nat := (List.range 128).map (fun p => d.fld (rp 6 0x100 p) 0 3 * 2 + d.fld (rp 4 0x100 p) 0 1)

/-- The registers of a FULL plat take effect, with what changes with them: trackers, roles, regions, lanes. -/
def Dev.applyFull (d : Dev) (b : List Byte) : Dev :=
  let nw := d.withPlat b
  let ps := List.range 128
  let was := d.plat.roles.getD d.trkRoles
  let new := nw.trkRoles
  let trk := ps.filter (fun p => was.getD p 0 != new.getD p 0)
  let d0 : Dev := (trk.foldl (fun (x : Dev) p => x.resetTrackers p) d).withPlat b
  let d1 : Dev := { d0 with plat := { d0.plat with roles := none } }
  let d2 := (ps.filter (fun p => nw.pvalid p && d.emuRole p != nw.emuRole p)).foldl (fun (x : Dev) p => (x.portFail p).downNow p) d1
  let ign := ps.filter (fun p => nw.pvalid p && nw.isTorus p && decide (1 ≤ nw.fld (rp 0x11 0x100 p) 0 2 ∧ nw.fld (rp 0x11 0x100 p) 0 2 ≤ 2))
  let d3 := ign.foldl (fun (x : Dev) p => x.raise 0x11 6 p) d2
  let d4 := Dev.stopRegions d d3
  let clamp := d4.fld (ra 0xF 0x18) 0 16
  let ceil := min Config.fuseW.toNat (match d4.pwr.strap.toNat with | 0 => 1500 | 1 => 1350 | 2 => 1200 | _ => 1000)
  (if ceil < clamp then d4.raise 0xE 1 0 else d4)

/-- Ports are placed by whether they are in UP after an activation (R227). -/
def Dev.markUps (d : Dev) : Dev :=
  { d with ports := d.ports.map (fun e => (e.1, { e.2 with wasUp := e.2.st == .up })) }

/-- R385: launches and rounds end with the PLAT condition as their word, and every state becomes IDLE. -/
def Dev.endAll (d : Dev) (w : Word) : Dev :=
  let f := d.fno
  let gs := (d.launches.filter (fun e => e.2.st == .armed || e.2.st == .run || e.2.st == .aborting)).map (·.1)
  let d1 := gs.foldl (fun (x : Dev) g =>
    (x.setLaunch g { x.launch g with prop := some (f, w), st := .aborting }).abortEnd g) d
  let rs := (d.rounds.filter (fun e => rsLive e.2.st || e.2.st == .aborting)).map (·.1)
  let d2 := rs.foldl (fun (x : Dev) r =>
    (x.onRnd r (fun y => { y with prop := some (f, w), st := .aborting })).fanAbortEnd r) d1
  { d2.dropChunks (fun _ => true) with
    launches := d2.launches.map (fun e => (e.1, { e.2 with st := .idle, prop := none }))
    rounds := d2.rounds.map (fun e => (e.1, { e.2 with st := .idle, prop := none, combos := [], copies := [] })) }

/-- Packets of the affected classes still in a hold of a torus-role port at T (R224): discarded, counted, raised; what they
belonged to aborts. -/
def Dev.residue (d : Dev) (classes : Nat) : Dev :=
  let l := d.pkts.filter (fun k => inHold k && (match k.ing with | some p => d.isTorus p | none => false) &&
    decide (2 ≤ k.pk.hdr.cls.toNat) && classes.testBit k.pk.hdr.cls.toNat)
  let n := l.length
  if n = 0 then d
  else
    let d1 := l.foldl (fun (x : Dev) k => x.dropPkt k { cause := .residue n, atOut := false, port := k.ing.getD 0 }) d
    ((d1.add64 (ra 6 0xB8) n).raise 6 8 (min n 0xFFFF)).settleLoss

/-- Quarantined ports are tested again at an activation, and return to UP in T where the tests pass (R120, R123). -/
def Dev.retest (d : Dev) (p : Nat) : Dev :=
  let x := d.port p
  match x.st, x.ident, x.delay with
  | .quar, some i, some t =>
    if x.cause = 5 ∨ x.due.contains .down then d
    else if x.cause = 6 then d.resumeUp p
    else
      match d.linkTest p i t with
      | none => d.resumeUp p
      | some (c, _, _) =>
        let swapped := c == 2 && d.validPorts.any (fun q => q != p && Machine.bit (d.nb q) 31 && d.matchesRole i q &&
          (match (d.port q).ident with | some j => d.matchesRole j p | none => false))
        d.onPort p (fun y => { y with cause := if swapped then 3 else c })
  | _, _, _ => d

/-- Remapped pairs revert and retrain (R121, R384 step 6). -/
def Dev.unmapAll (d : Dev) : Dev :=
  ((d.ports.filter (fun e => e.2.role.isSome)).map (·.1)).foldl (fun (x : Dev) p => (x.portFail p).downNow p) d

/-- Ports that are not in UP count their time out of it from an activation (R120). -/
def Dev.outFrom (d : Dev) : Dev :=
  (d.validPorts.filter (fun p => ! d.isUp p)).foldl (fun (x : Dev) p => x.onPort p (fun y => { y with tOut := d.now, missing := false })) d

/-- The corridors in force when a frame's changes have been made (R184, R215): those that the budgets of the frame did not foresee have
CELLS in it and in the next, those no longer in force none. -/
def Dev.corrFrom (d old : Dev) : Dev :=
  let was := old.corridorsIn (old.ovlAt old.fno)
  let now := d.corridors
  let gone := was.filter (fun i => ! now.contains i || old.ct i != d.ct i)
  let new := now.filter (fun i => (! was.contains i || old.ct i != d.ct i) && d.isUp (d.ct i).outP && ! d.txIdle (d.ct i).outP)
  let d1 : Dev := { d with corr := d.corr.filter (fun e => ! gone.contains e.1) }
  new.foldl (fun (x : Dev) i => { x with corr := mapSet (0, 0) x.corr i ((x.ct i).cells, (x.ct i).cells) }) d1

/-! ## The data-path reset -/

/-- Registers that a data-path reset keeps: GLB, FRM, PLAT, TRAIL, COL, NAR, PWR, and the repairs since the last cold reset. -/
def dpKeeps (a : Nat) : Bool :=
  [0, 1, 0xA, 0xC, 0xD, 0xE, 0xF].contains (blk a) ||
  (blk a == 9 && decide (0x100 ≤ off a ∧ off a < 0x200) && off a % 0x20 == 0xC)

/-- An input that waits and is lost with the data path: an Obvo command, or an in-band message. -/
def lostInput : Instr → Bool
  | .obvoRd _ _ _ _ => true
  | .obvoWr _ _ _ _ => true
  | .obvoWrm _ _ _ _ _ => true
  | .dmaWr _ _ _ _ _ => true
  | .dmaRd _ _ _ _ _ => true
  | .obvoCmdUndefined _ _ _ => true
  | .bypassMessage _ => true
  | .catHold _ => true
  | .catAbort _ => true
  | .fanAbortMessage _ => true
  | .colMessage _ => true
  | .cntRead _ => true
  | _ => false

/-- Who gives an action that a data-path reset leaves: the rack manager or Col. -/
def keptWho : Who → Bool
  | .sw s => s != .obvo
  | .inBand _ => false

/-- Everything R468 lists as lost, without counting. -/
def Dev.dpClear (d : Dev) : Dev :=
  let d0 := (d.lanes.filter (fun e => e.2.sending)).foldl (fun (x : Dev) e => x.emit (.line e.1 0 none)) d
  { d0 with
    regs := d.regs.filter (fun e => dpKeeps e.1), lanes := [], ports := [], pkts := [], queue := [], bufs := [], quarBufs := [], bud := [], corr := []
    stages := [], trks := [], samp := [], samples := [], ract := none, ovl := 0, lfsr := [1, 1, 1, 1], inj := []
    injAll := [], oxbow := [], reps := [], chunks := [], launches := [], units := [], rounds := [], xcount := [], xwin := [], pend := []
    reqs := [], stackU := [], caps := [], pats := [], injs := [], bwin := [], bwWin := 13, bwAt := none, snapDue := false, wmarkDue := false, lost := [], cntServed := 0, dpDue := false, inService := false
    inputs := d.inputs.filter (fun c => ! lostInput c), level1 := []
    plat := { d.plat with active := false, act := none, plan := .none, apply := none, roles := if d.plat.active then some d.trkRoles else d.plat.roles }
    col := { d.col with m4 := zeros 32, restoreDue := false }
    evDiscarded := d.evDiscarded + d.obvo.events.length
    obvo := { d.obvo with
      inSt := .down, outSt := .down, validA := false, validB := false, evSide := 0, events := [], evSeq := 0, lostSince := 0, lostFrame := 0, kept := [], due := []
      cmds := d.obvo.cmds.filter (fun c => match c.path with | .obvo _ => false | _ => true)
      acts := d.obvo.acts.filter (fun a => keptWho a.who), held := d.obvo.held.filter (fun a => keptWho a.who), reads := d.obvo.reads.filter (fun r => r.src != .obvo) } }

/-- Every core die, lane die, stack and bridge takes a state. -/
def Dev.allParts (d : Dev) (v : PartSt) : Dev :=
  { d with dies := List.replicate 12 v, hbms := List.replicate 8 v, bridges := List.replicate 15 v }

/-- Core and lane dies held in reset (R460, R475): with the main rails or the dies off, stacks and bridges do not run either (R40). -/
def Dev.diesOff (d : Dev) : Dev := { d.dpClear.allParts .off with dpBusy := false }

/-- A data-path reset begins with its cause (R469). Contents of Basin are lost after a stack FAULT (R358). -/
def State.dpBegin (s : State) (cause : Nat) : State :=
  let lost := s.dev.hbms.any (· == .fault)
  let d1 := s.dev.dpClear.allParts .init
  let d2 := ((d1.wr (ra 0 0x44) (at32 24 8 cause ||| at32 0 16 (s.dev.fno % 65536))).addSat (ra 0 0x48) 1)
  let d3 : Dev := { d2 with dpBusy := true, dpAt := s.dev.now, stackLost := lost }
  if lost then
    { s with dev := ({ d3 with bad := [], weak := [], dueRows := [] } : Dev).wr (ra 9 8) 1 |>.raise 9 0xD 0, mem := [] }
  else { s with dev := d3 }

/-- Every part of the data path is UP. -/
def Dev.dataUp (d : Dev) : Bool := d.dies.all (· == .up) && d.hbms.all (· == .up) && d.bridges.all (· == .up)

end Sys2Proof.Machine
end

