-- ==== Sys2Proof/Machine/Power.lean ====
section
/-! DEFINITION. Power and thermal control (R437, R446-R465). -/

namespace Sys2Proof.Machine

def Dev.onPwr (d : Dev) (f : Pwr → Pwr) : Dev := { d with pwr := f d.pwr }

/-- CEIL_W (R437). -/
def Dev.ceilW (d : Dev) : Nat :=
  min Config.fuseW.toNat (match d.pwr.strap.toNat with | 0 => 1500 | 1 => 1350 | 2 => 1200 | _ => 1000)

/-- L_EFF (R448). -/
def Dev.limit (d : Dev) : Nat :=
  let cap (o : Nat) : Nat := d.fld (ra 0xF o) 0 16
  let opt (o m : Nat) : Nat := if cap o = 0 then m else min m (max 400 (cap o))
  opt 0xC (opt 0x10 (min (max 400 d.ceilW) (max 400 (cap 0x18))))

/-- SLEW in watts per 100 µs (R449). -/
def Dev.slew (d : Dev) : Nat := max 10 (min 500 (d.fld (ra 0xF 0x1C) 0 9))

/-- P_ALLOW of a boundary, in 1/800 W (R449). -/
def Dev.nextAllow (d : Dev) : Nat :=
  let l := 800 * d.limit
  if d.pwr.holdTrail || d.pwr.holdHost then min l d.pwr.pAllow else min l (d.pwr.pAllow + d.slew)

/-- The effective stage (R453). -/
def Dev.powerStage (d : Dev) : Nat :=
  let x := d.pwr
  let fault (s : LeakSt) : Bool := s == .short || s == .open
  let a := if x.brakeLow || x.avsFault.any id then 1 else 0
  let b := if x.blind ≠ [] ∨ fault x.leakA ∨ fault x.leakB then 2 else 0
  let c := if x.wetA || x.wetB then 3 else 0
  max (max a b) (max c (max x.stageTherm x.stageBrake))

/-- Ceiling of S at a stage. -/
def stageCeil (n : Nat) : Nat :=
  match n with
  | 0 => 256
  | 1 => 128
  | 2 => 64
  | _ => 0

/-- S moves within its ceiling (R452, R454); how is free (log 4). -/
def Dev.setScale (d : Dev) : Dev :=
  ({ d with draws := d.draws + 1 } : Dev).onPwr (fun x => { x with scale := min (stageCeil d.powerStage) (Config.scaleChoice d.draws) })

/-- An excess ends (R455). -/
def Dev.excessEnd (d : Dev) : Dev :=
  match d.pwr.excess with
  | none => d
  | some (f, no) =>
    let d1 := d.onPwr (fun x => { x with excess := none, viol := false })
    if d.pwr.viol then
      let n := min (d.age f) 0xFFFF
      ((d1.raise 0xF 3 n).wr (ra 0xF 0x2C) (at32 16 16 no.toNat ||| at32 0 16 n)).addSat (ra 0xF 0x38) 1
    else d1

/-- What a frame boundary does with the estimate of the draw (R448, R449, R452, R454, R455). -/
def Dev.powerTick (d : Dev) (pEst : Nat) : Dev :=
  let l := d.limit
  let d1 := if l = d.pwr.lEff then d else (d.onPwr (fun x => { x with lEff := l })).raise 0xF 1 l
  let d2 := d1.onPwr (fun x => { x with pEst := pEst, pAllow := d1.nextAllow, stageBrake := if x.braking then 3 else x.stageBrake, braking := false })
  let allow := d2.pwr.pAllow
  let exceeds := decide (allow < 800 * pEst)
  let big := decide (allow + 600 * 800 < 800 * pEst)
  let d3 := if exceeds then
      let y := match d2.pwr.excess with
        | some _ => d2
        | none =>
          let z := d2.onPwr (fun x => { x with excess := some (d2.now, BitVec.ofNat 16 d2.fno), viol := big })
          if big then z.raise 0xF 2 0 else z
      y.onPwr (fun x => { x with okRun := 0, braking := big || x.braking })
    else d2.excessEnd.onPwr (fun x => { x with okRun := x.okRun + 1 })
  d3.setScale

/-- CAP_VIOLATION_400 (R455): an excess in its 400th frame. -/
def execCapViolation400 (s : State) : Host.Outcome State Fault Refusal :=
  devStep (fun d =>
    match d.pwr.excess with
    | some (f, _) => if ! d.pwr.viol ∧ 399 ≤ d.age f then (d.onPwr (fun x => { x with viol := true })).raise 0xF 2 0 else d
    | none => d) s

/-- BRAKE_STEP_DOWN (R454): 800 consecutive frames at or below P_ALLOW. -/
def execBrakeStepDown (s : State) : Host.Outcome State Fault Refusal :=
  devStep (fun d =>
    if 0 < d.pwr.stageBrake ∧ 800 < d.pwr.okRun then
      d.onPwr (fun x => { x with stageBrake := x.stageBrake - 1, okRun := 1 })
    else d) s

/-- The level of BRAKE_N as a boundary samples it (R55, R456). -/
def Dev.brakeTick (d : Dev) : Dev :=
  if d.pwr.brakeLow = d.pwr.brakePin then d
  else (d.onPwr (fun x => { x with brakeLow := x.brakePin })).raise 0xF 4 (b2n (! d.pwr.brakePin))

/-- BRAKE (R456): the level of BRAKE_N changes; the next boundary samples it (R57). -/
def execBrake (low : Bool) (s : State) : Host.Outcome State Fault Refusal :=
  devStep (fun d => d.onPwr (fun x => { x with brakePin := low })) s

/-! ## Adaptive voltage (R446, R447) -/

/-- AVS_FAULT (R447). -/
def execAvsFault (k : BitVec 2) (s : State) : Host.Outcome State Fault Refusal :=
  devStep (fun d =>
    if d.pwr.avsFault.getD k.toNat false then d
    else (d.onPwr (fun x => { x with avsFault := x.avsFault.set k.toNat true })).raise 0xF 0xB k.toNat) s

/-- AVS_RECOVER (R447): bus k has answered correctly for 800 frames. -/
def execAvsRecover (k : BitVec 2) (s : State) : Host.Outcome State Fault Refusal :=
  devStep (fun d => d.onPwr (fun x => { x with avsFault := x.avsFault.set k.toNat false })) s

/-- Target in effect: the board's 800 mV until the first command (R473). -/
def Dev.avsNow (d : Dev) (k : Nat) : Nat := if d.pwr.avsTarget.getD k 0 = 0 then 800 else d.pwr.avsTarget.getD k 0

/-- AVS_STEP (R446): the limits of a step. -/
def execAvsStep (k : BitVec 2) (target : BitVec 10) (s : State) : Host.Outcome State Fault Refusal :=
  devStep (fun d =>
    let i := k.toNat
    let t := target.toNat
    let first := d.pwr.avsTarget.getD i 0 == 0
    if d.pwr.avsFault.getD i false ∨ t < 700 ∨ 850 < t ∨ d.avsNow i + 10 < t ∨ t + 10 < d.avsNow i ∨
        (! first ∧ d.age (d.pwr.avsAt.getD i 0) < 800) ∨ ! d.dies.any (· != .off) then d
    else
      (d.onPwr (fun x => { x with avsTarget := x.avsTarget.set i t, avsAt := x.avsAt.set i d.now })).emit (.avs i t)) s

/-! ## Thermal sensing (R457-R459) -/

/-- Die of a diode, and its index within its die. -/
def diodeDie (i : Nat) : Nat := if i < 64 then i / 16 else 4 + (i - 64) / 2
def diodeIx (i : Nat) : Nat := if i < 64 then i % 16 else (i - 64) % 2

/-- Diodes of a die. -/
def dieDiodes (k : Nat) : List Nat := if k < 4 then (List.range 16).map (· + 16 * k) else [64 + 2 * (k - 4), 65 + 2 * (k - 4)]

/-- Insert into an ascending list. -/
def insAsc (a : Int) : List Int → List Int
  | [] => [a]
  | b :: l => if a ≤ b then a :: b :: l else b :: insAsc a l

/-- Twice the median of a list. -/
def median2 (l : List Int) : Int :=
  let s := l.foldr insAsc []
  let n := s.length
  if n % 2 = 1 then 2 * s.getD (n / 2) 0 else s.getD (n / 2 - 1) 0 + s.getD (n / 2) 0

/-- Reasons 1 to 3 that a reading gives (R457). -/
def Dev.diodeBad (d : Dev) (i : Nat) (t : Int) (noRise : List Nat) : Nat :=
  if t < -160 ∨ 600 < t then 1
  else if t < 20 ∧ d.rails ∧ 80000 < d.age d.pwr.powerAt then 2
  else if i ∈ noRise then 3 else 0

/-- Fault reasons after a reading; a faulted diode stays so. -/
def Dev.diodeFaults (d : Dev) (temps : List Int) (noRise : List Nat) : List Nat :=
  let old (i : Nat) : Nat := d.pwr.dfault.getD i 0
  let t (i : Nat) : Int := temps.getD i 0
  let one (i : Nat) : Nat := if old i ≠ 0 then old i else d.diodeBad i (t i) noRise
  (List.range 80).map (fun i =>
    if one i ≠ 0 ∨ 64 ≤ i then one i
    else
      let others := ((dieDiodes (i / 16)).filter (fun j => j != i && one j == 0)).map t
      if others ≠ [] ∧ 240 < (2 * t i - median2 others).natAbs then 4 else 0)

/-- Die Tj in 0.25 °C, none when blind (R458). -/
def dieTj (k : Nat) (temps : List Int) (faults : List Nat) : Option Int :=
  let vs := (dieDiodes k).filter (fun i => faults.getD i 0 == 0)
  let top := (vs.map (fun i => temps.getD i 0)).foldl max (-2000)
  let n := vs.length
  if k < 4 then (if 8 ≤ n then some top else if 4 ≤ n then some (top + 20) else none)
  else if n = 2 then some top else if n = 1 then some (top + 20) else none

/-- The hottest die that is not blind. -/
def hottest (l : List (Nat × Int)) : Option (Nat × Int) :=
  l.foldl (fun m e => match m with | none => some e | some x => if x.2 < e.2 then some e else m) none

/-- DIODE_READ (R457-R459). -/
def execDiodeRead (temps : List Int) (noRise : List Nat) (s : State) : Host.Outcome State Fault Refusal :=
  devStep (fun d =>
    let fs := d.diodeFaults temps noRise
    let d1 := (List.range 80).foldl (fun (x : Dev) i =>
      if d.pwr.dfault.getD i 0 = 0 ∧ fs.getD i 0 ≠ 0 then x.raise 0xF 7 (diodeDie i * 256 + fs.getD i 0 * 16 + diodeIx i) else x) d
    let bl := (List.range 12).filter (fun k => (dieTj k temps fs).isNone)
    let d2 := (bl.filter (fun k => k ∉ d.pwr.blind)).foldl (fun (x : Dev) k => x.raise 0xF 8 k) d1
    let d3 := d2.onPwr (fun x => { x with temps := temps, dfault := fs, blind := bl })
    match hottest ((List.range 12).filterMap (fun k => (dieTj k temps fs).map (fun t => (k, t)))) with
    | none => d3
    | some (k, t) =>
      let d4 := d3.onPwr (fun x => { x with
        tj := t, tjDie := k, coolAt := if t < 388 then (match x.coolAt with | some f => some f | none => some d.now) else none })
      if 400 ≤ t then
        let n := min 3 (d.pwr.stageTherm + 1)
        (d4.onPwr (fun x => { x with stageTherm := n })).raise 0xF 5 (k * 256 + n)
      else d4) s

/-- THERM_STEP_DOWN (R459): 800 frames below 97 °C. -/
def execThermStepDown (s : State) : Host.Outcome State Fault Refusal :=
  devStep (fun d =>
    match d.pwr.coolAt with
    | some f =>
      if 0 < d.pwr.stageTherm ∧ 800 ≤ d.age f then
        d.onPwr (fun x => { x with stageTherm := x.stageTherm - 1, coolAt := some d.now })
      else d
    | none => d) s

/-- THERM_TRIP (R460). -/
def execThermTrip (i : Fin 80) (s : State) : Host.Outcome State Fault Refusal :=
  devStep (fun d =>
    let d1 := (d.onPwr (fun x => { x with trip := true, hot := true })).raise 0xF 6 (diodeDie i.val * 256 + diodeIx i.val)
    { d1.diesOff with level1 := d.level1 ++ [.trip] }) s

/-- A write of PWR_CTL (R457, R460, R461): only from the trail port. A trip of the same sample prevails over its TRIP_CLR (R462);
with the main rails lost the data path starts when they return (R475). -/
def State.pwrCtl (s : State) (src : Src) (v : Word) : State :=
  if ! isTrail src then s
  else
    let d := s.dev
    let d1 := if Machine.bit v 29 then d.onPwr (fun x => { x with dfault := List.replicate 80 0 }) else d
    let d2 := if Machine.bit v 30 then
        (if d1.pwr.leakA = .dry ∧ d1.pwr.leakB = .dry then d1.onPwr (fun x => { x with wetA := false, wetB := false })
         else d1.raise 0xF 0xD 1)
      else d1
    if Machine.bit v 31 then
      let warm := (List.range 80).any (fun i => d2.pwr.dfault.getD i 0 == 0 && decide (360 ≤ d2.pwr.temps.getD i 0))
      if d.pwr.hot || warm || d.level1.contains .trip then { s with dev := d2.raise 0xF 0xD 0 }
      else if d2.pwr.trip ∧ ! d2.rails then { s with dev := d2.onPwr (fun x => { x with trip := false }) }
      else if d2.pwr.trip then
        State.dpBegin { s with dev := d2.onPwr (fun x => { x with trip := false, powerAt := d.now }) } 6
      else { s with dev := d2 }
    else { s with dev := d2 }

/-- TRIP_CLR (R460). -/
def execTripClr (src : Src) (v : Word) (hot : Bool) (s : State) : Host.Outcome State Fault Refusal :=
  .next (s.waitFrom src (.tripClr src v hot))

/-- LEAK_CLR (R461). -/
def execLeakClr (src : Src) (v : Word) (s : State) : Host.Outcome State Fault Refusal := .next (s.waitFrom src (.leakClr src v))

/-- DIODE_RETRY (R457). -/
def execDiodeRetry (src : Src) (v : Word) (s : State) : Host.Outcome State Fault Refusal :=
  .next (s.waitFrom src (.diodeRetry src v))

/-! ## The leak loop (R461) -/

/-- State of a resistance. -/
def leakOf (r : Nat) : LeakSt := if r < 100 then .short else if r < 15000 then .wet else if r ≤ 27000 then .dry else .open

def leakCode : LeakSt → Nat
  | .dry => 0
  | .wet => 1
  | .short => 2
  | .open => 3

/-- A loop enters a state. -/
def Dev.leakTo (d : Dev) (loop : Nat) (old new : LeakSt) : Dev :=
  if old = new then d
  else
    match new with
    | .dry => d
    | .wet => (d.onPwr (fun x => if loop = 0 then { x with wetA := true } else { x with wetB := true })).raise 0xF 9 loop
    | f => d.raise 0xF 0xA (loop + 2 * leakCode f)

/-- LEAK_MEASURE (R461): a loop's state changes when two measurements in a row agree. -/
def execLeakMeasure (r0 r1 : Nat) (s : State) : Host.Outcome State Fault Refusal :=
  devStep (fun d =>
    let x := d.pwr
    let a := if leakOf r0 = x.lastA then leakOf r0 else x.leakA
    let b := if leakOf r1 = x.lastB then leakOf r1 else x.leakB
    let d1 := d.onPwr (fun y => { y with lastA := leakOf r0, lastB := leakOf r1, leakA := a, leakB := b })
    (d1.leakTo 0 x.leakA a).leakTo 1 x.leakB b) s

/-! ## Orders (R437, R448, R451, R462) -/

/-- A cap is written by its source (R448, R462); an order above CEIL_W is clamped and raised once (R437). -/
def Dev.capWrite (d : Dev) (o : Nat) (w : Nat) : Dev :=
  let d1 := d.wr (ra 0xF o) (at32 0 16 w)
  if d.ceilW < w % 65536 then d1.raise 0xE 1 0 else d1

/-- A write of PWR_CAP_TRAIL or PWR_CAP_HOST from a source. -/
def Dev.capFrom (d : Dev) (src : Src) (o : Nat) (v : Word) : Dev :=
  if (o = 0xC ∧ isTrail src) ∨ (o = 0x10 ∧ src = .obvo) then d.capWrite o (v.toNat % 65536) else d.raise 0xF 0xC (srcLevel src)

/-- PWR_CAP_HOST (R448). -/
def execPwrCapHost (src : Src) (v : Word) (s : State) : Host.Outcome State Fault Refusal :=
  .next (s.waitFrom src (.pwrCapHost src v))

/-- Set or clear the writer's hold-off (R451). -/
def Dev.holdSet (d : Dev) (src : Src) (b : Bool) : Dev :=
  d.onPwr (fun x => if isTrail src then { x with holdTrail := b } else if src = .obvo then { x with holdHost := b } else x)

/-- A write of PWR_HOLD (R451). -/
def Dev.holdWrite (d : Dev) (src : Src) (v : Word) : Dev :=
  let d1 := if Machine.bit v 31 then d.holdSet src true else d
  if Machine.bit v 30 then d1.holdSet src false else d1

/-- PWR_HOLD_SET (R451). -/
def execPwrHoldSet (src : Src) (v : Word) (s : State) : Host.Outcome State Fault Refusal :=
  .next (s.waitFrom src (.pwrHoldSet src v))

/-- PWR_HOLD_CLR (R451). -/
def execPwrHoldClr (src : Src) (v : Word) (s : State) : Host.Outcome State Fault Refusal :=
  .next (s.waitFrom src (.pwrHoldClr src v))

end Sys2Proof.Machine
end

