-- ==== Sys2Proof/Machine/Reset.lean ====
section
/-! DEFINITION. Resets, power-up, part faults, scrub, LEDs and locate (R40-R43, R356, R357, R466-R489). -/

namespace Sys2Proof.Machine

/-! ## Cold reset and RESET_N (R40, R468, R473, R474) -/

/-- GLB_STRAP as the straps are sampled. -/
def strapWord (st : Straps) : Word :=
  at32 0 12 st.coord.toNat ||| at32 12 2 st.trayPos.toNat ||| at32 15 1 (b2n st.coordSrc)

/-- A non-zero 64-bit number from the TRNG. -/
def Dev.newNonce (d : Dev) : Dev :=
  let n := (Config.trng d.draws).toNat * 2 ^ 32 + (Config.trng (d.draws + 1)).toNat
  { d with draws := d.draws + 2, col := { d.col with nonce := BitVec.ofNat 64 (if n = 0 then 1 else n) } }

/-- The load state a reset finds the stage in (R372, R392). -/
def stageLoad (n : Nv) : LoadSt := if n.stage = [] then .empty else if n.stageOk then .staged else .refused

/-- The device as a cold reset or RESET_N leaves it, the straps not yet sampled: what lies outside the device stands. -/
def State.wipe (s : State) (low : Bool) : State :=
  let d := s.dev
  { s with
    mem := []
    dev := { stby := true, resetLow := low, rails := d.rails, straps := d.straps, clkDead := d.clkDead, draws := d.draws, out := d.out
             ir := d.ir, bsr := d.bsr, tapHeld := d.tapHeld
             plat := { load := stageLoad s.nv, trail := s.nv.stageTrail, len := s.nv.stage.length, got := s.nv.stage.length
                       digest := if s.nv.stageOk then d.plat.digest else [] }
             level1 := if low then [.resetN] else []
             pwr := { brakePin := d.pwr.brakePin, strap := d.pwr.strap } } }

/-- INIT begins once the main rails are within tolerance (R473 step 4). -/
def Dev.startInit (d : Dev) : Dev :=
  if d.rails && d.stby && ! d.resetLow && ! d.pwr.trip then
    (d.allParts .init).onPwr (fun x => { x with powerAt := d.now })
  else d

/-- The straps are sampled and the boot ROM starts (R40, R198, R425). -/
def Dev.sampleStraps (d : Dev) (st : Straps) : Dev :=
  let d1 : Dev := { d with
    straps := strapWord st, coordV := ! st.coordSrc, coord := if st.coordSrc then 0 else st.coord
    pwr := { d.pwr with strap := st.pwrCeil }, col := { d.col with st := .rom } }
  d1.newNonce.startInit

/-- COLD_RESET (R466): with RESET_N low it ends at the rising edge (R546). -/
def execColdReset (st : Straps) (s : State) : Host.Outcome State Fault Refusal :=
  .next (if s.dev.resetLow then (s.wipe true).onDev (fun d => { d with coldHeld := true })
    else (s.wipe false).onDev (fun d => d.sampleStraps st))

/-- RESET_N_ASSERT (R467): the device is held while the level is low; without VDD_STBY the level alone is known. -/
def execResetNAssert (s : State) : Host.Outcome State Fault Refusal :=
  .next (if s.dev.stby then (s.wipe true).onDev (fun d => { d with coldHeld := s.dev.coldHeld })
    else s.onDev (fun d => { d with resetLow := true }))

/-- RESET_N_RELEASE (R40, R466, R546). -/
def execResetNRelease (st : Straps) (s : State) : Host.Outcome State Fault Refusal :=
  .next (if s.dev.stby ∧ s.dev.resetLow then
      (s.wipe false).onDev (fun d => (d.sampleStraps st).wr (ra 0 0x44) (at32 24 8 (if s.dev.coldHeld then 1 else 2)))
    else s.onDev (fun d => { d with resetLow := false }))

/-- STBY_LOSS: nothing of the device runs without VDD_STBY (R473, R476). -/
def execStbyLoss (s : State) : Host.Outcome State Fault Refusal :=
  .next (let t := s.wipe false
    { t with dev := { t.dev with stby := false, rails := false, resetLow := s.dev.resetLow } })

/-! ## Rails (R473-R475) -/

/-- MAIN_RAILS_UP (R473, R474). -/
def execMainRailsUp (s : State) : Host.Outcome State Fault Refusal :=
  devStep (fun d => if d.rails then d else ({ d with rails := true } : Dev).startInit) s

/-- RAIL_LOSS (R475). -/
def execRailLoss (s : State) : Host.Outcome State Fault Refusal :=
  devStep (fun d => { d.diesOff with rails := false, level1 := d.level1 ++ [.railLoss] }) s

/-- RAIL_RETURN (R474, R475): every main rail back for 1 ms. -/
def execRailReturn (s : State) : Host.Outcome State Fault Refusal :=
  .next (if s.dev.resetLow then s.onDev (fun d => { d with rails := true })
    else if ! s.dev.rails ∧ s.dev.stby then
      let t := s.onDev (fun d => ({ d with rails := true } : Dev).onPwr (fun x => { x with powerAt := d.now }))
      if t.dev.pwr.trip then t else t.dpBegin 7
    else s)

/-! ## The data-path reset (R469, R470) -/

/-- A write of GLB_RST_CTL begins a data-path reset (R470). -/
def Dev.rstTakes (d : Dev) (src : Src) (v : Word) : Bool := Machine.bit v 31 && ! isCol src && d.rails && ! d.dpBusy && ! d.pwr.trip

/-- A write of GLB_RST_CTL (R470). -/
def State.rstCtl (s : State) (src : Src) (v : Word) : State := if s.dev.rstTakes src v then s.dpBegin 3 else s

/-- DP_RESET. -/
def execDpReset (src : Src) (v : Word) (s : State) : Host.Outcome State Fault Refusal := .next (s.waitFrom src (.dpReset src v))

/-- Seed a shift register from the TRNG, never with 0 (R207). -/
def seedWord (w : Word) : Word := if w = 0 then 1 else w

/-- The number of a record, one up. -/
def bumpSeq (r : List Byte) : List Byte := r.take 12 ++ leBytes 4 (leAt r 12 4 + 1) ++ r.drop 16

/-- The LOSS record of a data-path reset goes before any record made since D (R469, log 73). -/
def Dev.pushLoss (d : Dev) (n : Nat) : Dev :=
  { d with obvo := { d.obvo with
      events := evRecord d.frm.no 0 6 (leBytes 4 n ++ zeros 4) :: d.obvo.events.map bumpSeq, evSeq := d.obvo.evSeq + 1 } }

/-- Everything that happens in the first frame in which every part is UP, but for the plat (R207, R449, R469): after a data-path
reset its LOSS record is written and the Obvo ports retrain. -/
def Dev.partsUp (d : Dev) : Dev :=
  let r (i : Nat) : Word := seedWord (Config.trng (d.draws + i))
  let d1 : Dev := { d with
    inService := true, lfsr := [r 0, r 1, r 2, r 3], draws := d.draws + 4, dpBusy := false, stackLost := false, evDiscarded := 0 }
  let d2 := d1.onPwr (fun x => { x with pAllow := 800 * x.pEst })
  if d.dpBusy then
    let d3 := d2.pushLoss d.evDiscarded
    { d3 with obvo := { d3.obvo with inSt := .train, outSt := .train } }
  else d2

/-! ## Part faults (R41-R43, R469) -/

/-- A part enters FAULT and its condition is raised. -/
def Dev.partFails (d : Dev) (pt : Part) : Dev :=
  let d1 := d.setPart pt .fault
  match pt with
  | .die i => d1.raise 0 2 i.val
  | .stack i => d1.raise 0 3 i.val
  | .bridge i => d1.raise 0 5 (i.val * 256)

/-- A part that is UP enters FAULT; with the data path in service a data-path reset begins in the next frame (R42). -/
def Dev.partFault (d : Dev) (pt : Part) : Dev :=
  if d.partSt pt = .up then { d.partFails pt with dpDue := d.inService } else d

/-- PART_FAULT. -/
def execPartFault (pt : Part) (s : State) : Host.Outcome State Fault Refusal := devStep (fun d => d.partFault pt) s

/-- PART_INIT_FAIL (R41): calibration, training or test fails in INIT. -/
def execPartInitFail (pt : Part) (s : State) : Host.Outcome State Fault Refusal :=
  devStep (fun d => if d.partSt pt = .init then d.partFails pt else d) s

/-- Every part. -/
def allPartsList : List Part :=
  (List.finRange 12).map Part.die ++ (List.finRange 8).map Part.stack ++ (List.finRange 15).map Part.bridge

/-- PART_INIT_TIMEOUT (R469, R473): parts still in INIT when their time has passed. -/
def execPartInitTimeout (s : State) : Host.Outcome State Fault Refusal :=
  devStep (fun d =>
    let start := if d.dpBusy then d.dpAt else d.pwr.powerAt
    let lim := if d.dpBusy ∧ ! d.stackLost then 320000 else 4000000
    if lim ≤ d.age start then
      (allPartsList.filter (fun pt => d.partSt pt == .init)).foldl (fun (x : Dev) pt => x.partFails pt) d
    else d) s

/-! ## Patrol scrub (R356, R357) -/

/-- Spare rows left of a stack. -/
def spareLeft (n : Nv) (st : Nat) : Nat := (Config.spareRows st).toNat - mapGet 0 n.sparesUsed st

/-- A row is soft-repaired, or its stack fails for want of a spare (R357). Col records the repair; Narrows holds up to 64 while Col
is not READY (R435). -/
def State.repairRow (s : State) (row : Nat) : State :=
  let st := row % 8
  let d := { s.dev with dueRows := s.dev.dueRows.filter (· != row), weak := s.dev.weak.filter (fun e => e.1 != row) }
  if spareLeft s.nv st = 0 then { s with dev := if h : st < 8 then d.partFault (.stack ⟨st, h⟩) else d }
  else
    let a := ra 9 (0x10C + 0x20 * st)
    let d1 := (d.setFld a 0 16 (d.fld a 0 16 + 1)).raise 9 0xC st
    let nv := { s.nv with sparesUsed := mapSet 0 s.nv.sparesUsed st (mapGet 0 s.nv.sparesUsed st + 1) }
    if d1.col.st = .ready then { s with dev := d1, nv := { nv with repairs := nv.repairs ++ [row] } }
    else if d1.col.heldRepairs.length < 64 then
      { s with dev := { d1 with col := { d1.col with heldRepairs := d1.col.heldRepairs ++ [row] } }, nv := nv }
    else { s with dev := d1, nv := nv }

/-- Frames of one scrub pass. -/
def Dev.scrubFrames (d : Dev) : Nat := min 1000 (d.fld (ra 9 4) 0 16) * 28800000000

/-- What a visit finds at a word (R356). -/
def Dev.scrubWord (d : Dev) (da : Nat) (f : ScrubFind) : Dev :=
  let row := rowOf da
  match f with
  | .clean => d
  | .corrected =>
    let pass := d.age 0 / max 1 d.scrubFrames
    let d1 := d.add64 (ra 9 (0x100 + 0x20 * stackOf da)) 1
    let due := d.weak.any (fun e => e.1 == row && e.2 + 1 == pass) && ! d.dueRows.contains row
    { d1 with weak := mapPut d.weak row pass, dueRows := if due then d.dueRows ++ [row] else d.dueRows }
  | .uncorr =>
    let w := da / 16
    if w ∈ d.bad then d else { d.uncorr [w] with bad := d.bad ++ [w] }

/-- SCRUB_VISIT (R356, R357). -/
def execScrubVisit (da : BitVec 38) (f : ScrubFind) (s : State) : Host.Outcome State Fault Refusal :=
  .next (
    let a := da.toNat
    if s.dev.fld (ra 9 4) 0 16 = 0 ∨ basTop ≤ a ∨ s.dev.hbms.getD (stackOf a) .off ≠ .up then s
    else
      let s1 := if rowOf a ∈ s.dev.dueRows then s.repairRow (rowOf a) else s
      s1.onDev (fun d => d.scrubWord a f))

/-! ## The per-port reset (R471) -/

/-- One port. -/
def Dev.perPort (d : Dev) (p : Nat) : Dev :=
  if ! d.pvalid p then d
  else
    let st := (d.port p).st
    let d0 := d.resetTrackers p
    let d1 := if st = .disabled then d0 else d0.portLeave p .down 0
    ((d1.lanesOf p).filter (fun l => ! [LaneSt.off, .test].contains (d1.lane l).st)).foldl
      (fun (x : Dev) l => (x.onLane l (fun y => { y with timeouts := 0 })).toAdapt l) d1

/-- A write of GLB_PRST_w. -/
def Dev.prstWrite (d : Dev) (w : Nat) (v : Word) : Dev :=
  (bitList 32 v.toNat).foldl (fun (x : Dev) i => x.perPort (32 * w + i)) d

/-- PER_PORT_RESET: from any source. -/
def execPerPortReset (src : Src) (w : BitVec 2) (v : Word) (s : State) : Host.Outcome State Fault Refusal :=
  .next (s.waitFrom src (.perPortReset src w v))

/-! ## LEDs and locate (R487-R489) -/

/-- Rank of a lane and of a port for an octet's code (R488). -/
def laneRank (l : LaneSt) : Nat :=
  match l with
  | .fault => 3
  | .adapt => 2
  | .hunt => 2
  | .tune => 2
  | .ready => 2
  | _ => 0

def portRank (x : Port) : Nat :=
  if x.st = .quar ∨ x.missing then 3
  else
    match x.st with
    | .up => 1
    | .exchange => 2
    | .check => 2
    | _ => 0

/-- The code Col firmware gives an octet. -/
def Dev.octetCode (d : Dev) (o : Nat) : Nat :=
  if d.pwr.trip ∨ ! d.rails then 3
  else if d.dies.any (· == .init) || d.hbms.any (· == .init) || d.bridges.any (· == .init) then 2
  else
    ((List.range 8).map (fun i =>
      let l := 8 * o + i
      match d.portOf l with
      | none => 0
      | some p => if (d.port p).st = .disabled then 0 else max (laneRank (d.lane l).st) (portRank (d.port p)))).foldl max 0

/-- GLB_LED of an octet. -/
def Dev.ledCode (d : Dev) (o : Nat) : Nat := d.fld (ra 0 (0x60 + 4 * (o / 16))) (2 * (o % 16)) 2

/-- A code lights its LED in a frame. -/
def ledLit (c fno : Nat) : Nat :=
  match c with
  | 0 => 0
  | 1 => 1
  | 2 => 1 - fno / 2 ^ 22 % 2
  | _ => 1 - fno / 2 ^ 20 % 2

/-- LED_REFRESH (R435, R487, R488). -/
def execLedRefresh (s : State) : Host.Outcome State Fault Refusal :=
  devStep (fun d =>
    if d.col.st ≠ .ready then d.emit (.led d.ledLast)
    else
      let d1 := if d.bit (ra 0 0x70) 0 then d
        else (List.range 64).foldl (fun (x : Dev) o => x.setFld (ra 0 (0x60 + 4 * (o / 16))) (2 * (o % 16)) 2 (x.octetCode o)) d
      let bits := (List.range 64).reverse.map (fun o => ledLit (d1.ledCode o) d1.fno)
      ({ d1 with ledLast := bits } : Dev).emit (.led bits)) s

/-- A write of GLB_LOCATE: HOST from the Obvo link alone (R489). -/
def Dev.locateWrite (d : Dev) (src : Src) (v : Word) : Dev :=
  if src = .obvo then d.setFld (ra 0 0x74) 0 2 (Machine.fld v 0 2) else d

/-- LOCATE_HOST. -/
def execLocateHost (src : Src) (v : Word) (s : State) : Host.Outcome State Fault Refusal :=
  .next (s.waitFrom src (.locateHost src v))

end Sys2Proof.Machine
end

