-- ==== Sys2Proof/Machine/Plat.lean ====
section
/-! DEFINITION. The plat: loading, verification, installation, activation and restore (R370-R393). -/

namespace Sys2Proof.Machine

def Dev.onPlat (d : Dev) (f : Plat → Plat) : Dev := { d with plat := f d.plat }

/-! ## Loading (R372-R375) -/

/-- An activation of the stage is armed or drains, or waits for the end of its data-path reset: the stage is locked (R373, log 73). -/
def Dev.stageLocked (d : Dev) : Bool := d.plat.act.isSome || d.plat.apply.isSome || (match d.ract with | some a => a.amend | none => false)

/-- A load is running. -/
def loading (l : LoadSt) : Bool := l == .receiving || l == .verifying

/-- DETAIL of the refusal of a START or CLEAR (R373). -/
def State.loadRefusal (s : State) (src : Src) : Option Nat :=
  let d := s.dev
  if d.stageLocked then some (srcLevel src)
  else if isTrail src then none
  else if (loading d.plat.load && d.plat.trail) || s.nv.stageTrail then some (0x200 + srcLevel src) else none

/-- The stage as CLEAR or START leaves it: a running Obvo load is abandoned to the trail port (R373). -/
def State.dropStage (s : State) (src : Src) : State :=
  let d := if isTrail src && loading s.dev.plat.load && ! s.dev.plat.trail then s.dev.raise 0xA 3 0x203 else s.dev
  { s with
    dev := d.onPlat (fun x => { x with load := .empty, trail := false, len := 0, got := 0, digest := [] })
    nv := { s.nv with stage := [], stageOk := false, stageTrail := false } }

/-- START: a load of PLAT_LOAD_LEN bytes begins (R373). -/
def State.loadStart (s : State) (src : Src) : State :=
  match s.loadRefusal src with
  | some det => s.onDev (fun d => d.raise 0xA 3 det)
  | none =>
    let n := s.dev.fld (ra 0xA 8) 0 24
    let t := s.dropStage src
    { t with
      dev := t.dev.onPlat (fun x => { x with load := if n = 0 then .verifying else .receiving, trail := isTrail src, len := n })
      nv := { t.nv with stageTrail := isTrail src } }

/-- CLEAR: the stage is emptied (R373). -/
def State.loadClear (s : State) (src : Src) : State :=
  match s.loadRefusal src with
  | some det => s.onDev (fun d => d.raise 0xA 3 det)
  | none => s.dropStage src

/-- INSTALL: a staged FULL container becomes the boot partition (R375). -/
def State.install (s : State) : State :=
  if s.dev.plat.load = .staged ∧ cKind s.nv.stage = 0 then { s with nv := { s.nv with boot := [s.nv.stage] } }
  else s.onDev (fun d => d.raise 0xA 8 0x100)

/-- A write of PLAT_LOAD_CTL: CLEAR, then START, then INSTALL. -/
def State.loadCtl (s : State) (src : Src) (v : Word) : State :=
  let a := if Machine.bit v 30 then s.loadClear src else s
  let b := if Machine.bit v 31 then a.loadStart src else a
  if Machine.bit v 29 then b.install else b

/-- The reason that refuses data for the stage (R405 reasons 03h to 05h), with `at_` the offset it names. -/
def Dev.stageReason (d : Dev) (trail : Bool) (at_ len : Nat) : Option Nat :=
  if d.plat.load ≠ .receiving ∨ d.plat.trail ≠ trail then some 3
  else if at_ ≠ d.plat.got ∨ d.plat.len < at_ + len then some 4
  else if len % 8 ≠ 0 then some 5 else none

/-- Bytes join the stage; the last of them begins verification (R372). -/
def State.stageData (s : State) (data : List Byte) : State :=
  let n := s.dev.plat.got + data.length
  { s with
    dev := s.dev.onPlat (fun x => { x with got := n, load := if n = x.len then .verifying else x.load })
    nv := { s.nv with stage := s.nv.stage ++ data } }

/-- PLAT_LOAD_START (R373). -/
def execPlatLoadStart (src : Src) (s : State) : Host.Outcome State Fault Refusal := .next (s.waitFrom src (.platLoadStart src))

/-- PLAT_LOAD_CLEAR (R373). -/
def execPlatLoadClear (src : Src) (s : State) : Host.Outcome State Fault Refusal := .next (s.waitFrom src (.platLoadClear src))

/-- PLAT_LOAD_INSTALL (R375). -/
def execPlatLoadInstall (src : Src) (s : State) : Host.Outcome State Fault Refusal := .next (s.waitFrom src (.platLoadInstall src))

/-- VERIFYING: the tests of R374; the digest of what passes them is recorded (R371). -/
def State.platVerify (s : State) : State :=
  if s.dev.plat.load ≠ .verifying then s
  else
    match s.dev.platTests s.nv s.nv.stage with
    | none =>
      { s with
        dev := s.dev.onPlat (fun x => { x with load := .staged, digest := sha256 s.nv.stage })
        nv := { s.nv with stageOk := true } }
    | some (c, det, fails) =>
      s.onDev (fun d =>
        ((fails.foldl (fun (x : Dev) e => x.raise e.1 e.2.1 e.2.2) d).raise 0xA c det).onPlat (fun x => { x with load := .refused }))

/-- PLAT_VERIFY (R374). -/
def execPlatVerify (s : State) : Host.Outcome State Fault Refusal := .next s.platVerify

/-! ## Arming (R380, R381, R387) -/

/-- DRAIN of a control word: 0 means 64. -/
def drainOf (n : Nat) : Nat := if n = 0 then 64 else n

/-- Refuse an activation for the frame state (R52). -/
def Dev.notAligned (d : Dev) : Dev := d.raise 1 8 (frmCode d.frm.st)

/-- A GO of PLAT_ACT_CTL (R381). -/
def State.platGo (s : State) : State :=
  let d := s.dev
  let no (r : Nat) : State := s.onDev (fun x => x.raise 0xA 8 (r * 256))
  let t := d.rd64 (ra 0xA 0x44) % 2 ^ 48
  let dr := drainOf (d.fld (ra 0xA 0x40) 0 6)
  let busy := d.plat.act.isSome || d.ract.isSome
  let signed := d.plat.digest == sha256 s.nv.stage
  let unsigned : State := s.onDev (fun x => (x.raise 0xE 5 0).raise 0xA 8 0x900)
  if ! (d.plat.load == .staged && cKind s.nv.stage == 0) then no 1
  else if ! d.plat.active then
    if busy then no 4 else if ! signed then unsigned
    else s.onDev (fun x => x.onPlat (fun y => { y with act := some { t := d.now + 1, drain := 0, first := true } }))
  else if ! d.aligned then s.onDev Dev.notAligned
  else if t ≤ d.fno + dr then no 2
  else if d.fno + 2 ^ 20 < t then no 3
  else if busy then no 4
  else if ! signed then unsigned
  else
    let st := structural s.nv.active s.nv.stage
    s.onDev (fun x => x.onPlat (fun y => { y with
      act := some { t := t, drain := dr, classes := 0x7C, structural := st, park := ! st && d.bit (ra 0xA 0x40) 6 } }))

/-- A CANCEL of PLAT_ACT_CTL (R387): before T; one sampled in T finds nothing armed (DEDUCED, log 96). -/
def Dev.platCancel (d : Dev) : Dev :=
  if d.plat.act.isSome ∧ ! d.actDue then d.onPlat (fun x => { x with act := none }) else d.raise 0xA 8 0x600

/-- A write of PLAT_ACT_CTL: its fields, then CANCEL, then GO. -/
def State.platActCtl (s : State) (v : Word) : State :=
  let a := s.onDev (fun d => d.wr (ra 0xA 0x40) (v &&& 0x7F))
  let b := if Machine.bit v 30 then a.onDev Dev.platCancel else a
  if Machine.bit v 31 then b.platGo else b

/-- PLAT_ACT_GO (R381). -/
def execPlatActGo (src : Src) (v : Word) (s : State) : Host.Outcome State Fault Refusal := .next (s.waitFrom src (.platActGo src v))

/-- PLAT_ACT_CANCEL (R387). -/
def execPlatActCancel (src : Src) (v : Word) (s : State) : Host.Outcome State Fault Refusal :=
  .next (s.waitFrom src (.platActCancel src v))

/-- PLAT_DRAIN_START (R382): at S. -/
def execPlatDrainStart (s : State) : Host.Outcome State Fault Refusal :=
  devStep (fun d =>
    match d.plat.act with
    | some a =>
      if ! a.first ∧ ! a.draining ∧ a.t ≤ d.fno + a.drain ∧ d.fno < a.t then
        (d.onPlat (fun x => { x with act := some { a with draining := true } })).raise 6 6 0
      else d
    | none => d) s

/-! ## Frame T (R383-R386) -/

/-- Regions that rule 4 of R337 protects. -/
def Dev.heldRegions (d : Dev) : List Nat :=
  (d.chunks.map (fun c => d.gt c.g)).filterMap (fun (g : GtE) => if g.spillEn then some g.spillRegion else none) ++
  (if d.oxbow = [] then [] else [d.fld (ra 6 0x58) 0 12]) ++
  (d.rounds.filter (fun e => rsLive e.2.st || e.2.st == .aborting)).map (fun e => e.2.d.qregion)

/-- The first region in use that a change alters or removes (R337 rule 4). -/
def Dev.ruleFour (d nw : Dev) : Option Nat := d.heldRegions.find? (fun i => (d.rt i).valid && d.rt i != nw.rt i)

/-- The first item of R383 that holds. -/
def Dev.notQuiet (d : Dev) : Option Nat :=
  if d.queue ≠ [] ∨ d.pkts.any (fun k => inHold k && k.st != .ordHeld && k.st != .released) then some 1
  else if d.reqs ≠ [] then some 2
  else if d.oxbow ≠ [] ∨ d.pkts.any (fun k => k.st == .ordHeld || k.st == .released) then some 3
  else if d.launches.any (fun e => e.2.st == .armed || e.2.st == .run || e.2.st == .aborting) ∨
      d.rounds.any (fun e => rsLive e.2.st || e.2.st == .aborting) then some 4
  else if d.ports.any (fun e => e.2.replay != []) then some 5 else none

/-- An activation ends without effect: the old plat stays and the drain ends. -/
def State.actEnds (s : State) (b c det : Nat) : State :=
  s.onDev (fun d => (d.raise b c det).onPlat (fun x => { x with act := none }))

/-- The tests of R384 step 1 against the state at T, for the registers the plat would set. -/
def State.actRefusal (s : State) (nw : Dev) (epoch : Nat) (restore : Bool) : Option (Nat × Nat × Nat) :=
  let d := s.dev
  if (if restore then decide (epoch < s.nv.floor) else decide (epoch ≤ s.nv.floor)) then some (0xA, 8, 0x700)
  else if ! nw.inShape d.own then some (6, 1, d.own)
  else
    match d.ruleFour nw with
    | some i => some (9, 0x10, 0x4000 + i)
    | none => none

/-- The plat block after an activation of the stage. -/
def Plat.took (x : Plat) (epoch fabric : Nat) (bound : Word) : Plat :=
  { x with load := .empty, trail := false, len := 0, got := 0, digest := [], act := none, active := true, epoch := epoch, fabric := fabric
           bound := bound }

/-- Measurement 4 at a FULL activation and at an amendment (R433). -/
def m4Full (b : List Byte) : List Byte := sha256 (zeros 32 ++ sha256 b)
def m4Amend (m : List Byte) (b : List Byte) : List Byte := sha256 (m ++ sha256 b)

/-- WORST_NS of a container. -/
def cBound (b : List Byte) : Word := BitVec.ofNat 32 (leAt b 48 4)

/-- Steps 4 to 7 of R384, on the registers of the new plat; LINK_QCLRs of the frame then apply (R141). -/
def Dev.actSteps (d : Dev) (live : Bool) (epoch : Nat) : Dev :=
  let d1 := d.evalAll.endAll (condWord 0xA 0xE (epoch % 65536))
  let d2 := if live then d1.residue 0x7C else d1
  let d3 := d2.unmapAll
  let d4 := ((List.range 128).foldl (fun (x : Dev) p => x.retest p) d3).markUps
  let d5 := (d4.outFrom.qclrAll).holdsMoved
  (d5.raise 0xA 9 (epoch % 65536)).event 4 (leBytes 8 epoch)

/-- A structural activation: the data path is reset in T and the plat applied at its end (R386, log 73). -/
def State.actStructural (s : State) (b : List Byte) : State :=
  (s.dpBegin 5).onDev (fun d => { d with plat := { d.plat with apply := some b } })

/-- A first or live activation of the stage (R384). -/
def State.actStage (s : State) (b : List Byte) (live : Bool) : State :=
  { s with
    nv := { s.nv with floor := cEpoch b, boot := [b], active := b, stage := [], stageOk := false, stageTrail := false }
    dev :=
      let d1 := (s.dev.applyFull b).onPlat (fun x => x.took (cEpoch b) (cFabric b) (cBound b))
      let d2 : Dev := { d1 with col := { d1.col with m4 := m4Full b, lockDue := true } }
      (d2.actSteps live (cEpoch b)).corrFrom s.dev }

/-- The registers as the containers of the boot partition leave them. -/
def Dev.bootRegs (d : Dev) (l : List (List Byte)) : Dev := l.foldl (fun (x : Dev) b => x.withPlat b) d

/-- A restore of the boot partition (R376): the FULL container, then each amendment. -/
def State.actRestore (s : State) (b : List Byte) (ams : List (List Byte)) : State :=
  let top := ams.getLast?.getD b
  { s with
    nv := { s.nv with floor := max s.nv.floor (cEpoch top), active := b }
    dev :=
      let d1 := ams.foldl (fun (x : Dev) a => x.setRecs (cRecs a)) (s.dev.applyFull b)
      let d2 := d1.onPlat (fun x => { x with act := none, active := true, epoch := cEpoch top, fabric := cFabric b, bound := cBound b })
      let d3 : Dev := { d2 with col := { d2.col with m4 := ams.foldl m4Amend (m4Full b), lockDue := true } }
      (d3.actSteps false (cEpoch top)).corrFrom s.dev }

/-- R384 for an armed activation whose frame has come. -/
def State.platActivate (s : State) (a : Act) : State :=
  let d := s.dev
  if a.restore then
    match s.nv.boot with
    | [] => s.actEnds 0xA 0xF 0
    | b :: ams =>
      match s.actRefusal (d.bootRegs (b :: ams)) (cEpoch (ams.getLast?.getD b)) true with
      | some (k, c, det) => (s.actEnds k c det).onDev (fun x => x.raise 0xA 0xF 0)
      | none => s.actRestore b ams
  else
    let b := s.nv.stage
    match (if a.structural then d.notQuiet else none) with
    | some i => s.actEnds 0xA 0xA i
    | none =>
      match s.actRefusal (d.withPlat b) (cEpoch b) false with
      | some (k, c, det) => s.actEnds k c det
      | none => if a.structural then s.actStructural b else s.actStage b (! a.first)

/-! ## The boot partition (R376) -/

/-- Tests 1, 3, 4 and 6 to 8 of R374 on a container of the partition. -/
def bootTest (d : Dev) (n : Nv) (b : List Byte) : Bool :=
  hdrOk b b.length && contSig n b && targetOk b && (d.contTests b).isNone

/-- Amendments follow one another, each tested on the state the ones before it leave. -/
def amendsOk (n : Nv) : Dev → Nat → List (List Byte) → Bool
  | _, _, [] => true
  | d, e, b :: l => cKind b == 1 && cBase b == e && bootTest d n b && amendsOk n (d.setRecs (cRecs b)) (cEpoch b) l

/-- The partition can be restored. -/
def bootOk (d : Dev) (n : Nv) : Bool :=
  match n.boot with
  | [] => false
  | b :: ams => cKind b == 0 && bootTest d n b && amendsOk n (d.withPlat b) (cEpoch b) ams && decide (n.floor ≤ cEpoch (ams.getLast?.getD b))

/-- BOOT_RESTORE (R376): with every part UP and Col READY. A TAP test instruction holds it (R521). -/
def execBootRestore (s : State) : Host.Outcome State Fault Refusal :=
  .next (
    let d := s.dev
    if ! d.col.restoreDue ∨ d.col.st ≠ .ready ∨ ! d.inService ∨ d.plat.active ∨ d.plat.act.isSome ∨ d.tapHeld then s
    else
      let t : State := s.onDev (fun x => { x with col := { x.col with restoreDue := false } })
      if bootOk d s.nv then
        t.onDev (fun x => x.onPlat (fun y => { y with act := some { t := d.now + 1, drain := 0, first := true, restore := true } }))
      else t.onDev (fun x => x.raise 0xA 0xF 0))

end Sys2Proof.Machine
end

