-- ==== Sys2Proof/Machine/RouteAct.lean ====
section
/-! DEFINITION. Changing routing on a live fabric: activations of overlays and amendments, Bypass and the coordinate (R198, R199,
R222-R232, R388). -/

namespace Sys2Proof.Machine

/-! ## Arming (R222, R226) -/

/-- VALID and FOR of an overlay. -/
def Dev.ovlOn (d : Dev) (n : Nat) : Bool := d.bit (ra 6 (0x10 + 4 * n)) 31
def Dev.ovlFor (d : Dev) (n : Nat) : Nat := d.fld (ra 6 (0x10 + 4 * n)) 0 12

/-- Bytes a container takes in the boot partition (R388). -/
def bootRoom (b : List Byte) : Nat := cdiv b.length 65536 * 65536
def Nv.bootUsed (n : Nv) : Nat := (n.boot.map bootRoom).sum

/-- A GO of ROUTE_ACT_CTL (R222). -/
def State.routeGo (s : State) : State :=
  let d := s.dev
  let c := d.rd (ra 6 0x40)
  let t := d.rd64 (ra 6 0x44) % 2 ^ 48
  let dr := drainOf (Machine.fld c 0 6)
  let no (r : Nat) : State := s.onDev (fun x => x.raise 6 5 (r * 256))
  let ovlEn := Machine.bit c 18
  let n := Machine.fld c 16 2
  let amend := Machine.bit c 19
  if ! d.aligned then s.onDev Dev.notAligned
  else if t ≤ d.fno + dr then no 1
  else if d.ract.isSome ∨ d.plat.act.isSome then no 2
  else if d.fno + 2 ^ 20 < t then no 3
  else if ovlEn ∧ ! d.ovlOn n then no 4
  else if amend ∧ ! (d.plat.load == .staged && cKind s.nv.stage == 1) then no 5
  else if amend ∧ 0x1000000 < s.nv.bootUsed + bootRoom s.nv.stage then no 7
  else if amend ∧ d.plat.digest ≠ sha256 s.nv.stage then s.onDev (fun x => (x.raise 0xE 5 0).raise 0xA 8 0x900)
  else
    s.onDev (fun x => { x with
      ract := some { t := t, drain := dr, ovl := if ovlEn then some n else none, amend := amend, classes := Machine.fld c 8 7
                     park := Machine.bit c 6 } })

/-- A CANCEL of ROUTE_ACT_CTL (R226): parked packets are presented again once nothing drains; one sampled in T finds nothing armed
(DEDUCED, log 96). -/
def Dev.routeCancel (d : Dev) : Dev := if d.ract.isSome ∧ ! d.ractDue then { d with ract := none } else d.raise 6 5 0x600

/-- A write of ROUTE_ACT_CTL: its fields, then CANCEL, then GO. -/
def State.routeActCtl (s : State) (v : Word) : State :=
  let a := s.onDev (fun d => d.wr (ra 6 0x40) (v &&& 0x000F7F7F))
  let b := if Machine.bit v 30 then a.onDev Dev.routeCancel else a
  if Machine.bit v 31 then b.routeGo else b

/-- ROUTE_ACT_GO (R222). -/
def execRouteActGo (src : Src) (v : Word) (s : State) : Host.Outcome State Fault Refusal :=
  .next (s.waitFrom src (.routeActGo src v))

/-- ROUTE_ACT_CANCEL (R226). -/
def execRouteActCancel (src : Src) (v : Word) (s : State) : Host.Outcome State Fault Refusal :=
  .next (s.waitFrom src (.routeActCancel src v))

/-- DRAIN_START (R223): at S. -/
def execDrainStart (s : State) : Host.Outcome State Fault Refusal :=
  devStep (fun d =>
    match d.ract with
    | some a =>
      if ! a.draining ∧ a.t ≤ d.fno + a.drain ∧ d.fno < a.t then
        ({ d with ract := some { a with draining := true } } : Dev).raise 6 6 (a.ovl.getD 0)
      else d
    | none => d) s

/-! ## Frame T (R224, R388) -/

/-- Collectives and rounds that an amendment's entries end (R267, R324). -/
def Dev.amendEnds (old d : Dev) : Dev :=
  let gs := (old.chunks.map (fun c => c.g)).dedup.filter (fun g => old.gt g != d.gt g)
  let d1 := gs.foldl (fun (x : Dev) g =>
    let y := x.catFail g (x.launch g).d.launch.toNat 0x1A g
    y.dropChunks (fun c => c.g == g)) d
  let xs := ((old.experts ++ d.experts).dedup).filter (fun e => old.et e != d.et e)
  let hit (r : Round) : Bool := (rsLive r.st || d1.fanNow r) && xs.any (fun e => (old.et e).slice == r.d.slice.toNat || (d.et e).slice == r.d.slice.toNat)
  ((d1.rounds.filter (fun e => hit e.2)).map (·.1)).foldl (fun (x : Dev) r => x.fanFail r 0xD (x.rnd r).d.round) d1

/-- The staged amendment takes effect, or is refused with reason 08h (R388). -/
def State.applyAmend (s : State) : State :=
  let d := s.dev
  let b := s.nv.stage
  let nw := d.setRecs (cRecs b)
  if ! d.plat.active ∨ cBase b ≠ d.plat.epoch ∨ (d.ruleFour nw).isSome then s.onDev (fun x => x.raise 0xA 8 0x800)
  else
    { s with
      nv := { s.nv with floor := cEpoch b, boot := s.nv.boot ++ [b], stage := [], stageOk := false, stageTrail := false }
      dev :=
        let d1 := (Dev.stopRegions d nw).onPlat (fun x =>
          { x with load := .empty, trail := false, len := 0, got := 0, digest := [], epoch := cEpoch b })
        let d2 : Dev := { d1 with col := { d1.col with m4 := m4Amend d1.col.m4 b } }
        Dev.amendEnds d d2 }

/-- OVERLAY_OFF (R286): the launches of groups that are not in force under the overlay that becomes active. -/
def Dev.overlayOff (d : Dev) : Dev :=
  let gs := (d.launches.filter (fun e => (e.2.st == .armed || e.2.st == .run || d.causeNow e.2) && ! d.gtOn e.1)).map (·.1)
  gs.foldl (fun (x : Dev) g => (x.raise 7 0xB 0).cause g (condWord 7 0xB 0) false) d

/-- An activation of routing in its frame T (R224). -/
def State.routeActivated (s : State) (a : Act) : State :=
  let s1 := s.onDev (fun d => { d with ract := none })
  let s2 := if a.amend then s1.applyAmend else s1
  s2.onDev (fun d =>
    let d1 : Dev := { d with ovl := a.ovl.getD d.ovl }
    let d2 := (d1.residue a.classes).raise 6 7 d1.ovl
    ((if a.ovl.isSome then d2.overlayOff else d2).corrFrom s.dev).holdsMoved)

/-! ## Parked packets (R225) -/

/-- Present one parked packet again, looked up as the tables now stand; the second part is whether the next may follow. One that finds no
room stays parked as it was. -/
def Dev.representOne (d : Dev) (p : Nat) (k0 : Pkt) : Dev × Bool :=
  let n := cellsOfPkt k0.pk.hdr
  let used := mapGet 0 d.reps p
  if (d.affected k0).isSome ∨ (used ≠ 0 ∧ d.cap p < used + n) then (d, false)
  else
    let (d0, k) := (d.oxDraw (d.oxbow.findIdx (fun e => e.2 == k0.id)) k0).relook k0
    let d1 : Dev := (({ d0.onPkt k.id (fun _ => { k with dues := [] }) with reps := mapSet 0 d.reps p (used + n) } : Dev).settleDues k k.dues)
    let out (x : Dev) : Dev := { x with oxbow := x.oxbow.filter (fun e => e.2 != k.id) }
    match k.st with
    | .dropped dr => (d1.dropPkt k dr, true)
    | .engine => (out d1, true)
    | _ =>
      let d2 := match d1.orderPort k with
        | some o => d1.orderPresent 0 k o
        | none => (d1.offer 0 k).1
      match d2.pkt k.id with
      | some x => if x.st = .hold then ({ d with ports := d2.ports, stackU := d2.stackU }, false) else (out d2, true)
      | none => (out d2, true)

/-- Present the parked packets of a port in the order they were parked. -/
def Dev.represent (d : Dev) (p : Nat) : Dev :=
  let ids := d.oxbow.map (·.2)
  let l := (ids.filterMap (fun i => d.pkt i)).filter (fun k => k.st == .parked && k.ing == some p)
  ((l.foldl (fun (x : Dev × Bool) k => if x.2 then x.1.representOne p k else x) (d, true)).1.settleLoss).holdsMoved

/-- PARKED_REPRESENT (R225). -/
def execParkedRepresent (p : BitVec 7) (s : State) : Host.Outcome State Fault Refusal := devStep (fun d => d.represent p.toNat) s

/-! ## Bypass (R227-R230, R392) -/

/-- The operand unit of a Bypass message (R228). -/
def bypassUnit (n t v own : Nat) : List Byte := unit64 [(0, 1, 6), (1, 1, 1), (2, 1, n), (3, 6, t), (9, 2, v), (11, 2, own)]

/-- Send a proposal to every group with a port in UP (R228). -/
def Dev.bypassFlood (d : Dev) (n t v : Nat) : Dev :=
  [1, 2, 3, 4, 5, 6].foldl (fun (x : Dev) g =>
    if (x.group g).any x.isUp then
      x.originate (ownPkt x 0x40 0 0 (x.fld (ra 6 (0x60 + 4 * g)) 0 16) 0 (bypassUnit n t v x.own)) (some g) none false
    else x) d

/-- Arm a Bypass overlay; a drain in progress keeps on. -/
def Dev.bypassArm (d : Dev) (n t drain : Nat) : Dev :=
  let c := d.rd (ra 6 0x54)
  let going := match d.ract with | some a => a.draining | none => false
  { d with ract := some { t := t, drain := drain, ovl := some n, classes := Machine.fld c 0 7, park := Machine.bit c 7, byBypass := true
                          draining := going } }

/-- ROUTE condition 0Ah for overlay `n`. -/
def Dev.bypassIgnored (d : Dev) (n : Nat) : Dev := d.raise 6 0xA (n * 4096 + d.ovlFor n)

/-- A proposal (n, T) about V, received or detected (R229). -/
def Dev.bypassPropose (d : Dev) (n t v : Nat) : Dev :=
  let dr := drainOf (d.fld (ra 6 0x50) 0 6)
  if n = 0 ∨ 3 < n ∨ d.ovl = n then d
  else if d.plat.act.isSome ∨ d.ovl ≠ 0 then d.bypassIgnored n
  else
    match d.ract with
    | none =>
      if t ≤ d.fno then d.bypassIgnored n
      else (d.bypassArm n t (if t ≤ d.fno + dr then t - (d.fno + 1) else dr)).bypassFlood n t v
    | some a =>
      let m := a.ovl.getD 0
      if ! a.byBypass then d.bypassIgnored n
      else if t < a.t ∨ (t = a.t ∧ n < m) then
        ((d.bypassIgnored m).bypassArm n t dr).bypassFlood n t v
      else d

/-- Torus ports whose expected neighbour is V. -/
def Dev.portsTo (d : Dev) (v : Nat) : List Nat :=
  d.validPorts.filter (fun p => d.isTorus p && Machine.bit (d.nb (d.role p)) 31 && Machine.fld (d.nb (d.role p)) 0 12 == v)

/-- BYPASS_DETECT (R227): in the frame that completes the DWELL. -/
def execBypassDetect (v : BitVec 12) (s : State) : Host.Outcome State Fault Refusal :=
  devStep (fun d =>
    let ps := d.portsTo v.toNat
    let bt := d.rd (ra 6 0x50)
    let dwell := max 1 (Machine.fld bt 8 8)
    let last := (ps.map (fun p => (d.port p).tOut)).foldl max 0
    if ps = [] ∨ ps.any d.isUp ∨ ! ps.any (fun p => (d.port p).wasUp) ∨ last + dwell ≠ d.now + 1 then d
    else
      match [1, 2, 3].find? (fun n => d.ovlOn n && d.bit (ra 6 (0x10 + 4 * n)) 30 && d.ovlFor n == v.toNat) with
      | none => d
      | some n => (d.raise 6 9 v.toNat).bypassPropose n ((d.fno + Machine.fld bt 16 16) % 2 ^ 48) v.toNat) s

/-- A CTL_MSG for block `b` that waits at Col's die. -/
def ctlMsg (b : Nat) (k : Pkt) : Bool := k.pk.hdr.op == 0x40 && k.st == .engine && k.conf && leAt k.pk.payload 0 1 == b

/-- BYPASS_MESSAGE (R229). -/
def Dev.bypassAct (d : Dev) (id : Nat) : Dev :=
  d.onPacket id (fun k => ctlMsg 6 k && leAt k.pk.payload 1 1 == 1) (fun x k =>
    (x.rmPkt k.id).bypassPropose (leAt k.pk.payload 2 1) (leAt k.pk.payload 3 6) (leAt k.pk.payload 9 2 % 4096))

/-- BYPASS_MESSAGE: a confirmed message waits for the boundary (R55, R71). -/
def execBypassMessage (id : Nat) (s : State) : Host.Outcome State Fault Refusal := .next (s.wait (.bypassMessage id))

/-! ## The coordinate (R198, R199) -/

/-- A write of ROUTE_COORD. -/
def Dev.coordWrite (d : Dev) (src : Src) (v : Word) : Dev :=
  let busy := d.validPorts.any (fun p => d.isTorus p && [PortSt.check, .up, .quar].contains (d.port p).st)
  if isCol src && Machine.bit d.straps 15 && ! busy then { d with coord := BitVec.ofNat 12 (Machine.fld v 0 12), coordV := true }
  else d.raise 6 2 (srcLevel src)

/-- COORD_WRITE (R199). -/
def execCoordWrite (src : Src) (v : Word) (s : State) : Host.Outcome State Fault Refusal :=
  .next (s.waitFrom src (.coordWrite src v))

end Sys2Proof.Machine
end

