-- ==== Sys2Proof/Machine/Counters.lean ====
section
/-! DEFINITION. The counters of the CNT block: depths, snapshots, bandwidth windows, views and CNT_READ (R492-R502). -/

namespace Sys2Proof.Machine

/-- Cells queued at an output on a VC. -/
def Dev.qDepth (d : Dev) (p v : Nat) : Nat := ((d.queue.filter (fun q => q.out == p && q.vc == v)).map (·.n)).sum

/-- CNT_QD_p_v and CNT_HOLD_p_v at the end of a frame; a clear sets the watermark to the depth (R492). -/
def Dev.setDepth (d : Dev) (a n : Nat) (clr : Bool) : Dev :=
  let m := min n 0xFFFF
  let w := if clr then m else max m (d.fld a 16 16)
  d.wr a (at32 0 16 m ||| at32 16 16 w)

/-- Every depth register of the ports that carry something or did. -/
def Dev.setDepths (d : Dev) (clr : Bool) : Dev :=
  d.validPorts.foldl (fun (x : Dev) p =>
    (List.range 16).foldl (fun (y : Dev) v =>
      (y.setDepth (rp 0x10 (0x400 + 4 * v) p) (d.qDepth p v) clr).setDepth (rp 0x10 (0x440 + 4 * v) p) (d.holdOcc p v) clr) x) d

/-- A per-port counter register that SNAP copies. -/
def isLive (a : Nat) : Bool := blk a == 0x10 && decide (off a < 0x200000) && decide (0x100 ≤ pOff (off a) ∧ pOff (off a) < 0x1000)
def isShadow (a : Nat) : Bool := blk a == 0x10 && decide (off a < 0x200000) && decide (0x2100 ≤ pOff (off a) ∧ pOff (off a) < 0x3000)

/-- A snapshot of every per-port counter (R495). -/
def Dev.snap (d : Dev) : Dev :=
  let keep := d.regs.filter (fun e => ! isShadow e.1)
  let live := d.regs.filter (fun e => isLive e.1)
  let d1 : Dev := { d with regs := keep }
  (live.foldl (fun (x : Dev) e => x.wr (e.1 + 0x2000) (d.rd e.1)) d1).wr64 (ra 0x10 4) d.fno

/-- A write of CNT_CTL: WIN, then SNAP, then WMARK_CLR. -/
def Dev.cntCtlWrite (d : Dev) (v : Word) : Dev :=
  let same := d.fld (ra 0x10 0) 0 5 == Machine.fld v 0 5
  let d1 := d.wr (ra 0x10 0) (v &&& 0x1F)
  let d2 := if same then d1 else d1.setBit (ra 0x10 0x10) 31 false
  let d3 : Dev := if Machine.bit v 31 then { d2.snap with snapDue := true } else d2
  if Machine.bit v 30 then { d3.setDepths true with wmarkDue := true } else d3

/-- CNT_SNAP (R495). -/
def execCntSnap (src : Src) (v : Word) (s : State) : Host.Outcome State Fault Refusal := .next (s.waitFrom src (.cntSnap src v))

/-- CNT_WMARK_CLR (R492). -/
def execCntWmarkClr (src : Src) (v : Word) (s : State) : Host.Outcome State Fault Refusal :=
  .next (s.waitFrom src (.cntWmarkClr src v))

/-- CNT_WIN_WRITE (R497). -/
def execCntWinWrite (src : Src) (v : Word) (s : State) : Host.Outcome State Fault Refusal :=
  .next (s.waitFrom src (.cntWinWrite src v))

/-- The boundary that ends a window (R496, R497). -/
def Dev.bwEnd (d : Dev) : Dev :=
  let win := min 20 (d.fld (ra 0x10 0) 0 5)
  if d.fno % 2 ^ win ≠ 0 ∨ d.bwAt = some d.now then d
  else if win ≠ d.bwWin ∨ d.bwAt.isNone then { d with bwWin := win, bwin := [], bwAt := some d.now }
  else
    let d1 := d.validPorts.foldl (fun (x : Dev) p =>
      (x.wr64 (rp 0x10 0x480 p) (mapGet 0 d.bwin (p * 2))).wr64 (rp 0x10 0x488 p) (mapGet 0 d.bwin (p * 2 + 1))) d
    let d2 := d1.wr (ra 0x10 0xC) (BitVec.ofNat 32 d.fno)
    { d2.wr (ra 0x10 0x10) (at32 31 1 1 ||| at32 0 16 (d.fno / 2 ^ 32)) with bwin := [], bwAt := some d.now }

/-- BW_WINDOW_END (R496). -/
def execBwWindowEnd (s : State) : Host.Outcome State Fault Refusal := devStep (fun d => d.bwEnd) s

/-- A write of a view register: never from Col (R498). -/
def Dev.viewWrite (d : Dev) (src : Src) (a : Nat) (v : Word) : Dev :=
  if isCol src then d.raise 0x10 3 (srcLevel src) else d.wr a ((d.rd a &&& ~~~ (regRw a)) ||| (v &&& regRw a))

/-- An address of the view table. -/
def isView (a : Nat) : Bool := blk a == 0x10 && decide (0x400000 ≤ off a ∧ off a < 0x402000) && a % 4 == 0

/-- CNT_VIEW_WRITE (R498). -/
def execCntViewWrite (src : Src) (addr v : Word) (s : State) : Host.Outcome State Fault Refusal :=
  .next (s.waitFrom src (.cntViewWrite src addr v))

/-- Offsets of a SET's registers: the first, and how many (R501). -/
def cntSet (n : Nat) : Nat × Nat :=
  match n with
  | 1 => (0x100, 128)
  | 2 => (0x300, 64)
  | 3 => (0x400, 36)
  | _ => (0x800, 448)

/-- The condition that refuses a CNT_READ (R500): COND and DETAIL. -/
def Dev.cntBad (d : Dev) (k : Pkt) : Option (Nat × Nat) :=
  let pl := k.pk.payload
  let p := leAt pl 0 1
  let set := leAt pl 1 1
  let s := k.pk.hdr.slice.toNat
  if set = 0 ∨ 4 < set ∨ 128 ≤ p ∨ ! zeroAt pl 4 60 ∨ k.pk.hdr.len ≠ 0 then some (2, k.ing.getD 0)
  else if ! d.bit (ra 0x10 (0x400000 + 0x20 * s)) 0 ∨ ! d.bit (ra 0x10 (0x400004 + 0x20 * s + 4 * (p / 32))) (p % 32) then
    some (1, s * 256 + p)
  else none

/-- Serve a CNT_READ (R500, R501). -/
def Dev.cntServe (d : Dev) (k : Pkt) : Dev :=
  let h := k.pk.hdr
  let pl := k.pk.payload
  let d0 := d.rmPkt k.id
  let send (x : Dev) (w : Word) (data : List Byte) : Dev :=
    x.send 0x42 0 h.slice.toNat h.srcId.toNat 0 (d.cntUnit w pl d.fno ++ data)
  match d.cntBad k with
  | some (c, det) => send ((d0.raise 0x10 c det).addSat (ra 0x10 0x14) 1) (condWord 0x10 c det) []
  | none =>
    let (o, n) := cntSet (leAt pl 1 1)
    send d0 0 ((List.range n).flatMap (fun i => leBytes 4 (d.rd (rp 0x10 (o + 4 * i) (leAt pl 0 1))).toNat))

/-- A CNT_READ is sampled (R500): at most 16 in a frame are served at its end, the rest stay for the next. -/
def Dev.cntReadAct (d : Dev) (id : Nat) : Dev :=
  if 16 ≤ d.cntServed then { d with inputs := d.inputs ++ [.cntRead id] }
  else
    d.onPacket id (fun k => k.pk.hdr.op == 0x41 && k.st == .engine && k.conf && k.rank == 0) (fun x k =>
      ({ x with cntServed := x.cntServed + 1 } : Dev).onPkt k.id (fun q => { q with rank := 1 }))

/-- The CNT_READs sampled in the frame are served with the view in effect at its end (R500). -/
def Dev.cntTick (d : Dev) : Dev :=
  (d.pkts.filter (fun k => k.pk.hdr.op == 0x41 && k.st == .engine && k.rank == 1)).foldl (fun (x : Dev) k => x.cntServe k) d

/-- CNT_READ: a confirmed request waits for the boundary that samples it (R55, R500). -/
def execCntRead (id : Nat) (s : State) : Host.Outcome State Fault Refusal := .next (s.wait (.cntRead id))

end Sys2Proof.Machine
end

