-- ==== Sys2Proof/Machine/Witness.lean ====
section
/-! DEFINITION. Witness functions: pattern sources, capture channels and injection above the lane (R507-R519). -/

namespace Sys2Proof.Machine

/-! ## Arming (R508, R511) -/

/-- The reason that refuses a GO. -/
def Dev.goRefusal (d : Dev) (region purpose p t : Nat) (busy : Bool) : Option Nat :=
  let r := d.rt region
  if ! (r.valid && r.purpose == purpose) then some 1
  else if ! d.pvalid p then some 2
  else if busy then some 3
  else if t ≠ 0 ∧ t < d.fno + 2 then some 4
  else if d.fno + 2 ^ 20 < t then some 5
  else if t ≠ 0 ∧ ! d.aligned then some 6 else none

/-- Frame a GO arms for: T, or the next. -/
def Dev.goFrame (d : Dev) (t : Nat) : Nat := if t = 0 then d.fno + 1 else t

/-! ## Pattern sources (R507-R510) -/

def Dev.pat_ (d : Dev) (i : Nat) : Pat := mapGet {} d.pats i
def Dev.setPat (d : Dev) (i : Nat) (x : Pat) : Dev := { d with pats := mapSet {} d.pats i x }

/-- A GO of a source. -/
def Dev.patGo (d : Dev) (i : Nat) : Dev :=
  let x := d.pat_ i
  let t := d.rd64 (patReg 0x10 i) % 2 ^ 48
  match d.goRefusal (d.fld (patReg 4 i) 0 12) 5 (d.fld (patReg 0 i) 0 7) t (x.st == .armed || x.st == .run || x.st == .paused) with
  | some r => d.raise 0x11 8 (r * 256 + 8 + i)
  | none => d.setPat i { st := .armed, t := d.goFrame t }

/-- A STOP of a source: what it presented and was not accepted is withdrawn. -/
def Dev.patStop (d : Dev) (i : Nat) : Dev :=
  let x := d.pat_ i
  if x.st = .armed ∨ x.st = .run ∨ x.st = .paused then (d.setPat i { x with st := .stopped }).patWithdraw i else d

/-- A write of WIT_PAT_s_CTL: its fields, then STOP, then GO. -/
def Dev.patWrite (d : Dev) (i : Nat) (v : Word) : Dev :=
  let d1 := d.wr (patReg 0 i) (v &&& 0x00C0007F)
  let d2 := if Machine.bit v 30 then d1.patStop i else d1
  if Machine.bit v 31 then d2.patGo i else d2

/-- WIT_PAT_GO (R508). -/
def execWitPatGo (src : Src) (i : BitVec 3) (v : Word) (s : State) : Host.Outcome State Fault Refusal :=
  .next (s.waitFrom src (.witPatGo src i v))

/-- WIT_PAT_STOP (R508). -/
def execWitPatStop (src : Src) (i : BitVec 3) (v : Word) (s : State) : Host.Outcome State Fault Refusal :=
  .next (s.waitFrom src (.witPatStop src i v))

/-- PAT_START (R509): at T; a source whose port is not in UP is PAUSED. -/
def execPatStart (i : BitVec 3) (s : State) : Host.Outcome State Fault Refusal :=
  devStep (fun d =>
    let x := d.pat_ i.toNat
    if x.st = .armed ∧ x.t ≤ d.fno then
      d.setPat i.toNat { x with st := if d.isUp (d.fld (patReg 0 i.toNat) 0 7) then .run else .paused, since := d.now }
    else d) s

/-- PAT_RESUME (R509). -/
def execPatResume (i : BitVec 3) (s : State) : Host.Outcome State Fault Refusal :=
  devStep (fun d =>
    let x := d.pat_ i.toNat
    if x.st = .paused ∧ d.isUp (d.fld (patReg 0 i.toNat) 0 7) then d.setPat i.toNat { x with st := .run, since := d.now } else d) s

/-- A source enters ERROR (R510). -/
def Dev.patError (d : Dev) (i reason : Nat) : Dev :=
  (d.setPat i { d.pat_ i with st := .error, reason := reason }).raise 0x11 4 (reason * 256 + i)

/-- The reason for which an entry at offset `o` of a region of `size` bytes is bad: its 32 first bytes are given. -/
def entryBad (b : List Byte) (o size : Nat) : Option Nat :=
  let plen := leAt b 0 2
  if size < o + 32 then some 4
  else if plen ≠ pktLen (hdrOf (b.drop 16)) then some 1
  else if leAt b 8 4 = 0 then some 2
  else if 4 ≤ leAt b 2 1 ∨ ! zeroAt b 3 1 ∨ ! zeroAt b 12 4 then some 3
  else if size < o + 64 * cdiv (16 + plen) 64 then some 4 else none

/-- Present a packet at PORT for output (TX). -/
def Dev.patTx (d : Dev) (i p : Nat) (pk : Packet) : Dev :=
  let c := if pk.hdr.cls = 7 then 5 else pk.hdr.cls.toNat
  d.addPkt { id := 0, ing := none, pk := { pk with hdr := { pk.hdr with cls := BitVec.ofNat 3 c } }, arr := some pk.hdr, conf := true
             st := .hold, tgts := [{ port := some p, dir := 0, vc := vcOf c 0 0 }], use := .pat i, since := d.now }

/-- Present a packet as if its last cell had been confirmed on PORT (RX). -/
def Dev.patRx (d : Dev) (i p : Nat) (pk : Packet) : Dev :=
  let id := d.nextId
  let d1 := if d.isEmu p then d.arrive p pk 0 0 .accepted else d.lookup p pk 0 0
  let d2 := d1.onPkt id (fun k => { k with conf := true, verd := true, use := .pat i })
  match d2.pkt id with
  | some k => ((d2.commit k).settleLoss).holdsMoved
  | none => d2

/-- The list moves on past what was presented (R509). -/
def Pat.next (x : Pat) (now : Nat) : Pat :=
  { x with cur := none, off := x.nextOff, left := x.nextLeft, since := now, st := if x.fin && x.st == .run then .done else x.st }

/-- A packet still waits to be accepted. -/
def Dev.patWaits (d : Dev) (x : Pat) : Bool :=
  match x.cur with
  | some id => (match d.pkt id with | some k => k.st == .hold | none => false)
  | none => false

/-- PAT_PRESENT (R509, R510): the next packet is read whole and presented. -/
def State.patPresent (s : State) (i : Nat) : State :=
  let d0 := s.dev
  let x0 := d0.pat_ i
  let p := d0.fld (patReg 0 i) 0 7
  if d0.patWaits x0 then s
  else
    -- what was presented has gone without being accepted at an output: the list has moved on
    let x := if x0.cur.isSome then x0.next d0.now else x0
    let d := d0.setPat i x
    if x.st ≠ .run ∨ ! d.isUp p then { s with dev := d }
    else
      let r := d.rt (d.fld (patReg 4 i) 0 12)
      let a := r.base + x.off
      let b := readBytes s.mem a 32
      let plen := leAt b 0 2
      let fail (ws : List Nat) : State :=
        { s with dev := ((d.uncorr ws).setPat i { x with st := .error }).raise 0x11 3 i }
      if x.off + 16 ≤ r.size ∧ d.badIn a 16 ≠ [] then fail (d.badIn a 16)
      else
        match entryBad b x.off r.size with
        | some reason => { s with dev := d.patError i reason }
        | none =>
          if d.age x.since < leAt b 4 4 / 256 then { s with dev := d }
          else if d.badIn a (16 + plen) ≠ [] then fail (d.badIn a (16 + plen))
          else
            match d.reserve a (16 + plen) with
            | none => { s with dev := d }
            | some d1 =>
              let pk0 := pktOf (readBytes s.mem (a + 16) plen)
              let flags := leAt b 2 1
              let pk := if flags.testBit 0 then { pk0 with crc := pktCrc pk0.hdr pk0.payload } else pk0
              let n := if x.left = 0 then leAt b 8 4 else x.left
              let fin := n == 1 && flags.testBit 1
              let y : Pat := { x with
                cur := some d1.nextId, nextLeft := n - 1, fin := fin && ! d.bit (patReg 0 i) 23
                nextOff := if 1 < n then x.off else if fin then 0 else x.off + 64 * cdiv (16 + plen) 64 }
              let rx := d.bit (patReg 0 i) 22
              let d2 := d1.setPat i y
              let d3 := if rx then d2.patRx i p pk else d2.patTx i p pk
              if d3.patWaits y then { s with dev := d3 }
              else
                let taken := d.isEmu p || (match d3.pkt d1.nextId with | some _ => true | none => false)
                let d4 := d3.setPat i (y.next d.now)
                { s with dev := if taken then d4.add64 (patReg 0x18 i) 1 else d4 }

/-- PAT_PRESENT. -/
def execPatPresent (i : BitVec 3) (s : State) : Host.Outcome State Fault Refusal := .next (s.patPresent i.toNat)

/-! ## Capture channels (R511-R515) -/

/-- A GO of a channel. -/
def Dev.capGo (d : Dev) (c : Nat) : Dev :=
  let x := d.cap_ c
  let t := d.rd64 (capReg 0x10 c) % 2 ^ 48
  match d.goRefusal (d.fld (capReg 4 c) 0 12) 4 (d.fld (capReg 0 c) 0 7) t (x.st == .armed || x.st == .run) with
  | some r => d.raise 0x11 8 (r * 256 + c)
  | none => (d.setCap c { st := .armed, t := d.goFrame t }).wr (capReg 0xC c) 0

/-- A STOP of a channel: records staged are still written. -/
def Dev.capStop (d : Dev) (c : Nat) : Dev :=
  let x := d.cap_ c
  if x.st = .armed ∨ x.st = .run then d.setCap c { x with st := .stopped } else d

/-- A write of WIT_CAP_c_CTL: its fields, then STOP, then GO. -/
def Dev.capCtl (d : Dev) (c : Nat) (v : Word) : Dev :=
  let d1 := d.wr (capReg 0 c) (v &&& 0x03E7F07F)
  let d2 := if Machine.bit v 30 then d1.capStop c else d1
  if Machine.bit v 31 then d2.capGo c else d2

/-- WIT_CAP_GO (R511). -/
def execWitCapGo (src : Src) (c : BitVec 3) (v : Word) (s : State) : Host.Outcome State Fault Refusal :=
  .next (s.waitFrom src (.witCapGo src c v))

/-- WIT_CAP_STOP (R511). -/
def execWitCapStop (src : Src) (c : BitVec 3) (v : Word) (s : State) : Host.Outcome State Fault Refusal :=
  .next (s.waitFrom src (.witCapStop src c v))

/-- CAP_START (R511): at T. -/
def execCapStart (c : BitVec 3) (s : State) : Host.Outcome State Fault Refusal :=
  devStep (fun d =>
    let x := d.cap_ c.toNat
    if x.st = .armed ∧ x.t ≤ d.fno then d.setCap c.toNat { x with st := .run } else d) s

/-- A PAD record that fills `units` units before a record (R514). -/
def padRec (r : List Byte) (units : Nat) : List Byte :=
  padTo (64 * units) (r.take 7 ++ leBytes 1 4 ++ (r.drop 8).take 1 ++ zeros 3 ++ leBytes 2 units ++ zeros 2 ++ (r.drop 16).take 4)

/-- The oldest staged record of a channel is written (R514). -/
def State.captureWrite (s : State) (c : Nat) : State :=
  let d := s.dev
  let x := d.cap_ c
  match x.staged with
  | [] => s
  | r :: rest =>
    if ! (x.st = .run ∨ x.st = .stopped) then s
    else
      let g := d.rt (d.fld (capReg 4 c) 0 12)
      let total := g.size / 64
      let u := r.length / 64
      let head := (d.rd (capReg 0xC c)).toNat
      let fits := decide (head + u ≤ total)
      if ! fits ∧ ! d.bit (capReg 0 c) 22 then
        { s with dev := (d.setCap c { x with st := .full, staged := [] }).raise 0x11 2 c }
      else
        let to_ := if fits then head else 0
        match d.reserve (g.base + 64 * to_) r.length with
        | none => s
        | some d1 =>
          let m0 := if fits ∨ head = total then s.mem else writeBytes s.mem (g.base + 64 * head) (padRec r (total - head))
          let d2 := if fits ∨ head = total then d1 else d1.wrote (g.base + 64 * head) (64 * (total - head))
          let d3 := ((d2.wrote (g.base + 64 * to_) r.length).add64 (capReg 0x20 c) 1).wr (capReg 0xC c) (BitVec.ofNat 32 (to_ + u))
          let lim := (d.rd (capReg 0x18 c)).toNat
          let done := decide (lim ≠ 0 ∧ lim ≤ leAt r 16 4 + 1)
          { s with
            mem := writeBytes m0 (g.base + 64 * to_) r
            dev := d3.setCap c { x with staged := if done then [] else rest, st := if done then .done else x.st } }

/-- CAPTURE_WRITE (R514). -/
def execCaptureWrite (c : BitVec 3) (s : State) : Host.Outcome State Fault Refusal := .next (s.captureWrite c.toNat)

/-! ## Error injection (R517-R519) -/

/-- A LAYER and MODE of R517. -/
def injKnown (layer mode : Nat) : Bool :=
  match layer with
  | 1 => decide (1 ≤ mode ∧ mode ≤ 3)
  | 2 => decide (1 ≤ mode ∧ mode ≤ 3)
  | 3 => mode == 1
  | 4 => decide (1 ≤ mode ∧ mode ≤ 4)
  | _ => false

/-- The reason that refuses a GO (R518). -/
def Dev.injRefusal (d : Dev) (p layer mode : Nat) : Option Nat :=
  if ! d.bit (rp 0x11 0x100 p) 2 then some 1
  else if 2 ≤ layer ∧ layer ≤ 4 ∧ d.emuRole p = 0 then some 2
  else if ! d.isUp p then some 3
  else if ! injKnown layer mode then some 4 else none

/-- An act begins (R517); the acts done once are done at once. -/
def Dev.injStart (d : Dev) (p layer mode rep param : Nat) : Dev :=
  let d0 := ({ d with injs := mapSet none d.injs p none } : Dev).wr (rp 0x11 0x114 p) 0
  let x := d0.port p
  let once (y : Dev) : Dev := y.addSat (rp 0x11 0x114 p) 1
  match layer, mode with
  | 2, 3 =>
    let t : BitVec 12 := BitVec.ofNat 12 param
    once ((d0.onPort p (fun y => { y with badTags := t :: y.badTags })).emit (.verdBad p t))
  | 4, 2 => once (d0.discardRx p)
  | 4, 3 => once (d0.issueReq p (BitVec.ofNat 12 param))
  | 4, 4 =>
    let id := x.served.getD 0 + 1
    once ((d0.onPort p (fun y => { y with stream := y.stream ++ [.start id] })).emit (.start p id []))
  | _, _ =>
    let d1 : Dev := { d0 with injs := mapSet none d0.injs p (some { layer := layer, mode := mode, param := param
                                                                    left := if rep = 0 then none else some rep }) }
    if layer = 2 ∧ mode = 1 then d1.refreshXoff p else d1

/-- A write of WIT_INJ_p_CTL: LAYER 000b ends a continuous act; then GO. -/
def Dev.witInjWrite (d : Dev) (p : Nat) (v : Word) : Dev :=
  let d1 := d.wr (rp 0x11 0x110 p) (v &&& 0x07FFFFFF)
  let layer := Machine.fld v 24 3
  let mode := Machine.fld v 12 4
  let cont := match mapGet none d.injs p with | some i => i.left.isNone | none => false
  let d2 : Dev := if layer = 0 && cont then { d1 with injs := mapSet none d1.injs p none } else d1
  if ! Machine.bit v 31 then d2
  else
    match d2.injRefusal p layer mode with
    | some r => d2.raise 0x11 5 (r * 256 + p)
    | none => d2.injStart p layer mode (Machine.fld v 16 8) (Machine.fld v 0 12)

/-- WIT_INJ_GO (R517, R518). -/
def execWitInjGo (src : Src) (p : BitVec 7) (v : Word) (s : State) : Host.Outcome State Fault Refusal :=
  .next (s.waitFrom src (.witInjGo src p v))

end Sys2Proof.Machine
end

