-- ==== Sys2Proof/Machine/Tap.lean ====
section
/-! DEFINITION. Boundary scan (R520, R521). The width and order of the boundary register are the BSDL file's (log 7). -/

namespace Sys2Proof.Machine

/-- The bits of a number, least significant first. -/
def bitsOf (n w : Nat) : List Bool := (List.range n).map (fun i => w.testBit i)

/-- IDCODE. -/
def idWord : Nat := Config.idStepping.toNat * 2 ^ 28 + 0x9464 * 2 ^ 12 + 0x4D6 * 2 + 1

/-- An instruction of the TAP, which runs from VDD_STBY. -/
def Dev.tap (d : Dev) (i : TapIr) : Dev := if d.stby then { d with ir := i } else d

/-- BYPASS: the register's one bit is captured as 0. -/
def Dev.tapBypass (d : Dev) : Dev := if d.stby then (d.tap .bypass).emit (.tdo [false]) else d

/-- An instruction that takes hold of the pins: only while CFG_LOCK is 0b; every activation then waits (R521). -/
def Dev.tapHold (d : Dev) (i : TapIr) : Dev :=
  if d.col.cfgLock then d.tapBypass else if d.stby then { d.tap i with tapHeld := true } else d

/-- EXTEST. -/
def execExtest (s : State) : Host.Outcome State Fault Refusal := devStep (fun d => d.tapHold .extest) s

/-- EXTEST_PULSE. -/
def execExtestPulse (s : State) : Host.Outcome State Fault Refusal := devStep (fun d => d.tapHold .extestPulse) s

/-- EXTEST_TRAIN. -/
def execExtestTrain (s : State) : Host.Outcome State Fault Refusal := devStep (fun d => d.tapHold .extestTrain) s

/-- CLAMP. -/
def execClamp (s : State) : Host.Outcome State Fault Refusal := devStep (fun d => d.tapHold .clamp) s

/-- HIGHZ. -/
def execHighz (s : State) : Host.Outcome State Fault Refusal := devStep (fun d => d.tapHold .highz) s

/-- IDCODE (R520). -/
def execIdcode (s : State) : Host.Outcome State Fault Refusal :=
  devStep (fun d => if d.stby then (d.tap .idcode).emit (.tdo (bitsOf 32 idWord)) else d) s

/-- SAMPLE/PRELOAD: bits are shifted into the boundary register. -/
def execSamplePreload (bits : List Bool) (s : State) : Host.Outcome State Fault Refusal :=
  devStep (fun d => if d.stby then { d.tap .samplePreload with bsr := bits.take Config.bsrLen } else d) s

/-- BYPASS, and every opcode not listed. -/
def execBypass (s : State) : Host.Outcome State Fault Refusal := devStep (fun d => d.tapBypass) s

/-- TEST_LOGIC_RESET: the instruction that IEEE 1149.1 selects there is IDCODE; activations proceed (R521). -/
def execTestLogicReset (s : State) : Host.Outcome State Fault Refusal :=
  devStep (fun d => if d.stby then { d.tap .idcode with tapHeld := false } else d) s

end Sys2Proof.Machine
end

