-- ==== Sys2Proof/Machine/ColNar.lean ====
section
/-! DEFINITION. Col, the boot ROM, the recovery loader and Narrows (R419-R445). -/

namespace Sys2Proof.Machine

def Dev.onCol (d : Dev) (f : Col → Col) : Dev := { d with col := f d.col }

/-! ## Images (R424, R425) -/

/-- The bodies of an image lie within it; BODY_LEN. -/
def imgBody (b : List Byte) : Nat := leAt b 16 4

/-- A BODY_LEN is valid. -/
def bodyOk (n : Nat) : Bool := n % 64 == 0 && decide (64 ≤ n ∧ n ≤ 1572864)

/-- Reason 02h of R425. -/
def imgFormBad (b : List Byte) : Bool :=
  leAt b 0 4 != 0x57464C43 || leAt b 4 2 != 1 || ! bodyOk (imgBody b) || leAt b 20 4 % 4 != 0 || decide (imgBody b ≤ leAt b 20 4) ||
  leAt b 448 4 != 0x00010001 || ! (zeroAt b 6 2 && zeroAt b 13 3 && zeroAt b 24 40 && zeroAt b 452 60)

/-- Reason 03h. -/
def imgKeyBad (b : List Byte) : Bool := sha256 ((b.drop 64).take 388) != Config.paltiaKeyHash

/-- Reason 04h. -/
def imgSigBad (b : List Byte) : Bool :=
  let n := 512 + imgBody b
  ! sigOk ((b.drop 64).take 384) (b.take n) ((b.drop n).take 384)

/-- The first reason for which an image is bad. -/
def imgBad (b : List Byte) (svn : Nat) (flashOk : Bool) : Option Nat :=
  if ! flashOk then some 1
  else if imgFormBad b then some 2
  else if imgKeyBad b then some 3
  else if imgSigBad b then some 4
  else if leAt b 12 1 < svn then some 5 else none

/-! ## Writes that wait for a boundary -/

/-- The register write that a command stands for (R12): who writes, where and what. -/
def writeOf : Instr → Option (Src × Nat × Word)
  | .frmArm src v => some (src, ra 1 0xC, v)
  | .registerWrite src addr v => some (src, addr.toNat, v)
  | .laneEnable src l v => some (src, rl 0 l.toNat, v)
  | .laneDisable src l v => some (src, rl 0 l.toNat, v)
  | .retrain src l v => some (src, rl 0 l.toNat, v)
  | .loopbackSelect src l v => some (src, rl 0 l.toNat, v)
  | .patternGeneratorSet src l v => some (src, rl 0x50 l.toNat, v)
  | .patternCheckerSet src l v => some (src, rl 0x50 l.toNat, v)
  | .laneInjGo src l v => some (src, rl 0x70 l.toNat, v)
  | .linkQclr src p v => some (src, rp 3 0x14 p.toNat, v)
  | .portDisable src p => some (src, rp 3 0 p.toNat, 1)
  | .portEnable src p => some (src, rp 3 0 p.toNat, 0)
  | .sampleConsume src k v => some (src, ra 5 (0x400F14 + 0x1000 * k.toNat), v)
  | .coreWmarkClr src => some (src, ra 5 0, 1)
  | .coordWrite src v => some (src, ra 6 0, v)
  | .routeActGo src v => some (src, ra 6 0x40, v)
  | .routeActCancel src v => some (src, ra 6 0x40, v)
  | .catLaunchGo src v => some (src, ra 7 0x58, v)
  | .catLaunchAbort src v => some (src, ra 7 0x58, v)
  | .catFenceWrite src w v => some (src, ra 7 (0x80 + 4 * w.toNat), v)
  | .scoreboardSelect src addr v =>
    if addr.toNat = ra 7 0x60 ∨ addr.toNat = ra 7 0x64 then some (src, addr.toNat, v) else none
  | .fanRoundGo src v => some (src, ra 8 0x60, v)
  | .fanRoundAbort src v => some (src, ra 8 0x60, v)
  | .platLoadStart src => some (src, ra 0xA 4, 0x80000000)
  | .platLoadClear src => some (src, ra 0xA 4, 0x40000000)
  | .platLoadInstall src => some (src, ra 0xA 4, 0x20000000)
  | .platActGo src v => some (src, ra 0xA 0x40, v)
  | .platActCancel src v => some (src, ra 0xA 0x40, v)
  | .colRecovStart src v => some (src, ra 0xD 8, v)
  | .colRecovRun src v => some (src, ra 0xD 8, v)
  | .colReady src => some (src, ra 0xD 4, 1)
  | .colRestart src => some (src, ra 0xD 4, 0x80000000)
  | .wdogKick src v => some (src, ra 0xE 0x10, v)
  | .cfgLock src v => some (src, ra 0xE 4, v)
  | .tokenCheck src v => some (src, ra 0xE 0x20, v)
  | .tripClr src v _ => some (src, ra 0xF 0x20, v)
  | .leakClr src v => some (src, ra 0xF 0x20, v)
  | .diodeRetry src v => some (src, ra 0xF 0x20, v)
  | .pwrCapHost src v => some (src, ra 0xF 0x10, v)
  | .pwrHoldSet src v => some (src, ra 0xF 0x14, v)
  | .pwrHoldClr src v => some (src, ra 0xF 0x14, v)
  | .dpReset src v => some (src, ra 0 0x40, v)
  | .perPortReset src w v => some (src, ra 0 (0x50 + 4 * w.toNat), v)
  | .locateHost src v => some (src, ra 0 0x74, v)
  | .cntSnap src v => some (src, ra 0x10 0, v)
  | .cntWmarkClr src v => some (src, ra 0x10 0, v)
  | .cntWinWrite src v => some (src, ra 0x10 0, v)
  | .cntViewWrite src addr v => if isView addr.toNat then some (src, addr.toNat, v) else none
  | .witPatGo src i v => some (src, patReg 0 i.toNat, v)
  | .witPatStop src i v => some (src, patReg 0 i.toNat, v)
  | .witCapGo src c v => some (src, capReg 0 c.toNat, v)
  | .witCapStop src c v => some (src, capReg 0 c.toNat, v)
  | .witInjGo src p v => some (src, rp 0x11 0x110 p.toNat, v)
  | _ => none

/-- A write of Col's that no boundary has sampled: a Col reset loses it (R443). -/
def colWrite (c : Instr) : Bool := match writeOf c with | some (src, _, _) => isCol src | none => false

/-! ## Boot (R425, R426, R429) -/

/-- A load begins in the loader. -/
def Dev.loadBegin (d : Dev) (kind len : Nat) (trail : Bool) : Dev :=
  d.onCol (fun x => { x with lst := .receiving, lkind := kind, llen := len, lbuf := [], lsrc := if trail then 1 else 2 })

/-- The ROM enters the recovery loader; a load that a START asked for begins (R429, R430). -/
def Dev.enterLoader (d : Dev) (cause : Nat) : Dev :=
  let r := d.col.recovReq
  let d1 := (d.onCol (fun x => { x with st := .recovery, rcause := cause, fwVer := 0, recovReq := none })).raise 0xD 3 cause
  match r with
  | some (kind, len, trail) => d1.loadBegin kind len trail
  | none => d1

/-- The boot ROM's steps (R425): a recovery START that caused the Col reset, then three watchdog resets, then the image. -/
def State.bootRom (s : State) (selfTestOk flashOk : Bool) : State :=
  let d := s.dev
  if d.col.st ≠ .rom then s
  else if ! selfTestOk then s.onDev (fun x => (x.onCol (fun c => { c with st := .fault })).raise 0 2 12)
  else if d.col.recovReq.isSome then s.onDev (fun x => x.enterLoader 3)
  else if d.col.bootFails = 3 then s.onDev (fun x => x.enterLoader 2)
  else
    let b := s.nv.image
    match imgBad b s.nv.svn flashOk with
    | some r => s.onDev (fun x => ((x.onCol (fun c => { c with imgReason := r })).raise 0xD 1 (r * 256)).enterLoader 1)
    | none =>
      let svn := leAt b 12 1
      { s with
        nv := { s.nv with svn := max s.nv.svn svn }
        dev := d.onCol (fun x => { x with
          st := .fwStart, rcause := 0, fwVer := BitVec.ofNat 32 (leAt b 8 4), imgSvn := svn
          imgDigest := sha256 (b.take (512 + imgBody b)), certValid := sha256 s.nv.ident == Config.identCertHash
          fuseLock := true, wdogOn := true, wdogAt := d.now }) }

/-- BOOT_ROM (R425). -/
def execBootRom (selfTestOk flashOk : Bool) (s : State) : Host.Outcome State Fault Refusal := .next (s.bootRom selfTestOk flashOk)

/-- A Col reset (R434, R435): the cores, the SRAM, Narrows' Col queue and FUSE_LOCK; the boot ROM starts. Col writes not yet sampled are
lost (R443). -/
def Dev.colReset (d : Dev) (cause : Nat) : Dev :=
  let d1 : Dev := { d with pkts := d.pkts.filter (fun k => ! (k.fromCol && k.st == .hold)), inputs := d.inputs.filter (fun c => ! colWrite c) }
  ((d1.onCol (fun x => { x with
    st := .rom, fwVer := 0, fuseLock := false, wdogOn := false, inbox := [], lst := .idle, lbuf := [], lsrc := 0, lkind := 0
    llen := 0 })).addSat (ra 0xD 0x20) 1).raise 0xD 2 cause

/-- READY from Col firmware: the trail port is in full service, and repairs held are logged (R426, R435). -/
def State.colReady (s : State) (src : Src) : State :=
  if ! isCol src ∨ ! (s.dev.col.st = .fwStart ∨ s.dev.col.st = .ready) then s
  else
    { s with
      nv := { s.nv with repairs := s.nv.repairs ++ s.dev.col.heldRepairs }
      dev :=
        let d := s.dev.onCol (fun x => { x with st := .ready, bootFails := 0, heldRepairs := [] })
        { d with obvo := { d.obvo with alert := d.obvo.alert || d.obvo.alertDue, alertDue := false } } }

/-- NAR_WDOG.PERIOD in frames. -/
def Dev.wdogFrames (d : Dev) : Nat := 8000 * max 10 (min 2000 (d.fld (ra 0xE 0xC) 0 12))

/-- The watchdog's period has passed. -/
def Dev.wdogDue (d : Dev) : Bool := d.col.wdogOn && decide (d.wdogFrames ≤ d.age d.col.wdogAt)

/-- The watchdog expires (R434). -/
def Dev.wdogFires (d : Dev) : Dev :=
  let n := min 3 (d.col.bootFails + 1)
  ((d.onCol (fun x => { x with bootFails := n })).colReset 1).raise 0xE 6 n

/-- RESTART from any source (R431, R434); with an expiry in one frame it is the watchdog's reset (R443). -/
def Dev.colRestart (d : Dev) : Dev :=
  if d.col.st = .reset then d
  else if d.wdogDue then d.wdogFires
  else
    (if d.col.st = .recovery then d.onCol (fun x => { x with bootFails := 0, recovReq := none }) else d).colReset 2

/-- A write of COL_CTL: READY, then RESTART. -/
def State.colCtl (s : State) (src : Src) (v : Word) : State :=
  let a := if Machine.bit v 0 then s.colReady src else s
  if Machine.bit v 31 then a.onDev Dev.colRestart else a

/-- COL_READY (R426). -/
def execColReady (src : Src) (s : State) : Host.Outcome State Fault Refusal := .next (s.waitFrom src (.colReady src))

/-- COL_RESTART (R434). -/
def execColRestart (src : Src) (s : State) : Host.Outcome State Fault Refusal := .next (s.waitFrom src (.colRestart src))

/-! ## The watchdog (R434) -/

/-- A write of NAR_WDOG_KICK. -/
def Dev.wdogKick (d : Dev) (src : Src) (v : Word) : Dev :=
  if isCol src ∧ Machine.fld v 0 16 = 0x5AC3 ∧ d.col.wdogOn then d.onCol (fun x => { x with wdogAt := d.now }) else d

/-- WDOG_KICK (R434). -/
def execWdogKick (src : Src) (v : Word) (s : State) : Host.Outcome State Fault Refusal := .next (s.waitFrom src (.wdogKick src v))

/-- WDOG_EXPIRE (R434). -/
def execWdogExpire (s : State) : Host.Outcome State Fault Refusal :=
  devStep (fun d => if d.wdogDue then d.wdogFires else d) s

/-! ## CFG_LOCK (R441) -/

/-- A write of NAR_CTL. -/
def Dev.narCtlWrite (d : Dev) (src : Src) (v : Word) : Dev :=
  if Machine.bit v 0 && ! isCol src then d.onCol (fun x => { x with lockDue := true }) else d

/-- CFG_LOCK: engaged at the end of the frame. -/
def execCfgLock (src : Src) (v : Word) (s : State) : Host.Outcome State Fault Refusal := .next (s.waitFrom src (.cfgLock src v))

/-! ## Quarantine tokens (R442) -/

/-- NAR 07h. -/
def Dev.tokenBad (d : Dev) (r : Nat) : Dev := (d.raise 0xE 7 (r * 256)).onCol (fun x => { x with tokReason := r })

/-- A write of NAR_TOKEN_CTL. -/
def Dev.tokenCtl (d : Dev) (v : Word) : Dev :=
  if ! Machine.bit v 31 then d else if d.col.checking then d.tokenBad 8 else d.onCol (fun x => { x with checking := true })

/-- TOKEN_CHECK (R442). -/
def execTokenCheck (src : Src) (v : Word) (s : State) : Host.Outcome State Fault Refusal :=
  .next (s.waitFrom src (.tokenCheck src v))

/-- The token in NAR_TOKEN_0 to NAR_TOKEN_111. -/
def Dev.tokenBytes (d : Dev) : List Byte := (List.range 112).flatMap (fun w => leBytes 4 (d.rd (ra 0xE (0x200 + 4 * w))).toNat)

/-- The reason that refuses a token. -/
def tokenRefusal (d : Dev) (n : Nv) (b : List Byte) : Option Nat :=
  let p := leAt b 5 1
  let c := leAt b 6 1
  let x := d.port p
  if leAt b 0 4 ≠ 0x4B4F5451 ∨ leAt b 4 1 ≠ 1 ∨ 128 ≤ p ∨ ! (zeroAt b 7 1 && zeroAt b 30 2 && zeroAt b 48 16) then some 1
  else if leAt b 8 8 ≠ Config.serial.toNat then some 2
  else if leAt b 16 8 ≠ d.col.nonce.toNat then some 3
  else if ! ownerSig n ((b.drop 40).take 8) (b.take 64) ((b.drop 64).take 384) then some 4
  else if x.st ≠ .quar ∨ x.cause ≠ c ∨ c = 0 ∨ 3 < c then some 5
  else if leAt b 32 8 ≠ (match x.ident with | some i => i.serial.toNat | none => 0) then some 6
  else if leAt b 24 6 < d.fno then some 7 else none

/-- A check completes; the nonce is replaced (R442). -/
def State.tokenDone (s : State) : State :=
  let d := s.dev
  if ! d.col.checking then s
  else
    let b := d.tokenBytes
    let d1 := d.newNonce.onCol (fun x => { x with checking := false })
    match tokenRefusal d s.nv b with
    | some r => { s with dev := d1.tokenBad r }
    | none =>
      let p := leAt b 5 1
      { s with
        dev := ((d1.dropToken p).onCol (fun x => { x with
          tokens := x.tokens ++ [(p, leAt b 6 1, leAt b 24 6, d.fno)], tokPort := p, tokCause := leAt b 6 1 })).raise 0xE 8 p }

/-- TOKEN_CHECK_DONE (R442). -/
def execTokenCheckDone (s : State) : Host.Outcome State Fault Refusal := .next s.tokenDone

/-- TOKEN_EXPIRE (R442). -/
def execTokenExpire (p : BitVec 7) (s : State) : Host.Outcome State Fault Refusal :=
  devStep (fun d => if d.col.tokens.any (fun t => t.1 == p.toNat && decide (t.2.2.1 < d.fno)) then d.dropToken p.toNat else d) s

/-! ## Col's packets, messages and flash (R419, R421, R439) -/

/-- The test of R439 a packet of Col fails. -/
def Dev.colPkBad (d : Dev) (h : Header) : Option Nat :=
  if h.cls ≠ 0 then some 1 else if h.vc ≠ 0 then some 2 else if h.slice ≠ 0 then some 3 else if h.srcId ≠ d.devId then some 4 else none

/-- Cells that wait in Narrows' Col queue. -/
def Dev.colQueued (d : Dev) : Nat := ((d.pkts.filter (fun k => k.fromCol && k.st == .hold)).map (fun k => cellsOfPkt k.pk.hdr)).sum

/-- COL_PACKET_SEND (R439): a send that finds the queue full is stalled. -/
def execColPacketSend (pk : Packet) (s : State) : Host.Outcome State Fault Refusal :=
  devStep (fun d =>
    match d.colPkBad pk.hdr with
    | some t => d.raise 0xE 4 t
    | none => if 64 < d.colQueued + cellsOfPkt pk.hdr then d else d.originate pk none none true) s

/-- COL_MESSAGE (R419). -/
def Dev.colMessageAct (d : Dev) (id : Nat) : Dev :=
  d.onPacket id (ctlMsg 0xD) (fun x k =>
    let y := x.rmPkt k.id
    if y.col.st = .ready then y.onCol (fun c => { c with inbox := c.inbox ++ [k.pk] })
    else (y.addSat (ra 0xD 0x28) 1).raiseOnce 0xFFFF 0xD 7 0)

/-- COL_MESSAGE: a confirmed message waits for the boundary (R55, R71). -/
def execColMessage (id : Nat) (s : State) : Host.Outcome State Fault Refusal := .next (s.wait (.colMessage id))

/-- Write bytes into FWDATA; an unwritten byte reads as erased flash, FFh. -/
def fwWrite : List (Nat × Byte) → Nat → List Byte → List (Nat × Byte)
  | m, _, [] => m
  | m, a, b :: bs => fwWrite (mapSet 0xFF m a b) (a + 1) bs

/-- COL_FLASH_WRITE (R421). -/
def execColFlashWrite (off : Word) (data : List Byte) (s : State) : Host.Outcome State Fault Refusal :=
  .next (
    if 0x01C20000 ≤ off.toNat ∧ off.toNat + data.length ≤ 0x04000000 then
      { s with nv := { s.nv with fwdata := fwWrite s.nv.fwdata off.toNat data } }
    else s.onDev (fun d => (d.addSat (ra 0xE 0x14) 1).raise 0xE 0xA 0))

/-! ## The recovery loader (R428, R430, R431) -/

/-- COL 04h. -/
def Dev.recovRefuse (d : Dev) (r : Nat) : Dev := (d.raise 0xD 4 (r * 256)).onCol (fun x => { x with lreason := r })

/-- LENGTH is right for its KIND. -/
def recovLenOk (kind len : Nat) : Bool :=
  match kind with
  | 1 => decide (896 ≤ len) && bodyOk (len - 896)
  | 2 => len == 800
  | 3 => len == 800
  | _ => false

/-- A load is open. -/
def recovOpen (x : Col) : Bool := x.st == .recovery && (x.lst == .receiving || x.lst == .loaded)

/-- The source of the load that is open or asked for is the trail port (R430, R443). -/
def trailLoads (x : Col) : Bool :=
  (x.st == .recovery && x.lsrc == 1 && x.lst != .refused && x.lst != .idle) ||
    (match x.recovReq with | some (_, _, t) => t | none => false)

/-- START (R430): the reason that refuses it, or the device in which the load begins, after a Col reset where needed. -/
def Dev.recovStart (d : Dev) (trail : Bool) (kind len : Nat) : Option Nat × Dev :=
  if ! trail && trailLoads d.col then (some 4, d.recovRefuse 4)
  else if ! recovLenOk kind len then (some 2, d.recovRefuse 2)
  else if d.col.st = .recovery then (none, d.loadBegin kind len trail)
  else (none, (d.colReset 3).onCol (fun x => { x with recovReq := some (kind, len, trail) }))

/-- The reason that refuses data. -/
def recovDataBad (x : Col) (trail : Bool) (off len : Nat) : Option Nat :=
  if ! recovOpen x then some 1
  else if x.llen < x.lbuf.length + len then some 2
  else if off ≠ x.lbuf.length then some 3
  else if (x.lsrc == 1) != trail then some 4 else none

/-- Data joins the load. -/
def Dev.recovAppend (d : Dev) (data : List Byte) : Dev :=
  d.onCol (fun x =>
    let b := x.lbuf ++ data
    { x with lbuf := b, lst := if b.length = x.llen then .loaded else .receiving })

/-- Verification of a load (R431): the reason it fails. -/
def recovBad (n : Nv) (x : Col) : Option Nat :=
  let b := x.lbuf
  if x.lkind = 1 then
    if imgFormBad b ∨ b.length ≠ 896 + imgBody b then some 5
    else if imgKeyBad b ∨ imgSigBad b then some 6
    else if leAt b 12 1 < n.svn then some 7 else none
  else
    let first := x.lkind == 2 && n.owners.isEmpty
    let sig := match n.owner with | some (_, m) => sigOk m (b.take 416) ((b.drop 416).take 384) | none => false
    if leAt b 0 4 ≠ 0x524E574F ∨ leAt b 4 1 ≠ x.lkind ∨ leAt b 8 8 ≠ Config.serial.toNat then some 5
    else if ! first ∧ ! sig then some 6
    else if n.ownerFinal ∨ (x.lkind = 2 ∧ (leAt b 5 1 ≠ n.owners.length ∨ 4 ≤ n.owners.length)) ∨ (first ∧ x.lsrc = 2) then some 8
    else none

/-- RUN (R430, R431): the reason that refuses it, or the state in which the load is being written. -/
def State.recovRun (s : State) (trail : Bool) : Option Nat × State :=
  let d := s.dev
  let no (r : Nat) : Option Nat × State := (some r, { s with dev := d.recovRefuse r })
  if ! recovOpen d.col then no 1
  else if (d.col.lsrc == 1) != trail then no 4
  else if d.col.lst ≠ .loaded then (none, s)
  else
    match recovBad s.nv d.col with
    | some r => (some r, { s with dev := (d.recovRefuse r).onCol (fun x => { x with lst := .refused }) })
    | none => (none, { s with dev := d.onCol (fun x => { x with lst := .writing }) })

/-- COL_RECOV_STAT. -/
def Dev.recovStat (d : Dev) : Word :=
  let st : Nat := match d.col.lst with
    | .idle => 0
    | .receiving => 1
    | .loaded => 2
    | .verifying => 3
    | .writing => 4
    | .refused => 5
  at32 24 8 d.col.lreason ||| at32 22 2 d.col.lsrc ||| at32 16 3 st ||| at32 8 8 d.col.lkind

/-- A write of COL_RECOV_CTL: KIND, then START, then RUN. -/
def State.recovCtl (s : State) (src : Src) (v : Word) : State :=
  let a := s.onDev (fun d => d.wr (ra 0xD 8) (v &&& 0xFF))
  let b := if Machine.bit v 31 then
      a.onDev (fun d => (d.recovStart (isTrail src) (Machine.fld v 0 8) (d.fld (ra 0xD 0xC) 0 22)).2) else a
  if Machine.bit v 30 then (b.recovRun (isTrail src)).2 else b

/-- COL_RECOV_START (R430). -/
def execColRecovStart (src : Src) (v : Word) (s : State) : Host.Outcome State Fault Refusal :=
  .next (s.waitFrom src (.colRecovStart src v))

/-- COL_RECOV_RUN (R431). -/
def execColRecovRun (src : Src) (v : Word) (s : State) : Host.Outcome State Fault Refusal :=
  .next (s.waitFrom src (.colRecovRun src v))

/-- LOADER_COMMIT (R431): the load is programmed and the loader boots normally. -/
def State.loaderCommit (s : State) (ok : Bool) : State :=
  let d := s.dev
  let x := d.col
  if x.st ≠ .recovery ∨ x.lst ≠ .writing then s
  else if x.lkind = 1 ∧ ! ok then
    { s with nv := { s.nv with image := [] }, dev := (d.recovRefuse 9).onCol (fun y => { y with lst := .refused }) }
  else
    let nv : Nv :=
      if x.lkind = 1 then { s.nv with image := x.lbuf }
      else if x.lkind = 2 then
        { s.nv with owners := s.nv.owners ++ [sha256 ((x.lbuf.drop 16).take 388)], moduli := s.nv.moduli ++ [(x.lbuf.drop 16).take 384] }
      else { s.nv with ownerFinal := true }
    { s with nv := nv, dev := ((d.raise 0xD 5 x.lkind).onCol (fun y => { y with bootFails := 0 })).colReset 4 }

/-- LOADER_COMMIT. -/
def execLoaderCommit (ok : Bool) (s : State) : Host.Outcome State Fault Refusal := .next (s.loaderCommit ok)

end Sys2Proof.Machine
end

