-- ==== Sys2Proof/Machine/View.lean ====
section
/-! DEFINITION. What a read of a register returns (R12, R59, R494). A register that holds what was written or counted is read
from `regs`; one that reports a state is computed here, block by block. -/

namespace Sys2Proof.Machine

/-! ## Codes of states -/

/-- Codes of GLB_DIE_STAT, GLB_STACK_STAT and GLB_BRIDGE_STAT (R40). -/
def partCode : PartSt → Nat
  | .off => 0
  | .init => 1
  | .up => 2
  | .fault => 3

/-- COL_STAT.STATE and GLB_DIE_STAT.COL (R426). -/
def colCode : ColSt → Nat
  | .reset => 0
  | .rom => 1
  | .fwStart => 2
  | .ready => 3
  | .recovery => 4
  | .fault => 5
def colPart : ColSt → PartSt
  | .reset => .off
  | .rom => .init
  | .fwStart => .init
  | .ready => .up
  | .recovery => .init
  | .fault => .fault

/-- LANE_STAT.STATE (R98). -/
def laneCode : LaneSt → Nat
  | .off => 0
  | .adapt => 1
  | .hunt => 2
  | .tune => 3
  | .ready => 4
  | .service => 5
  | .ei => 6
  | .wake => 7
  | .test => 8
  | .fault => 9

/-- LINK_STAT.STATE (R113). -/
def portCode : PortSt → Nat
  | .down => 0
  | .exchange => 1
  | .check => 2
  | .up => 3
  | .quar => 4
  | .disabled => 5

/-- CAT_LS_g_0.STATE (R273). -/
def launchCode : LaunchSt → Nat
  | .idle => 0
  | .armed => 1
  | .run => 2
  | .aborting => 3
  | .done => 4
  | .aborted => 5

/-- FAN_RS_r_0.STATE (R301). -/
def roundCode : RoundSt → Nat
  | .idle => 0
  | .armed => 1
  | .open => 2
  | .closed => 3
  | .aborting => 4
  | .done => 5
  | .aborted => 6

/-- PLAT_STAT.LOAD (R372) and PLAN (R390). -/
def loadCode : LoadSt → Nat
  | .empty => 0
  | .receiving => 1
  | .verifying => 2
  | .staged => 3
  | .refused => 4
def planCode : Plan → Nat
  | .none => 0
  | .full => 1
  | .degraded => 2
  | .belowMin => 3

/-- OBVO_STAT port states (R397). -/
def obvoCode : ObvoSt → Nat
  | .down => 0
  | .train => 1
  | .up => 2

/-- WIT_CAP_c_STAT and WIT_PAT_s_STAT states. -/
def capCode : CapSt → Nat
  | .idle => 0
  | .armed => 1
  | .run => 2
  | .full => 3
  | .done => 4
  | .stopped => 5
def patCode : PatSt → Nat
  | .idle => 0
  | .armed => 1
  | .run => 2
  | .paused => 3
  | .done => 4
  | .stopped => 5
  | .error => 6

/-- State of an activation: 0 IDLE, 1 ARMED, 2 DRAINING. -/
def actCode (a : Option Act) : Nat :=
  match a with
  | none => 0
  | some x => if x.draining then 2 else 1

/-- Two-bit codes packed from bit 0. -/
def pack2 (l : List Nat) : Nat := l.foldr (fun c n => c + 4 * n) 0

def word (n : Nat) : Word := BitVec.ofNat 32 n

/-! ## GLB and FRM -/

/-- The locate state shown (R489): 1 on, 2 blink, 0 off. -/
def Dev.locateShown (d : Dev) : Nat :=
  let t := d.fld (ra 0 0x74) 8 2
  let h := d.fld (ra 0 0x74) 0 2
  if t = 1 ∨ h = 1 then 1 else if t = 2 ∨ h = 2 then 2 else 0

def Dev.dieStat (d : Dev) : Word :=
  word (pack2 (d.dies.map partCode) + 2 ^ 24 * partCode (colPart d.col.st))
def Dev.stackStat (d : Dev) : Word := word (pack2 (d.hbms.map partCode))
def Dev.bridgeStat (d : Dev) : Word := word (pack2 (d.bridges.map partCode))

def Dev.viewGlb (d : Dev) (o : Nat) : Word :=
  if o = 0 then 0x1A579464
  else if o = 4 then Config.stepping.setWidth 32
  else if o = 8 then Config.serial.setWidth 32
  else if o = 0xC then word (Config.serial.toNat / 2 ^ 32)
  else if o = 0x10 then d.col.fwVer
  else if o = 0x14 then Config.lproto.setWidth 32
  else if o = 0x18 then d.straps
  else if o = 0x20 then d.dieStat
  else if o = 0x24 then d.stackStat
  else if o = 0x28 then d.bridgeStat
  else if o = 0x74 then Machine.setFld (d.rd (ra 0 o)) 16 2 d.locateShown
  else d.rd (ra 0 o)

/-- FRM_STAT: ARMED copies FRM_CTL.ARM. -/
def Dev.frmStat (d : Dev) : Word := at32 2 1 (b2n (d.bit (ra 1 0xC) 0)) ||| at32 0 2 (frmCode d.frm.st)

def Dev.viewFrm (d : Dev) (o : Nat) : Word :=
  if o = 0 then word d.fno
  else if o = 4 then word (d.fno / 2 ^ 32)
  else if o = 8 then d.frmStat
  else d.rd (ra 1 o)

/-! ## LANE, LINK and PKT -/

def Dev.viewLane (d : Dev) (o : Nat) : Word :=
  let l := o / 0x1000
  let x := d.lane l
  let held := d.rd (ra 2 o)
  let tap (i : Nat) : Nat := uInt 8 (x.taps.getD i 0)
  match o % 0x1000 with
  | 0x04 =>
    let (p, k) := match d.portOf l with | some p => (p, l - d.lane0 p) | none => (0xFF, 0)
    at32 16 8 p ||| at32 12 4 k ||| at32 9 1 (b2n x.rxEi) ||| at32 8 1 (b2n x.sig) ||| at32 0 4 (laneCode x.st)
  | 0x08 => at32 16 8 x.eqiLow.toNat ||| at32 0 8 x.eqi.toNat
  | 0x0C => at32 24 8 (tap 0) ||| at32 16 8 (tap 1) ||| at32 8 8 (tap 2) ||| at32 0 8 (tap 3)
  | 0x10 => if x.st = .off then 0
    else at32 16 16 (Config.ppmEst l d.now).toNat ||| at32 0 7 (cdiv (x.levelNow (d.cycles 0 + d.frm.len)) 8192)
  | 0x50 => held ||| at32 9 1 (b2n x.chkLock)
  | _ => held

/-- The established identity's registers (R115). -/
def pidWord (i : Ident) (k : Nat) : Word :=
  match k with
  | 0 => i.serial.setWidth 32
  | 1 => word (i.serial.toNat / 2 ^ 32)
  | 2 => at32 16 16 i.vendor.toNat ||| at32 0 16 i.part.toNat
  | 3 => at32 20 12 i.coord.toNat ||| at32 16 2 i.trayPos.toNat ||| at32 0 16 i.lproto.toNat
  | 4 => i.fwVer
  | _ => at32 29 3 i.dir.toNat ||| at32 20 9 i.roleLane0.toNat ||| at32 11 9 i.lane0.toNat ||| at32 10 1 (b2n i.coordV)

def Dev.viewLink (d : Dev) (o : Nat) : Word :=
  let p := pOf o
  let x := d.port p
  let q := pOff o
  if q = 4 then
    at32 18 1 (b2n x.fwDiff) ||| at32 17 1 (b2n (d.pSwitch p)) ||| at32 16 1 (b2n (d.pStomp p)) ||| at32 8 7 (d.role p) |||
      at32 7 1 (b2n x.role.isSome) ||| at32 3 4 x.cause ||| at32 0 3 (portCode x.st)
  else if q = 0x10 then at32 0 10 (x.delay.getD 0)
  else if q = 0x18 then at32 16 16 x.rxXoff.toNat ||| at32 0 16 x.txXoff.toNat
  else if q = 0x1C then (if x.delay.isSome then at32 16 10 (d.xonAt p) ||| at32 0 10 (d.xoffAt p) else 0)
  else if 0x30 ≤ q ∧ q < 0x48 then (match x.ident with | some i => pidWord i ((q - 0x30) / 4) | none => 0)
  else d.rd (ra 3 o)

def Dev.viewPkt (d : Dev) (o : Nat) : Word :=
  if o = 8 then word (d.pkts.filter (fun k => k.st == .ordHeld)).length else d.rd (ra 4 o)

/-! ## CORE -/

/-- Occupancy of a pool, quarantined buffers included (R174). -/
def Dev.poolUsed (d : Dev) (k j : Nat) : Nat :=
  match j with
  | 0 => d.poolCells k 0
  | 1 => d.poolCells k 1
  | 2 => d.poolCells k 2
  | 3 => d.poolCells k 3
  | 4 => (d.trks.filter (fun e => d.owner (e.1 / 65536) == k)).length
  | _ =>
    let size := d.fld (ra 5 (0x4000A0 + 0x1000 * k)) 0 19
    let tail := d.fld (ra 5 (0x400F18 + 0x1000 * k)) 0 10
    let head := d.fld (ra 5 (0x400F14 + 0x1000 * k)) 0 10
    if size = 0 then 0 else (tail + size - head % size) % size

/-- Remaining CORR budgets at an output. -/
def Dev.corrBud (d : Dev) (p : Nat) : Nat × Nat :=
  let l := (d.corridors.filter (fun i => (d.ct i).outP == p)).map (fun i => mapGet (0, 0) d.corr i)
  ((l.map (·.1)).sum, (l.map (·.2)).sum)

/-- The per-port window of CORE. -/
def Dev.viewCorePort (d : Dev) (p q : Nat) : Word :=
  let held := d.rd (rp 5 q p)
  let c := (q - 0x100) / 0x10
  if 0x100 ≤ q ∧ q < 0x170 then
    match q % 0x10 with
    | 4 => if d.pvalid p && d.carried p c then at32 16 3 (d.vcs p c) ||| at32 0 16 (d.capOf p c) else 0
    | 8 => held ||| at32 0 16 (d.occ p c)
    | 0xC => let b := if c = 1 then d.corrBud p else d.budOf p c
             at32 16 8 b.2 ||| at32 0 8 b.1
    | _ => held
  else if 0x200 ≤ q ∧ q < 0x220 then word (d.qUsed p (if q < 0x210 then 5 else 6) ((q / 4) % 4))
  else if q = 0x304 then (if d.pvalid p then held ||| at32 0 8 (d.trainMax p) else held)
  else held

def Dev.viewCore (d : Dev) (o : Nat) : Word :=
  let held := d.rd (ra 5 o)
  if o < 0x200000 then (if 0x100 ≤ pOff o then d.viewCorePort (pOf o) (pOff o) else held)
  else if 0x400000 ≤ o ∧ o < 0x404000 then
    let k := (o - 0x400000) / 0x1000
    let q := o % 0x1000
    let j := q / 0x20
    if q < 0xC0 then
      match q % 0x20 with
      | 0 => if d.plat.active then word (d.poolSize k j) else 0
      | 4 => at32 30 2 (d.stage k j) ||| at32 0 19 (d.poolUsed k j)
      | _ => held
    else held
  else if 0x600000 ≤ o ∧ o < 0x700000 then
    let k := (o - 0x600000) / 0x40000
    let r := ((d.samples.find? (fun e => e.1 == k * 1024 + o % 0x40000 / 0x100)).map (·.2)).getD []
    word (leAt r (o % 0x100) 4)
  else held

/-! ## ROUTE, CAT and FAN -/

def Dev.viewRoute (d : Dev) (o : Nat) : Word :=
  let held := d.rd (ra 6 o)
  if o = 0 then at32 31 1 (b2n d.coordV) ||| at32 0 12 d.coord.toNat
  else if o = 0x4C then
    at32 30 2 (actCode d.ract) ||| at32 16 2 d.ovl |||
      (match d.ract with
        | some a => at32 29 1 (b2n a.byBypass) ||| at32 24 2 (a.ovl.getD 0) ||| at32 0 16 a.t
        | none => 0)
  else if o < 0x200000 ∧ pOff o = 0x100 then held ||| at32 8 1 (b2n (d.portCorr (pOf o)))
  else held

/-- Marks of the selected chunk (R276, R277). -/
def Dev.sbChunk (d : Dev) : Option Chunk :=
  (d.chunk (d.fld (ra 7 0x60) 0 12) (d.rd (ra 7 0x64)).toNat).filter (fun c => ! c.emitting)

def Dev.viewSb (d : Dev) (o : Nat) : Word :=
  match d.sbChunk with
  | none => 0
  | some c =>
    let i := d.fld (ra 7 0x60) 24 7
    let who := if d.bit (ra 7 0x60) 31 then 128 + i else i
    let has (w : Nat) : Bool := c.marks.any (fun m => m.1 == w)
    let bits (l : List Nat) : Nat := (l.map (fun i => 2 ^ i)).sum
    if o = 0x68 then
      at32 31 1 1 ||| (match c.marks.find? (fun m => m.1 == who) with
        | some m => at32 30 1 1 ||| at32 0 16 m.2.toNat
        | none => 0)
    else if o = 0x6C then word (bits ((List.range 6).filter (fun g => has (129 + g))))
    else word (bits ((List.range 32).filter (fun j => has (8 * (o - 0x70) + j))))

def Dev.viewLs (d : Dev) (g w : Nat) : Word :=
  let l := d.launch g
  match w with
  | 0 => at32 16 16 l.d.launch.toNat ||| at32 0 3 (launchCode l.st)
  | 4 => word l.emitted
  | 8 => word l.copies
  | _ =>
    let root := (d.gt g).outDir == 0
    let f := if l.st = .aborting ∨ l.st = .aborted then ((l.prop.map (·.1)).getD 0) else if l.st = .run && root then l.deadline else 0
    at32 16 16 (if root then l.holdUsed else 0) ||| at32 0 16 f

def Dev.viewCat (d : Dev) (o : Nat) : Word :=
  let held := d.rd (ra 7 o)
  if 0x68 ≤ o ∧ o < 0x80 then d.viewSb o
  else if 0x400000 ≤ o ∧ o < 0x404000 then
    let k := (o - 0x400000) / 0x1000
    let n (sp : Bool) : Nat := (d.chunks.filter (fun c => chunkDie c.g c.c == k && c.spill == sp)).length
    match o % 0x1000 with
    | 0 => if d.plat.active then word (d.freeSlots k) else 0
    | 4 => if d.plat.active then word (d.freeRecs k) else 0
    | 8 => at32 16 16 (n true) ||| at32 0 16 (n false)
    | _ => held
  else if 0xC00000 ≤ o ∧ o < 0xC10000 then d.viewLs ((o - 0xC00000) / 0x10) (o % 0x10)
  else held

def Dev.viewFan (d : Dev) (o : Nat) : Word :=
  let held := d.rd (ra 8 o)
  if 0x400000 ≤ o ∧ o < 0x400200 then
    let x := d.rnd ((o - 0x400000) / 0x20)
    match o % 0x20 with
    | 0 => at32 16 16 x.d.round ||| at32 0 3 (roundCode x.st)
    | 4 => word x.dispatched
    | 8 => word x.combined
    | 0xC => word x.dropped
    | 0x10 => word x.redirected
    | 0x14 => word x.deferred
    | 0x18 => if x.st = .aborting ∨ x.st = .aborted then at32 0 16 ((x.prop.map (·.1)).getD 0) else 0
    | _ => 0
  else if 0x410000 ≤ o ∧ o < 0x414000 then
    let k := (o - 0x410000) / 0x1000
    match o % 0x1000 with
    | 0 => word ((d.rounds.map (fun r => (r.2.combos.filter (fun c => d.owner c.port == k)).length)).sum)
    | 4 => word ((d.rounds.map (fun r => (r.2.copies.filter (fun c => c.st != .wait && d.owner (d.xport c.expert) == k)).length)).sum)
    | _ => held
  else if 0xC00000 ≤ o ∧ o < 0xC10000 then
    let e := (o - 0xC00000) / 4
    let n := (d.rounds.map (fun r => (r.2.copies.filter (fun c => c.st == .deferred && c.expert == e)).length)).sum
    at32 16 16 n ||| at32 0 16 (d.xcnt e)
  else held

/-! ## BAS and PLAT -/

def State.viewBas (s : State) (o : Nat) : Word :=
  let d := s.dev
  let held := d.rd (ra 9 o)
  if o = 0x60 then word d.oxbow.length
  else if 0x100 ≤ o ∧ o < 0x200 ∧ o % 0x20 = 0xC then Machine.setFld held 16 16 (spareLeft s.nv ((o - 0x100) / 0x20))
  else if 0x400000 ≤ o ∧ o < 0x404000 ∧ o % 0x1000 = 0 then
    let k := (o - 0x400000) / 0x1000
    at32 16 10 (d.corrFree k) ||| at32 0 11 (d.plainFree k + d.corrFree k)
  else held

def State.platStat (s : State) : Word :=
  let x := s.dev.plat
  let staged := x.load == .staged
  at32 30 2 (planCode x.plan) ||| at32 29 1 (b2n (staged && x.active && cKind s.nv.stage == 0 && structural s.nv.active s.nv.stage)) |||
    at32 28 1 (b2n x.active) ||| at32 27 1 (b2n s.nv.stageTrail) ||| at32 26 1 (b2n (staged && cKind s.nv.stage == 1)) |||
    at32 24 2 (actCode x.act) ||| at32 0 3 (loadCode x.load)

def State.viewPlat (s : State) (o : Nat) : Word :=
  let x := s.dev.plat
  let stageE := if x.load = .staged then cEpoch s.nv.stage else 0
  if o = 0 then s.platStat
  else if o = 0x10 then word x.epoch
  else if o = 0x14 then word (x.epoch / 2 ^ 32)
  else if o = 0x18 then word stageE
  else if o = 0x1C then word (stageE / 2 ^ 32)
  else if o = 0x20 then word s.nv.floor
  else if o = 0x24 then word (s.nv.floor / 2 ^ 32)
  else if o = 0x28 then word x.fabric
  else if o = 0x4C then x.bound
  else if o = 0x54 then word (2 ^ 24 - s.nv.bootUsed)
  else s.dev.rd (ra 0xA o)

/-! ## OBVO, TRAIL, COL and NAR -/

def Dev.viewObvo (d : Dev) (o : Nat) : Word :=
  let x := d.obvo
  if o = 0 then
    at32 21 3 x.posB.toNat ||| at32 18 3 x.posA.toNat ||| at32 17 1 (b2n x.validB) ||| at32 16 1 (b2n x.validA) |||
      at32 8 2 x.evSide ||| at32 2 2 (obvoCode x.outSt) ||| at32 0 2 (obvoCode x.inSt)
  else if o = 0xC then x.evSeq
  else if o = 0x14 then word x.events.length
  else d.rd (ra 0xB o)

def Dev.viewTrail (d : Dev) (o : Nat) : Word :=
  if o = 0 then word (0x68 + d.trayPos)
  else if o = 4 then d.obvo.eid.setWidth 32
  else if o = 0xC then at32 0 1 (b2n d.obvo.alert)
  else d.rd (ra 0xC o)

/-- NAR_PWR_CEIL (R437). -/
def Dev.pwrCeil (d : Dev) : Word := at32 16 16 Config.fuseW.toNat ||| at32 14 2 d.pwr.strap.toNat ||| at32 0 12 d.ceilW

/-- Number of the active owner slot, 7 for none. -/
def Nv.activeSlot (n : Nv) : Nat := if n.owners = [] then 7 else n.owners.length - 1

/-- The bytes of measurement i (R433); those of the boot are 0 until the ROM has set them. -/
def State.measure (s : State) (i : Nat) : List Byte :=
  let d := s.dev
  let x := d.col
  let booted := x.imgDigest != []
  match i with
  | 1 => if booted then Config.romHash else []
  | 2 => x.imgDigest
  | 3 => if booted then leBytes 4 x.fwVer.toNat ++ leBytes 1 x.imgSvn ++ leBytes 1 s.nv.svn ++ zeros 2 else []
  | 4 => x.m4
  | 5 => match s.nv.owner with | some o => o.1 | none => zeros 32
  | 6 =>
    leBytes 1 (1 + 2 * b2n x.fuseLock + 4 * b2n x.cfgLock + 8 * b2n s.nv.ownerFinal) ++ leBytes 1 s.nv.activeSlot ++ zeros 2 ++
      leBytes 4 d.pwrCeil.toNat ++ (List.range 8).flatMap (fun k => leBytes 4 (d.rd (ra 0xE (0x100 + 4 * k))).toNat) ++
      leBytes 4 (d.rd (ra 0xE 0xC)).toNat
  | _ => []

def State.viewCol (s : State) (o : Nat) : Word :=
  let x := s.dev.col
  if o = 0 then
    at32 24 4 x.rcause ||| at32 16 8 x.imgReason ||| at32 8 2 x.bootFails ||| at32 3 1 (b2n x.certValid) ||| at32 0 3 (colCode x.st)
  else if o = 0x10 then s.dev.recovStat
  else if o = 0x14 then
    at32 8 1 (b2n s.nv.ownerFinal) ||| at32 4 4 (2 ^ s.nv.owners.length - 1) ||| at32 0 3 s.nv.activeSlot
  else if o = 0x18 then at32 8 8 x.imgSvn ||| at32 0 8 s.nv.svn
  else if o = 0x1C then at32 0 22 x.lbuf.length
  else if 0x140 ≤ o ∧ o < 0x2C0 then
    (if o % 0x40 < 0x2C then word (leAt (s.measure ((o - 0x100) / 0x40)) (o % 0x40) 4) else 0)
  else s.dev.rd (ra 0xD o)

def State.viewNar (s : State) (o : Nat) : Word :=
  let d := s.dev
  let x := d.col
  if o = 0 then at32 2 1 1 ||| at32 1 1 (b2n x.fuseLock) ||| at32 0 1 (b2n x.cfgLock)
  else if o = 8 then d.pwrCeil
  else if o = 0x18 then x.nonce.setWidth 32
  else if o = 0x1C then word (x.nonce.toNat / 2 ^ 32)
  else if o = 0x24 then
    at32 30 2 (b2n x.checking) ||| at32 16 8 x.tokReason ||| at32 8 7 x.tokPort ||| at32 0 4 x.tokCause
  else if 0x40 ≤ o ∧ o < 0x50 then
    word (((List.range 32).filter (fun i => x.tokens.any (fun t => t.1 == 8 * (o - 0x40) + i))).map (fun i => 2 ^ i)).sum
  else if 0x60 ≤ o ∧ o < 0x80 then word (leAt d.plat.digest (o - 0x60) 4)
  else d.rd (ra 0xE o)

/-! ## PWR and WIT -/

def Dev.pwrStat (d : Dev) : Word :=
  let x := d.pwr
  at32 31 1 (b2n x.trip) ||| at32 30 1 (b2n x.brakeLow) ||| at32 29 1 (b2n x.holdTrail) ||| at32 28 1 (b2n x.holdHost) |||
    at32 27 1 (b2n x.viol) ||| at32 16 9 x.scale ||| at32 6 2 x.stageTherm ||| at32 4 2 x.stageBrake ||| at32 0 2 d.powerStage

def Dev.viewPwr (d : Dev) (o : Nat) : Word :=
  let x := d.pwr
  if o = 0 then d.pwrStat
  else if o = 4 then at32 16 16 (x.pAllow / 800) ||| at32 0 16 x.pEst
  else if o = 8 then at32 0 16 x.lEff
  else if o = 0x14 then at32 1 1 (b2n x.holdTrail) ||| at32 0 1 (b2n x.holdHost)
  else if o = 0x24 then at32 24 4 x.blind.length ||| at32 16 8 x.tjDie ||| at32 0 16 (uInt 16 x.tj)
  else if o = 0x28 then
    at32 5 1 (b2n x.wetB) ||| at32 4 1 (b2n x.wetA) ||| at32 2 2 (leakCode x.leakB) ||| at32 0 2 (leakCode x.leakA)
  else if 0x40 ≤ o ∧ o < 0x50 then
    let k := (o - 0x40) / 4
    at32 31 1 (b2n (x.avsFault.getD k false)) ||| (if x.avsTarget.getD k 0 = 0 then 0 else Config.avsMeas k d.now &&& 0x7FFFFC00) |||
      at32 0 10 (x.avsTarget.getD k 0)
  else if 0x100 ≤ o ∧ o < 0x240 then
    let i := (o - 0x100) / 4
    at32 16 4 (x.dfault.getD i 0) ||| at32 0 16 (uInt 16 (x.temps.getD i 0))
  else d.rd (ra 0xF o)

def Dev.viewWit (d : Dev) (o : Nat) : Word :=
  let held := d.rd (ra 0x11 o)
  if 0x400000 ≤ o ∧ o < 0x400200 ∧ o % 0x40 = 8 then at32 0 3 (capCode (d.cap_ ((o - 0x400000) / 0x40)).st)
  else if 0x401000 ≤ o ∧ o < 0x401200 then
    let x := d.pat_ ((o - 0x401000) / 0x40)
    match o % 0x40 with
    | 8 => at32 8 8 x.reason ||| at32 0 3 (patCode x.st)
    | 0xC => word (x.off / 64)
    | _ => held
  else held

/-! ## A read -/

/-- What a register holds now, without any latch. -/
def State.view (s : State) (a : Nat) : Word :=
  let o := off a
  match blk a with
  | 0 => s.dev.viewGlb o
  | 1 => s.dev.viewFrm o
  | 2 => if o < 0x200000 then s.dev.viewLane o else 0
  | 3 => if o < 0x200000 then s.dev.viewLink o else 0
  | 4 => s.dev.viewPkt o
  | 5 => s.dev.viewCore o
  | 6 => s.dev.viewRoute o
  | 7 => s.dev.viewCat o
  | 8 => s.dev.viewFan o
  | 9 => s.viewBas o
  | 0xA => s.viewPlat o
  | 0xB => s.dev.viewObvo o
  | 0xC => s.dev.viewTrail o
  | 0xD => s.viewCol o
  | 0xE => s.viewNar o
  | 0xF => s.dev.viewPwr o
  | 0x10 => s.dev.rd a
  | 0x11 => s.dev.viewWit o
  | _ => 0

/-- NAME_LO registers of pairs whose fields hardware updates (R494). -/
def isPairLo (a : Nat) : Bool :=
  let o := off a
  let q := pOff o
  let per := decide (o < 0x200000)
  match blk a with
  | 0 => decide (0x100 ≤ o ∧ o < 0x178) && o % 8 == 0
  | 2 => per && [0x20, 0x28, 0x30, 0x38, 0x40, 0x60, 0x68].contains (o % 0x1000)
  | 3 => per && [0x30, 0x50, 0x58, 0x60, 0x68].contains q
  | 4 => o == 0x10 || o == 0x20 || (per && decide (0x208 ≤ q ∧ q < 0x270) && q % 8 == 0) ||
    (decide (0x800000 ≤ o ∧ o < 0x880000) && o % 8 == 0)
  | 5 => decide (0x400000 ≤ o ∧ o < 0x404000) && o % 0x1000 == 0xF08
  | 6 => [0xA0, 0xA8, 0xB0, 0xB8, 0xC0].contains o || (per && q == 0x108)
  | 7 => o == 0x90 || (per && (q == 0x108 || q == 0x110)) ||
    (decide (0x400000 ≤ o ∧ o < 0x404000) && [0x10, 0x18, 0x20, 0x28].contains (o % 0x1000))
  | 8 => o == 0x70 || (per && q == 0x100) || (decide (0x410000 ≤ o ∧ o < 0x414000) && [8, 0x10].contains (o % 0x1000))
  | 9 => o == 0x40 || (decide (0x100 ≤ o ∧ o < 0x200) && o % 0x20 == 0)
  | 0xA => o == 0x10 || o == 0x18 || o == 0x20
  | 0xB => o == 0x40
  | 0xE => o == 0x18
  | 0x10 =>
    let w := q % 0x2000
    o == 4 || o == 0xC || (per && decide (0x100 ≤ w) && w % 8 == 0 &&
      (decide (w < 0x400) || w == 0x480 || w == 0x488 || decide (0x800 ≤ w ∧ w < 0x1000)))
  | 0x11 => (per && q == 0x108) || (decide (0x400000 ≤ o ∧ o < 0x400200) && o % 0x40 == 0x20) ||
    (decide (0x401000 ≤ o ∧ o < 0x401200) && o % 0x40 == 0x18)
  | _ => false

/-- FRM_NO_HI as latched for a source (R54). -/
def Frm.lat (f : Frm) (k : Nat) : BitVec 16 := if k = 0 then f.latTrail else if k = 1 then f.latObvo else f.latCol
def Frm.setLat (f : Frm) (k : Nat) (v : BitVec 16) : Frm :=
  if k = 0 then { f with latTrail := v } else if k = 1 then { f with latObvo := v } else { f with latCol := v }

/-- A read by a source: its value, and the latches of R54 and R494 as it leaves them. -/
def State.read (s : State) (src : Src) (a : Nat) : Word × State :=
  let k := srcKind src
  let d := s.dev
  if a = ra 1 0 then
    (s.view a, { s with dev := { d with frm := d.frm.setLat k (BitVec.ofNat 16 (d.fno / 2 ^ 32)) } })
  else if a = ra 1 4 then ((d.frm.lat k).setWidth 32, s)
  else if isPairLo a then (s.view a, { s with dev := { d with latches := mapSet (0, 0) d.latches k (a + 4, s.view (a + 4)) } })
  else if 4 ≤ a ∧ isPairLo (a - 4) then
    let l := mapGet (0, 0) d.latches k
    (if l.1 = a then l.2 else s.view a, { s with dev := { d with latches := mapErase d.latches k } })
  else (s.view a, s)

/-- Reads of consecutive registers, in ascending order (R404). -/
def State.readMany (s : State) (src : Src) (a : Nat) : Nat → List Byte × State
  | 0 => ([], s)
  | n + 1 =>
    let (v, t) := s.read src a
    let (r, u) := t.readMany src (a + 4) n
    (leBytes 4 v.toNat ++ r, u)

end Sys2Proof.Machine
end

