-- ==== Sys2Proof/Machine/Write.lean ====
section
/-! DEFINITION. A write of a register by a source (R12, R13, R420, R441): what each address does with it. The same operation
serves a write command, an Obvo or trail command's control action, and a Col write. -/

namespace Sys2Proof.Machine

/-- Registers with a per-port window in which `f` has the window's offset `q` (R9). -/
def atPort (o q : Nat) : Bool := decide (o < 0x200000) && pOff o == q

/-- The event a W1C bit reports happened in this frame too, so the bit stays set (R13). -/
def Dev.keepsW1c (d : Dev) (a : Nat) : Bool :=
  if a = ra 9 8 then d.raised.any (fun e => e.1 == ra 9 0x30 && Machine.fld e.2 16 8 == 0xD)
  else d.raised.any (fun e => e.1 + 4 == a)

/-- A write of a register without behaviour of its own (R12). -/
def Dev.plainWrite (d : Dev) (a : Nat) (v : Word) : Dev :=
  let old := d.rd a
  let clr := if d.keepsW1c a then 0 else v &&& regW1c a
  d.wr a (((old &&& ~~~ (regRw a)) ||| (v &&& regRw a)) &&& ~~~ clr)

/-- Who may write GLB_LED_w and GLB_LED_MODE (R488): Col while HOST is 0b, the trail port and the Obvo link while it is 1b;
HOST itself never Col. -/
def Dev.ledOk (d : Dev) (src : Src) (o : Nat) : Bool :=
  if o = 0x70 then ! isCol src else isCol src != d.bit (ra 0 0x70) 0

def State.writeGlb (s : State) (src : Src) (o : Nat) (v : Word) : State :=
  if o = 0x40 then s.rstCtl src v
  else if 0x50 ≤ o ∧ o < 0x60 then s.onDev (fun d => d.prstWrite ((o - 0x50) / 4) v)
  else if 0x60 ≤ o ∧ o < 0x74 then (if s.dev.ledOk src o then s.onDev (fun d => d.plainWrite (ra 0 o) v) else s)
  else if o = 0x74 then s.onDev (fun d => d.locateWrite src v)
  else s.onDev (fun d => d.plainWrite (ra 0 o) v)

def Dev.writeLane (d : Dev) (o : Nat) (v : Word) : Dev :=
  let l := o / 0x1000
  match o % 0x1000 with
  | 0 => d.laneCtlWrite l v
  | 0x50 => d.patCtlWrite l v
  | 0x70 => d.injCtlWrite l v
  | _ => d.plainWrite (ra 2 o) v

def Dev.writeLink (d : Dev) (o : Nat) (v : Word) : Dev :=
  let p := pOf o
  if atPort o 0 then d.linkCtlWrite p v else if atPort o 0x14 then d.qclr p v else d.plainWrite (ra 3 o) v

def Dev.writeCore (d : Dev) (o : Nat) (v : Word) : Dev :=
  if o = 0 then (if Machine.bit v 0 then d.coreClr else d)
  else if 0x400000 ≤ o ∧ o < 0x404000 ∧ o % 0x1000 = 0xF14 then d.sheadWrite ((o - 0x400000) / 0x1000) v
  else d.plainWrite (ra 5 o) v

def State.writePlat (s : State) (src : Src) (o : Nat) (v : Word) : State :=
  if o = 4 then s.loadCtl src v
  else if o = 0x40 then s.platActCtl v
  else s.onDev (fun d => d.plainWrite (ra 0xA o) v)

def State.writeCol (s : State) (src : Src) (o : Nat) (v : Word) : State :=
  if o = 4 then s.colCtl src v
  else if o = 8 then s.recovCtl src v
  else s.onDev (fun d => d.plainWrite (ra 0xD o) v)

def Dev.writeNar (d : Dev) (src : Src) (o : Nat) (v : Word) : Dev :=
  if o = 4 then d.narCtlWrite src v
  else if o = 0x10 then d.wdogKick src v
  else if o = 0x20 then d.tokenCtl v
  else d.plainWrite (ra 0xE o) v

def State.writePwr (s : State) (src : Src) (o : Nat) (v : Word) : State :=
  if o = 0xC ∨ o = 0x10 then s.onDev (fun d => d.capFrom src o v)
  else if o = 0x14 then s.onDev (fun d => d.holdWrite src v)
  else if o = 0x20 then s.pwrCtl src v
  else s.onDev (fun d => d.plainWrite (ra 0xF o) v)

def Dev.writeCnt (d : Dev) (src : Src) (o : Nat) (v : Word) : Dev :=
  if o = 0 then d.cntCtlWrite v
  else if isView (ra 0x10 o) then d.viewWrite src (ra 0x10 o) v
  else d.plainWrite (ra 0x10 o) v

def Dev.writeWit (d : Dev) (o : Nat) (v : Word) : Dev :=
  if atPort o 0x110 then d.witInjWrite (pOf o) v
  else if 0x400000 ≤ o ∧ o < 0x400200 ∧ o % 0x40 = 0 then d.capCtl ((o - 0x400000) / 0x40) v
  else if 0x401000 ≤ o ∧ o < 0x401200 ∧ o % 0x40 = 0 then d.patWrite ((o - 0x401000) / 0x40) v
  else d.plainWrite (ra 0x11 o) v

/-- What a write that reaches its block does. -/
def State.writeAt (s : State) (src : Src) (a : Nat) (v : Word) : State :=
  let o := off a
  match blk a with
  | 0 => s.writeGlb src o v
  | 2 => if o < 0x200000 then s.onDev (fun d => d.writeLane o v) else s
  | 3 => if o < 0x200000 then s.onDev (fun d => d.writeLink o v) else s
  | 5 => s.onDev (fun d => d.writeCore o v)
  | 6 =>
    if o = 0 then s.onDev (fun d => d.coordWrite src v)
    else if o = 0x40 then s.routeActCtl v
    else s.onDev (fun d => d.plainWrite a v)
  | 7 => if o = 0x58 then s.onDev (fun d => d.writeLaunchCtl src v) else s.onDev (fun d => d.plainWrite a v)
  | 8 => if o = 0x60 then s.onDev (fun d => d.writeRoundCtl src v) else s.onDev (fun d => d.plainWrite a v)
  | 0xA => s.writePlat src o v
  | 0xD => s.writeCol src o v
  | 0xE => s.onDev (fun d => d.writeNar src o v)
  | 0xF => s.writePwr src o v
  | 0x10 => s.onDev (fun d => d.writeCnt src o v)
  | 0x11 => s.onDev (fun d => d.writeWit o v)
  | _ => s.onDev (fun d => d.plainWrite a v)

/-- The bits a write of some bits leaves for its register: the RW fields' own where the mask is 0, no command bit there (R399). -/
def State.merged (s : State) (a : Nat) (mask v : Word) : Word :=
  let old : Word := if a = ra 6 0 then s.dev.coord.setWidth 32 else s.dev.rd a &&& regRw a
  (old &&& ~~~ mask) ||| (v &&& mask)

/-- The word of a cap that its source may not write (R420, R462). -/
def capDenial (src : Src) (a : Nat) : Option Word :=
  if (a = ra 0xF 0xC ∧ ! isTrail src) ∨ (a = ra 0xF 0x10 ∧ src ≠ .obvo) then some (condWord 0xF 0xC (srcLevel src)) else none

/-- A write of a register by a source: the condition word that refuses it, if one does, and the state it leaves. -/
def State.regWrite (s : State) (src : Src) (a : Nat) (mask v : Word) : Option Word × State :=
  if 0x12000000 ≤ a ∨ a % 4 ≠ 0 then
    (none, if a < 0x12000000 ∨ isCol src then s
      else s.onDev (fun d => if isTrail src then d.raise 0xC 2 0 else d.raise 0xB 3 0))
  else
    match s.dev.writeRefusal src a with
    | some (b, c, det) => (some (condWord b c det), s.onDev (fun d => d.gate src a id))
    | none =>
      if isRwl a && s.dev.col.cfgLock then
        let det := blk a * 256 + off a / 4 % 256
        (some (condWord 0xE 2 det), s.onDev (fun d => d.raise 0xE 2 det))
      else (capDenial src a, s.writeAt src a (s.merged a mask v))

/-- Every bit. -/
def fullMask : Word := 0xFFFFFFFF

/-- REGISTER_WRITE (R12). -/
def execRegisterWrite (src : Src) (addr v : Word) (s : State) : Host.Outcome State Fault Refusal :=
  .next (s.waitFrom src (.registerWrite src addr v))

/-- FRM_ARM (R48): a write of FRM_CTL. -/
def execFrmArm (src : Src) (v : Word) (s : State) : Host.Outcome State Fault Refusal := .next (s.waitFrom src (.frmArm src v))

/-- CAT_LAUNCH_GO (R272): a write of CAT_LAUNCH_CTL. -/
def execCatLaunchGo (src : Src) (v : Word) (s : State) : Host.Outcome State Fault Refusal :=
  .next (s.waitFrom src (.catLaunchGo src v))

/-- CAT_LAUNCH_ABORT (R286): a write of CAT_LAUNCH_CTL. -/
def execCatLaunchAbort (src : Src) (v : Word) (s : State) : Host.Outcome State Fault Refusal :=
  .next (s.waitFrom src (.catLaunchAbort src v))

/-- CAT_FENCE_WRITE (R291): a write of CAT_FENCE_w. -/
def execCatFenceWrite (src : Src) (w : BitVec 2) (v : Word) (s : State) : Host.Outcome State Fault Refusal :=
  .next (s.waitFrom src (.catFenceWrite src w v))

/-- SCOREBOARD_SELECT (R277): CAT_SB_SEL or CAT_SB_CHUNK is written; CAT_SB_STAT, CAT_SB_DIRS and CAT_SB_PORTS read what they
select. -/
def execScoreboardSelect (src : Src) (addr v : Word) (s : State) : Host.Outcome State Fault Refusal :=
  .next (s.waitFrom src (.scoreboardSelect src addr v))

/-- FAN_ROUND_GO (R300): a write of FAN_ROUND_CTL. -/
def execFanRoundGo (src : Src) (v : Word) (s : State) : Host.Outcome State Fault Refusal :=
  .next (s.waitFrom src (.fanRoundGo src v))

/-- FAN_ROUND_ABORT (R325): a write of FAN_ROUND_CTL. -/
def execFanRoundAbort (src : Src) (v : Word) (s : State) : Host.Outcome State Fault Refusal :=
  .next (s.waitFrom src (.fanRoundAbort src v))

/-! ## Reads as commands of their own -/

/-- A read of one register by a source, with the state at the end of its frame; refused on a die not UP (R38, R59). -/
def State.readOut (s : State) (src : Src) (a : Nat) : State :=
  if 0x12000000 ≤ a ∨ a % 4 ≠ 0 then s
  else
    match s.dev.dieRefusal a with
    | some (b, c, det) => s.onDev (fun d => d.raise b c det)
    | none =>
      let (v, t) := s.read src a
      t.onDev (fun d => d.emit (.read src a v))

/-- FRM_NO_LO_READ (R54). -/
def execFrmNoLoRead (src : Src) (s : State) : Host.Outcome State Fault Refusal := .next (s.waitFrom src (.frmNoLoRead src))

/-- PAIR_LO_READ (R494). -/
def execPairLoRead (src : Src) (addr : Word) (s : State) : Host.Outcome State Fault Refusal :=
  .next (s.waitFrom src (.pairLoRead src addr))

/-- PAIR_HI_READ (R494). -/
def execPairHiRead (src : Src) (addr : Word) (s : State) : Host.Outcome State Fault Refusal :=
  .next (s.waitFrom src (.pairHiRead src addr))

end Sys2Proof.Machine
end

