-- ==== Sys2Proof/Machine/Obvo.lean ====
section
/-! DEFINITION. The Obvo link (R395-R409): commands and their tests, answers, beacons, forwarding and the event stream. -/

namespace Sys2Proof.Machine

def Dev.onObvo (d : Dev) (f : Obvo → Obvo) : Dev := { d with obvo := f d.obvo }

/-- State of a port; its other port. -/
def Obvo.side (x : Obvo) : Side → ObvoSt
  | .obIn => x.inSt
  | .obOut => x.outSt
def Obvo.setSide (x : Obvo) (v : ObvoSt) : Side → Obvo
  | .obIn => { x with inSt := v }
  | .obOut => { x with outSt := v }
def otherSide : Side → Side
  | .obIn => .obOut
  | .obOut => .obIn
def sideBit : Side → Nat
  | .obIn => 0
  | .obOut => 1

def Dev.sideUp (d : Dev) (s : Side) : Bool := d.obvo.side s == .up

/-- Send out of a port: what finds its port not UP is discarded and counted in OBVO_FWD_DROP (R400, R416). -/
def Dev.sendSide (d : Dev) (s : Side) (o : Out) : Dev := if d.sideUp s then d.emit o else d.addSat (ra 0xB 0x4C) 1

/-! ## Commands and answers (R403-R406) -/

def isObvo : Path → Bool
  | .obvo _ => true
  | .trail _ _ _ => false

/-- Commands sampled and not yet answered. -/
def Dev.outstanding (d : Dev) : Nat := (d.obvo.cmds.filter (fun c => isObvo c.path)).length

/-- Answer a command: a RESP on each port by which it arrived, once, and kept for its duplicates (R406); or a trail
response (R413). -/
def Dev.reply (d : Dev) (c : Cmd) (r : Resp) : Dev :=
  match c.path with
  | .obvo s =>
    let d1 := d.onObvo (fun x => { x with kept := x.kept.map (fun e => if e.1 = c.tag then (e.1, some r) else e) })
    (s :: (c.dups.filter (· != s)).dedup).foldl (fun (x : Dev) q => x.sendSide q (.resp (.obvo q) c.tag r)) d1
  | .trail e i b => d.emit (.resp (.trail e i b) c.tag r)

/-- Bits [31:0] of the frame number. -/
def Dev.frame32 (d : Dev) : BitVec 32 := BitVec.ofNat 32 d.fno

/-- Answer a command now, with a condition word and data. -/
def Dev.answerNow (d : Dev) (p : Path) (tag : Nat) (cond : Word) (data : List Byte) : Dev :=
  d.reply { id := 0, path := p, tag := tag, count := 0, left := 0 } { cond := cond, frame := d.frame32, data := data }

/-- Refuse a command with a condition, which is raised. -/
def Dev.refuse (d : Dev) (p : Path) (tag b c det : Nat) : Dev := (d.raise b c det).answerNow p tag (condWord b c det) []

/-- A duplicate of a kept command (R406). -/
def Dev.duplicate (d : Dev) (s : Side) (tag : Nat) (r : Option Resp) : Dev :=
  let d1 := d.addSat (ra 0xB 0x48) 1
  match r with
  | some x => d1.sendSide s (.resp (.obvo s) tag x)
  | none =>
    d1.onObvo (fun x => { x with
      cmds := x.cmds.map (fun (c : Cmd) => if isObvo c.path && c.tag == tag then { c with dups := c.dups ++ [s] } else c) })

/-- A command that arrives on a port in UP waits for the boundary that samples it (R403). -/
def State.arrive (s : State) (side : Side) (c : Instr) : State := if s.dev.sideUp side then s.wait c else s

/-- A command sampled: duplicates, tests 1 and 2 of R403 (`shape`), then the rest. -/
def State.obvoTake (s : State) (side : Side) (tag : BitVec 16) (ty : Nat) (shape : Bool) (go : State → State) : State :=
  let d := s.dev
  match d.obvo.kept.find? (fun e => e.1 == tag.toNat) with
  | some e => s.onDev (fun x => x.duplicate side tag.toNat e.2)
  | none =>
    if 32 ≤ d.outstanding then s.onDev (fun x => (x.addSat (ra 0xB 0x50) 1).refuse (.obvo side) tag.toNat 0xB 5 0)
    else if ! shape then s.onDev (fun x => x.refuse (.obvo side) tag.toNat 0xB 4 ty)
    else
      go (s.onDev (fun x => x.onObvo (fun o =>
        { o with kept := o.kept.drop (o.kept.length - 63) ++ [(tag.toNat, none)] })))

/-- Tests 3 and 4 of R403 over `n` registers from `a`; `b` and `c` are the address error of the path. -/
def Dev.regTests (d : Dev) (a n b c : Nat) : Option (Nat × Nat × Nat) :=
  if 0x12000000 ≤ a + 4 * (n - 1) then some (b, c, 0) else (List.range n).findSome? (fun i => d.dieRefusal (a + 4 * i))

/-- A command is sampled, with the actions it gives and whether they are registers of a refusal map (R404). -/
def Dev.addCmd (d : Dev) (p : Path) (tag : Nat) (w : Who) (map : Bool) (ops : List ActOp) : Dev :=
  d.onObvo (fun x => { x with
    cmds := x.cmds ++ [{ id := x.nextCmd, path := p, tag := tag, count := if map then ops.length else 0, left := ops.length }]
    acts := x.acts ++ (List.range ops.length).map (fun i =>
      ({ who := w, op := ops.getD i .recovRun, cmd := x.nextCmd, idx := i } : CtlAct))
    nextCmd := x.nextCmd + 1 })

/-- An action without a command to answer. -/
def Dev.addAct (d : Dev) (w : Who) (op : ActOp) : Dev :=
  d.onObvo (fun x => { x with acts := x.acts ++ [{ who := w, op := op, cmd := x.nextCmd, idx := 0 }], nextCmd := x.nextCmd + 1 })

/-- A read sampled in the frame, for a command or for a source that reads directly. -/
def Dev.addRead (d : Dev) (src : Src) (k : RdKind) (back : Option (Path × Nat)) : Dev :=
  d.onObvo (fun x => { x with
    cmds := match back with
      | some (p, tag) => x.cmds ++ [{ id := x.nextCmd, path := p, tag := tag, count := 0, left := 0 }]
      | none => x.cmds
    reads := x.reads ++ [{ src := src, kind := k, cmd := x.nextCmd }]
    nextCmd := x.nextCmd + 1 })

/-- Writes of consecutive registers, one control action each (R404). -/
def wrOps (a : Nat) (mask : Word) (vals : List Word) : List ActOp :=
  (List.range vals.length).map (fun i => .write (a + 4 * i) mask (vals.getD i 0))

/-- A register command past tests 1 and 2. -/
def State.obvoRegs (s : State) (side : Side) (tag : BitVec 16) (a n : Nat) (f : Dev → Dev) : State :=
  match s.dev.regTests a n 0xB 3 with
  | some (b, c, det) => s.onDev (fun d => d.refuse (.obvo side) tag.toNat b c det)
  | none => s.onDev f

/-- OBVO_RD sampled (R399, R404). -/
def State.takeRd (s : State) (side : Side) (tag : BitVec 16) (a n : Nat) : State :=
  s.obvoTake side tag 1 (decide (1 ≤ n ∧ n ≤ 1024) && a % 4 == 0) (fun t =>
    t.obvoRegs side tag a n (fun d => d.addRead .obvo (.regs a n) (some (.obvo side, tag.toNat))))

/-- OBVO_WR sampled (R399, R404). -/
def State.takeWr (s : State) (side : Side) (tag : BitVec 16) (a : Nat) (vals : List Word) : State :=
  let n := vals.length
  s.obvoTake side tag 2 (decide (1 ≤ n ∧ n ≤ 1024) && a % 4 == 0) (fun t =>
    t.obvoRegs side tag a n (fun d => d.addCmd (.obvo side) tag.toNat (.sw .obvo) true (wrOps a fullMask vals)))

/-- OBVO_WRM sampled (R399). -/
def State.takeWrm (s : State) (side : Side) (tag : BitVec 16) (a : Nat) (mask v : Word) : State :=
  s.obvoTake side tag 3 (a % 4 == 0) (fun t =>
    t.obvoRegs side tag a 1 (fun d => d.addCmd (.obvo side) tag.toNat (.sw .obvo) false [.write a mask v]))

/-- OBVO_RD: the command waits for the boundary (R403). -/
def execObvoRd (side : Side) (tag : BitVec 16) (addr : Word) (count : BitVec 16) (s : State) : Host.Outcome State Fault Refusal :=
  .next (s.arrive side (.obvoRd side tag addr count))

/-- OBVO_WR: the command waits for the boundary (R403). -/
def execObvoWr (side : Side) (tag : BitVec 16) (addr : Word) (vals : List Word) (s : State) : Host.Outcome State Fault Refusal :=
  .next (s.arrive side (.obvoWr side tag addr vals))

/-- OBVO_WRM: the command waits for the boundary (R403). -/
def execObvoWrm (side : Side) (tag : BitVec 16) (addr mask v : Word) (s : State) : Host.Outcome State Fault Refusal :=
  .next (s.arrive side (.obvoWrm side tag addr mask v))

/-! ## DMA (R405) -/

/-- A refused action: what is raised for it, and the condition word that its command carries. -/
def State.opNo (s : State) (b c det : Nat) : (Option Word × List Byte) × State :=
  ((some (condWord b c det), []), s.onDev (fun d => d.raise b c det))

/-- The reason that refuses a Basin DMA. -/
def basinReason (off len : Nat) : Option Nat :=
  if off % 64 ≠ 0 ∨ len % 64 ≠ 0 then some 1 else if basTop < off + len then some 2 else none

/-- A DMA_WR as it takes effect. -/
def State.dmaWrite (s : State) (target : Byte) (off : Nat) (data : List Byte) : (Option Word × List Byte) × State :=
  let n := data.length
  if target = 0 then
    match basinReason off n with
    | some r => s.opNo 0xB 8 r
    | none => ((none, []), { s with mem := writeBytes s.mem off data, dev := s.dev.wrote off n })
  else if target = 1 then
    match s.dev.stageReason false off n with
    | some r => s.opNo 0xB 8 r
    | none => ((none, []), s.stageData data)
  else if target = 2 then
    match recovDataBad s.dev.col false off n with
    | some 2 => ((some (condWord 0xD 4 0x200), []), s.onDev (fun d => d.recovRefuse 2))
    | some r => (s.onDev (fun d => d.recovRefuse r)).opNo 0xB 8 6
    | none => ((none, []), s.onDev (fun d => d.recovAppend data))
  else s.opNo 0xB 8 7

/-- A DMA_RD as it takes effect: a unit with an uncorrectable word returns 00h bytes and BAS 08h. -/
def State.dmaRead (s : State) (target : Byte) (off len : Nat) : (Option Word × List Byte) × State :=
  if target ≠ 0 then s.opNo 0xB 8 7
  else
    match basinReason off len with
    | some r => s.opNo 0xB 8 r
    | none =>
      let (bs, st) := s.dev.readUnits s.mem off len
      ((st.map (condWord 9 8), bs), s.onDev (fun d => d.uncorr (d.badIn off len)))

/-- DMA_WR sampled (R399, R405). -/
def State.takeDmaWr (s : State) (side : Side) (tag : BitVec 16) (target : Byte) (off : Nat) (data : List Byte) : State :=
  s.obvoTake side tag 0x10 (data.length % 4 == 0 && decide (1 ≤ data.length ∧ data.length ≤ 4096)) (fun t =>
    t.onDev (fun d => d.addCmd (.obvo side) tag.toNat (.sw .obvo) false [.dmaWr target off data]))

/-- DMA_RD sampled (R399, R405). -/
def State.takeDmaRd (s : State) (side : Side) (tag : BitVec 16) (target : Byte) (off len : Nat) : State :=
  s.obvoTake side tag 0x11 (decide (4 ≤ len ∧ len ≤ 4096)) (fun t =>
    t.onDev (fun d => d.addCmd (.obvo side) tag.toNat (.sw .obvo) false [.dmaRd target off len]))

/-- DMA_WR: the command waits for the boundary (R403). -/
def execDmaWr (side : Side) (tag : BitVec 16) (target : Byte) (off : BitVec 40) (data : List Byte) (s : State) :
    Host.Outcome State Fault Refusal :=
  .next (s.arrive side (.dmaWr side tag target off data))

/-- DMA_RD: the command waits for the boundary (R403). -/
def execDmaRd (side : Side) (tag : BitVec 16) (target : Byte) (off : BitVec 40) (rlen : BitVec 16) (s : State) :
    Host.Outcome State Fault Refusal :=
  .next (s.arrive side (.dmaRd side tag target off rlen))

/-- OBVO_CMD_UNDEFINED: a command whose TYPE is not listed for DIR = 0b waits for the boundary too, and is refused there (R403 tests
1 and 2). -/
def execObvoCmdUndefined (side : Side) (tag : BitVec 16) (ty : Byte) (s : State) : Host.Outcome State Fault Refusal :=
  .next (s.arrive side (.obvoCmdUndefined side tag ty))

/-! ## Ports, beacons and forwarding (R397, R400-R402) -/

/-- EV_SIDE follows the flags, its change is an OBVO_SIDE record, and a change of a flag is raised (R402, R407). -/
def Dev.onFlags (d : Dev) (f : Obvo → Obvo) : Dev :=
  let d1 := d.onObvo f
  let x := d1.obvo
  let d2 := if x.validA = d.obvo.validA ∧ x.validB = d.obvo.validB then d1 else d1.raise 0xB 7 (2 * b2n x.validB + b2n x.validA)
  let side := if x.validA then 1 else if x.validB then 2 else 0
  if side = x.evSide then d2 else (d2.onObvo (fun y => { y with evSide := side })).event 7 (leBytes 8 side)

/-- A valid flag clears. -/
def Obvo.unvalid (x : Obvo) : Side → Obvo
  | .obIn => { x with validA := false }
  | .obOut => { x with validB := false }

/-- Send a packet out of the other port. -/
def Dev.passOn (d : Dev) (side : Side) (pk : ObvoPkt) : Dev := d.sendSide (otherSide side) (.obvo (otherSide side) pk)

/-- A beacon (R401). -/
def Dev.onBeacon (d : Dev) (side : Side) (passed : BitVec 3) (fromB : Bool) : Dev :=
  let d1 := d.onFlags (fun x => match side with
    | .obIn => { x with posA := passed, validA := true, tA := d.now }
    | .obOut => { x with posB := passed, validB := true, tB := d.now })
  d1.passOn side { ty := 0x20, inbound := false, hop := 0, tag := 0
                   arg := BitVec.ofNat 64 (passed.toNat + 1 + 256 * b2n fromB), body := [], crcOk := true }

/-- BEACON. -/
def execBeacon (side : Side) (passed : BitVec 3) (fromB : Bool) (s : State) : Host.Outcome State Fault Refusal :=
  devStep (fun d => if d.sideUp side then d.onBeacon side passed fromB else d) s

/-- OBVO_FORWARD (R400). -/
def execObvoForward (side : Side) (pk : ObvoPkt) (s : State) : Host.Outcome State Fault Refusal :=
  devStep (fun d =>
    if ! d.sideUp side then d
    else if ! pk.crcOk then (d.add64 (ra 0xB 0x40) 1).raise 0xB 2 (sideBit side)
    else if pk.inbound then d.passOn side pk
    else if pk.ty = 0x20 then d.onBeacon side (pk.arg.setWidth 3) (pk.arg.getLsbD 8)
    else if pk.hop = 0 then d
    else d.passOn side { pk with hop := pk.hop - 1 }) s

/-- The Obvo ports run: the main domain is powered, and no data-path reset holds their transmitters (R395, R469). -/
def Dev.obvoPowered (d : Dev) : Bool := d.dies.getD 0 .off != .off && ! d.dpBusy

/-- A change of an Obvo port's state waits for the boundary that samples it (R55, R397). -/
def Dev.sideLater (d : Dev) (side : Side) (v : ObvoSt) : Dev := d.onObvo (fun x => { x with due := x.due ++ [(side, v)] })

/-- OBVO_PORT_UP (R397): both lanes have locked and deskewed; never without RACKCLK (R546). -/
def execObvoPortUp (side : Side) (s : State) : Host.Outcome State Fault Refusal :=
  devStep (fun d => if d.obvoPowered && d.frm.st != .lost then d.sideLater side .up else d) s

/-- OBVO_PORT_DOWN (R397): lock is lost on a lane. -/
def execObvoPortDown (side : Side) (s : State) : Host.Outcome State Fault Refusal :=
  devStep (fun d => if d.obvoPowered then d.sideLater side .down else d) s

/-- A valid flag's conditions at a boundary (R402). -/
def Dev.beaconTick (d : Dev) (side : Side) : Dev :=
  let t := match side with
    | .obIn => d.obvo.tA
    | .obOut => d.obvo.tB
  if 4096 ≤ d.age t ∨ ! d.sideUp side then d.onFlags (fun x => x.unvalid side) else d

/-- BEACON_TIMEOUT (R402). -/
def execBeaconTimeout (side : Side) (s : State) : Host.Outcome State Fault Refusal := devStep (fun d => d.beaconTick side) s

/-! ## The event stream (R407) -/

/-- The records that fit one EVENT packet, and the rest. -/
def takeEvents : Nat → List (List Byte) → List (List Byte) × List (List Byte)
  | _, [] => ([], [])
  | room, r :: l =>
    if r.length ≤ room then
      let (a, b) := takeEvents (room - r.length) l
      (r :: a, b)
    else ([], r :: l)

/-- EVENT_SEND (R407): the oldest records go out of the side in use and are freed. -/
def execEventSend (s : State) : Host.Outcome State Fault Refusal :=
  devStep (fun d =>
    let side : Side := if d.obvo.evSide = 2 then .obOut else .obIn
    let (a, b) := takeEvents 4096 d.obvo.events
    if d.obvo.evSide = 0 ∨ ! d.sideUp side ∨ a = [] then d
    else (d.onObvo (fun x => { x with events := b })).emit (.event side a)) s

end Sys2Proof.Machine
end

