-- ==== Sys2Proof/Machine/Trail.lean ====
section
/-! DEFINITION. The trail port (R410-R415, R426, R429, R430, R432, R463): MCTP control, SPDM and Paltia trail commands. -/

namespace Sys2Proof.Machine

/-! ## Messages (R410, R411) -/

/-- PEC_BAD (R410). -/
def execPecBad (s : State) : Host.Outcome State Fault Refusal :=
  devStep (fun d => if d.service = .none then d else (d.addSat (ra 0xC 0x40) 1).raise 0xC 1 0) s

/-- A message type of R411 that the port does not support. -/
def execUnsupportedMessageType (s : State) : Host.Outcome State Fault Refusal :=
  devStep (fun d => if d.service = .none then d else d.addSat (ra 0xC 0x44) 1) s

/-- Draw standard-defined bytes and answer an MCTP control message (log 5). -/
def Dev.control (d : Dev) (kind : Nat) (bytes : List Byte) : Dev :=
  if d.hears true then
    ({ d with draws := d.draws + 1 } : Dev).emit (.mctp kind (Config.mctpBody d.draws ++ bytes))
  else d

/-- SET_ENDPOINT_ID (R411). -/
def execSetEndpointId (eid : Byte) (s : State) : Host.Outcome State Fault Refusal :=
  devStep (fun d => if d.hears true then (d.onObvo (fun x => { x with eid := eid })).control 1 [eid] else d) s

/-- GET_ENDPOINT_ID. -/
def execGetEndpointId (s : State) : Host.Outcome State Fault Refusal := devStep (fun d => d.control 2 [d.obvo.eid]) s

/-- GET_MCTP_VERSION_SUPPORT. -/
def execGetMctpVersionSupport (s : State) : Host.Outcome State Fault Refusal := devStep (fun d => d.control 4 []) s

/-- GET_MESSAGE_TYPE_SUPPORT: the types of R411. -/
def execGetMessageTypeSupport (s : State) : Host.Outcome State Fault Refusal := devStep (fun d => d.control 5 [0, 5, 0x7E]) s

/-! ## SPDM (R412, R432, R433) -/

/-- Reasons of an SPDM ERROR response. -/
inductive SpdmErr where
  | busy | unsupported
  deriving DecidableEq, Repr

def spdmErrCode : SpdmErr → Byte
  | .busy => 3
  | .unsupported => 7

/-- An SPDM request: Busy from the loader, UnsupportedRequest after a FAULT, else the answer (log 5). -/
def State.spdm (s : State) (kind : Nat) (err : Option SpdmErr) (body : Nat → List Byte) : State :=
  let d := s.dev
  let no (e : SpdmErr) : State := s.onDev (fun x => x.emit (.mctp 0x7F [spdmErrCode e]))
  if ! d.hears false then s.unheard
  else
    match d.service, err with
    | .loader, _ => no .busy
    | .limited, _ => no .unsupported
    | _, some e => no e
    | _, none => s.onDev (fun x => ({ x with draws := x.draws + 1 } : Dev).emit (.mctp kind (body x.draws)))

/-- An answer without content of the spec's. -/
def spdmPlain (n : Nat) : List Byte := Config.spdmBody n

/-- A signed answer. -/
def spdmSigned (content : List Byte) (n : Nat) : List Byte :=
  let b := Config.spdmBody n ++ content
  b ++ Config.identSign b

/-- The error where CERT_VALID is 0b. -/
def State.noCert (s : State) : Option SpdmErr := if s.dev.col.certValid then none else some .unsupported

/-- GET_VERSION. -/
def execGetVersion (s : State) : Host.Outcome State Fault Refusal := .next (s.spdm 0x84 none spdmPlain)

/-- GET_CAPABILITIES. -/
def execGetCapabilities (s : State) : Host.Outcome State Fault Refusal := .next (s.spdm 0xE1 none spdmPlain)

/-- NEGOTIATE_ALGORITHMS. -/
def execNegotiateAlgorithms (s : State) : Host.Outcome State Fault Refusal := .next (s.spdm 0xE3 none spdmPlain)

/-- GET_DIGESTS: the mask of slots, and the digest of slot 0's chain where there is one. -/
def execGetDigests (s : State) : Host.Outcome State Fault Refusal :=
  .next (s.spdm 0x81 none (fun n => if s.dev.col.certValid then 1 :: Config.spdmBody n else [0]))

/-- GET_CERTIFICATE: the chain, whose leaf IDENT holds. -/
def execGetCertificate (s : State) : Host.Outcome State Fault Refusal :=
  .next (s.spdm 0x82 s.noCert (fun n => Config.spdmBody n ++ s.nv.ident))

/-- CHALLENGE: signed with the identity key. -/
def execChallenge (s : State) : Host.Outcome State Fault Refusal := .next (s.spdm 0x83 s.noCert (spdmSigned []))

/-- GET_MEASUREMENTS: the six measurements as held, signed. -/
def execGetMeasurements (s : State) : Host.Outcome State Fault Refusal :=
  .next (s.spdm 0xE0 none (spdmSigned ([1, 2, 3, 4, 5, 6].flatMap s.measure)))

/-- Any other SPDM request. -/
def execSpdmUnsupportedRequest (s : State) : Host.Outcome State Fault Refusal := .next (s.spdm 0 (some .unsupported) spdmPlain)

/-! ## Paltia trail commands (R413, R414) -/

/-- Where a trail command's answer goes, with its CMD byte. -/
def trailPath (eid inst : Byte) (cmd : Nat) : Path := .trail eid inst (BitVec.ofNat 8 (cmd + 0x80))

/-- Refuse with TRAIL 03h. -/
def State.trailBad (s : State) (eid inst : Byte) (cmd : Nat) : State :=
  s.onDev (fun d => d.refuse (trailPath eid inst cmd) 0 0xC 3 cmd)

/-- A trail request that the port hears waits for the boundary that samples it (R414). -/
def State.hear (s : State) (c : Instr) : State := if s.dev.hears false then s.wait c else s.unheard

/-- A trail command sampled: `inLoader`, `inFault`: the loader or the boot ROM serves it; `ok`: the body has its length. -/
def State.trailTake (s : State) (eid inst : Byte) (cmd : Nat) (inLoader inFault ok : Bool) (go : State → State) : State :=
  let d := s.dev
  if d.service == .none then s
  else if (d.service == .loader && ! inLoader) || (d.service == .limited && ! inFault) || ! ok then s.trailBad eid inst cmd
  else go s

/-- A trail command sampled whose effect is the actions `ops`. -/
def State.trailOps (s : State) (eid inst : Byte) (cmd : Nat) (inLoader ok : Bool) (ops : List ActOp) : State :=
  s.trailTake eid inst cmd inLoader false ok (fun t =>
    t.onDev (fun d => d.addCmd (trailPath eid inst cmd) 0 (.sw (.trail eid)) false ops))

/-- The power and thermal summary (R463). -/
def Dev.summary (d : Dev) : List Byte :=
  let x := d.pwr
  leBytes 2 (if d.rails then x.pEst else 0) ++ leBytes 2 x.lEff ++ leBytes 2 (d.fld (ra 0xF 0xC) 0 16) ++
  leBytes 2 (d.fld (ra 0xF 0x10) 0 16) ++ leBytes 2 (if d.rails then uInt 16 x.tj else 0) ++
  leBytes 1 (d.powerStage + 4 * b2n x.trip + 8 * b2n x.brakeLow + 16 * b2n x.holdTrail + 32 * b2n x.holdHost + 64 * b2n x.viol) ++
  leBytes 1 (leakCode x.leakA + 4 * leakCode x.leakB + 16 * x.blind.length) ++ leBytes 2 (d.fld (ra 0xF 0x2C) 0 16) ++
  leBytes 2 (x.dfault.filter (· != 0)).length

/-- The data of STATUS. -/
def State.statusData (s : State) : List Byte :=
  [ra 0 0x20, ra 0 0x24, ra 0 0x28, ra 0 0x10, ra 1 8, ra 0xA 0, ra 0xA 0x10, ra 0 0x30].flatMap (fun a => leBytes 4 (s.view a).toNat)
    ++ s.dev.summary

/-- STATUS: the request waits for the boundary (R413, R414). -/
def execStatus (eid inst : Byte) (s : State) : Host.Outcome State Fault Refusal := .next (s.hear (.status eid inst))

/-- STATUS sampled: answered with the state at the end of the frame (R59, R463). -/
def State.takeStatus (s : State) (eid inst : Byte) : State :=
  s.trailTake eid inst 1 true true true (fun t =>
    t.onDev (fun d => d.addRead (.trail eid) .status (some (trailPath eid inst 1, 0))))

/-- Register access over the trail port: tests 3 and 4 of R403; the loader reaches blocks on the Col die alone, and so does a read
after a FAULT (R414, R426, R429). -/
def State.trailRegs (s : State) (eid inst : Byte) (cmd a n : Nat) (f : Dev → Dev) : State :=
  let d := s.dev
  let offCol := (List.range n).findSome? (fun i => (d.accDie (a + 4 * i)).map (fun k => blk (a + 4 * i) * 256 + k))
  if d.service = .limited ∧ offCol.isSome then s.trailBad eid inst cmd
  else
    match d.regTests a n 0xC 2, d.service, offCol with
    | some (b, c, det), _, _ => s.onDev (fun x => x.refuse (trailPath eid inst cmd) 0 b c det)
    | none, .loader, some det => s.onDev (fun x => x.refuse (trailPath eid inst cmd) 0 0 4 det)
    | none, _, _ => s.onDev f

/-- REG_READ sampled (R413). -/
def State.takeRegRead (s : State) (eid inst : Byte) (a n : Nat) : State :=
  s.trailTake eid inst 2 true true (decide (1 ≤ n ∧ n ≤ 64) && a % 4 == 0) (fun t =>
    t.trailRegs eid inst 2 a n (fun d => d.addRead (.trail eid) (.regs a n) (some (trailPath eid inst 2, 0))))

/-- REG_WRITE sampled (R413). -/
def State.takeRegWrite (s : State) (eid inst : Byte) (a : Nat) (vals : List Word) : State :=
  let n := vals.length
  s.trailTake eid inst 3 true false (decide (1 ≤ n ∧ n ≤ 32) && a % 4 == 0) (fun t =>
    t.trailRegs eid inst 3 a n (fun d => d.addCmd (trailPath eid inst 3) 0 (.sw (.trail eid)) true (wrOps a fullMask vals)))

/-- REG_READ: the request waits for the boundary (R414). -/
def execRegRead (eid inst : Byte) (addr : Word) (count : BitVec 16) (s : State) : Host.Outcome State Fault Refusal :=
  .next (s.hear (.regRead eid inst addr count))

/-- REG_WRITE: the request waits for the boundary (R414). -/
def execRegWrite (eid inst : Byte) (addr : Word) (vals : List Word) (s : State) : Host.Outcome State Fault Refusal :=
  .next (s.hear (.regWrite eid inst addr vals))

/-- CAP_SET (R413, R448): a write of PWR_CAP_TRAIL. -/
def execCapSet (eid inst : Byte) (watts : BitVec 16) (s : State) : Host.Outcome State Fault Refusal :=
  .next (s.hear (.capSet eid inst watts))

/-- HOLDOFF_SET (R451): a write of PWR_HOLD.SET. -/
def execHoldoffSet (eid inst : Byte) (s : State) : Host.Outcome State Fault Refusal := .next (s.hear (.holdoffSet eid inst))

/-- HOLDOFF_CLEAR (R451): a write of PWR_HOLD.CLR. -/
def execHoldoffClear (eid inst : Byte) (s : State) : Host.Outcome State Fault Refusal := .next (s.hear (.holdoffClear eid inst))

/-- LOCATE (R489). -/
def execLocate (eid inst st : Byte) (s : State) : Host.Outcome State Fault Refusal := .next (s.hear (.locate eid inst st))

/-- PLAT_START (R373, R413): writes PLAT_LOAD_LEN and START. -/
def execPlatStart (eid inst : Byte) (len : Word) (s : State) : Host.Outcome State Fault Refusal :=
  .next (s.hear (.platStart eid inst len))

/-- PLAT_DATA (R405 reasons 03h to 05h). -/
def execPlatData (eid inst : Byte) (off : Word) (data : List Byte) (s : State) : Host.Outcome State Fault Refusal :=
  .next (s.hear (.platData eid inst off data))

/-- PLAT_CLEAR (R373, R413): writes CLEAR. -/
def execPlatClear (eid inst : Byte) (s : State) : Host.Outcome State Fault Refusal := .next (s.hear (.platClear eid inst))

/-- PLAT_INSTALL (R375, R413): writes INSTALL. -/
def execPlatInstall (eid inst : Byte) (s : State) : Host.Outcome State Fault Refusal := .next (s.hear (.platInstall eid inst))

/-- RECOV_START (R430). -/
def execRecovStart (eid inst kind : Byte) (len : Word) (s : State) : Host.Outcome State Fault Refusal :=
  .next (s.hear (.recovStart eid inst kind len))

/-- RECOV_DATA (R430). -/
def execRecovData (eid inst : Byte) (off : Word) (data : List Byte) (s : State) : Host.Outcome State Fault Refusal :=
  .next (s.hear (.recovData eid inst off data))

/-- RECOV_RUN (R431). -/
def execRecovRun (eid inst : Byte) (s : State) : Host.Outcome State Fault Refusal := .next (s.hear (.recovRun eid inst))

/-- An undefined CMD (R413). -/
def execTrailCmdUndefined (eid inst cmd : Byte) (s : State) : Host.Outcome State Fault Refusal :=
  .next (s.hear (.trailCmdUndefined eid inst cmd))

/-- ALERT_RESPONSE (R415): the device that holds ALERT_N low answers with its own address and releases it. -/
def execAlertResponse (s : State) : Host.Outcome State Fault Refusal :=
  devStep (fun d =>
    if d.service = .none ∨ ! d.obvo.alert then d
    else (d.onObvo (fun x => { x with alert := false })).emit (.alert (BitVec.ofNat 8 (0x68 + d.trayPos)))) s

end Sys2Proof.Machine
end

