-- ==== Sys2Proof/Machine/Sample.lean ====
section
/-! DEFINITION. What a frame boundary does with the inputs that wait for it (R55-R65): each is sampled, conflicts are settled by level
and by the rotating tie rule, at most 64 control actions take effect, and commands whose actions are done are answered. -/

namespace Sys2Proof.Machine

/-! ## The inputs sampled -/

/-- The packet of an in-band control message. -/
def messageOf : Instr → Option Nat
  | .bypassMessage id => some id
  | .catHold id => some id
  | .catAbort id => some id
  | .fanAbortMessage id => some id
  | .colMessage id => some id
  | .cntRead id => some id
  | _ => none

/-- A write sampled: Narrows discards a Col write of a protected register, which is no conflict (R420); the loader reaches blocks on
the Col die alone, and after a FAULT the port serves no write (R426, R429); any other write is an action of the frame. -/
def Dev.takeWrite (d : Dev) (src : Src) (a : Nat) (v : Word) : Dev :=
  if isCol src && colProtected a then d.gate src a id
  else if isTrail src && d.service == .limited then d.raise 0xC 3 3
  else if isTrail src && d.service == .loader && (d.accDie a).isSome then d.raise 0 4 (blk a * 256 + (d.accDie a).getD 0)
  else d.addAct (.sw src) (.write a fullMask v)

/-- A read of one register sampled. -/
def Dev.takeRead (d : Dev) (src : Src) (a : Nat) : Dev := d.addRead src (.one a) none

/-- A confirmed in-band control message sampled (R71): its source is its ingress port; Col's own have index 128. -/
def Dev.takeMessage (d : Dev) (id : Nat) : Dev :=
  match d.pkt id with
  | some k => if k.conf ∧ k.st = .engine then d.addAct (.inBand (k.ing.getD 128)) (.message id) else d
  | none => d

/-- A trail request sampled. -/
def State.takeTrail (s : State) : Instr → State
  | .status eid inst => s.takeStatus eid inst
  | .regRead eid inst addr n => s.takeRegRead eid inst addr.toNat n.toNat
  | .regWrite eid inst addr vals => s.takeRegWrite eid inst addr.toNat vals
  | .capSet eid inst w => s.trailOps eid inst 0x10 true true [.write (ra 0xF 0xC) fullMask (w.setWidth 32)]
  | .holdoffSet eid inst => s.trailOps eid inst 0x11 true true [.write (ra 0xF 0x14) fullMask 0x80000000]
  | .holdoffClear eid inst => s.trailOps eid inst 0x12 true true [.write (ra 0xF 0x14) fullMask 0x40000000]
  | .locate eid inst st => s.trailOps eid inst 0x20 false (decide (st.toNat ≤ 2)) [.locate st.toNat]
  | .platStart eid inst len =>
    s.trailOps eid inst 0x30 true true [.write (ra 0xA 8) fullMask len, .write (ra 0xA 4) fullMask 0x80000000]
  | .platData eid inst o data =>
    s.trailOps eid inst 0x31 true (decide (8 ≤ data.length ∧ data.length ≤ 1024) && data.length % 8 == 0) [.platData o.toNat data]
  | .platClear eid inst => s.trailOps eid inst 0x32 true true [.write (ra 0xA 4) fullMask 0x40000000]
  | .platInstall eid inst => s.trailOps eid inst 0x33 true true [.write (ra 0xA 4) fullMask 0x20000000]
  | .recovStart eid inst kind len => s.trailOps eid inst 0x40 true true [.recovStart kind.toNat len.toNat]
  | .recovData eid inst o data =>
    s.trailOps eid inst 0x41 true (decide (8 ≤ data.length ∧ data.length ≤ 1024) && data.length % 8 == 0) [.recovData o.toNat data]
  | .recovRun eid inst => s.trailOps eid inst 0x42 true true [.recovRun]
  | .trailCmdUndefined eid inst cmd => s.trailTake eid inst cmd.toNat true true false id
  | _ => s

/-- An Obvo command sampled. -/
def State.takeObvo (s : State) : Instr → State
  | .obvoRd side tag addr n => s.takeRd side tag addr.toNat n.toNat
  | .obvoWr side tag addr vals => s.takeWr side tag addr.toNat vals
  | .obvoWrm side tag addr mask v => s.takeWrm side tag addr.toNat mask v
  | .dmaWr side tag target o data => s.takeDmaWr side tag target o.toNat data
  | .dmaRd side tag target o n => s.takeDmaRd side tag target o.toNat n.toNat
  | .obvoCmdUndefined side tag ty => s.obvoTake side tag ty.toNat false id
  | c => s.takeTrail c

/-- What a command's row says is seen as it is sampled: comparators at 115 °C (R460). -/
def Dev.seen (d : Dev) : Instr → Dev
  | .tripClr _ _ hot => if hot then d.onPwr (fun x => { x with hot := true }) else d
  | _ => d

/-- One input sampled (R55). -/
def State.takeInput (s : State) (c : Instr) : State :=
  match writeOf c, messageOf c with
  | some (src, a, v), _ => s.onDev (fun d => (d.seen c).takeWrite src a v)
  | none, some id => s.onDev (fun d => d.takeMessage id)
  | none, none =>
    match c with
    | .frmNoLoRead src => s.onDev (fun d => d.takeRead src (ra 1 0))
    | .pairLoRead src addr => s.onDev (fun d => d.takeRead src addr.toNat)
    | .pairHiRead src addr => s.onDev (fun d => d.takeRead src addr.toNat)
    | x => s.takeObvo x

/-- Every input that waits is sampled, in the order of its arrival (R55, R56). -/
def State.sampleInputs (s : State) : State :=
  s.dev.inputs.foldl State.takeInput (s.onDev (fun d => { d with inputs := [] }))

/-! ## Conflicts (R60-R62) -/

/-- Level and index of who gives an action (R60). -/
def whoLevel : Who → Nat
  | .sw s => srcLevel s
  | .inBand _ => 4
def whoIndex : Who → Nat
  | .sw s => srcIndex s
  | .inBand p => p

/-- Fields of a register that software sets: lowest bit and width. -/
def fieldsOf (a : Nat) : List (Nat × Nat) :=
  let o := off a
  let each (w : Nat) : List (Nat × Nat) := (List.range (32 / w)).map (fun i => (w * i, w))
  match blk a with
  | 0 => if 0x60 ≤ o ∧ o < 0x70 then each 2 else [(0, 32)]
  | 2 =>
    match o % 0x1000 with
    | 0 => [(0, 1), (2, 3), (5, 2), (7, 1), (8, 8), (16, 8)]
    | 0x50 => [(0, 3), (4, 3)]
    | 0x70 => [(0, 2), (8, 5), (16, 8)]
    | _ => [(0, 32)]
  | 5 => if o < 0x200000 ∧ pOff o = 0x300 then [(0, 16), (30, 2)] else [(0, 32)]
  | 6 => if o = 0x40 then [(0, 6), (6, 1), (8, 7), (16, 2), (18, 1), (19, 1)] else [(0, 32)]
  | 7 =>
    if o = 0x40 then [(0, 12), (16, 16)]
    else if o = 0x50 then [(0, 6), (8, 8), (16, 16)]
    else if o = 0x54 then [(0, 16), (17, 1), (18, 1), (19, 12)]
    else if o = 0x60 then [(0, 12), (24, 7), (31, 1)]
    else if 0x80 ≤ o ∧ o < 0x90 then each 1 else [(0, 32)]
  | 8 => if o = 0x40 then [(0, 16), (16, 8), (24, 1), (25, 1), (26, 1), (27, 1), (28, 4)]
    else if o = 0x44 then [(0, 6), (8, 12), (24, 8)] else [(0, 32)]
  | 0xA => if o = 0x40 then [(0, 6), (6, 1)] else [(0, 32)]
  | 0xB => if o = 8 then each 1 else [(0, 32)]
  | 0xC => if o = 8 then each 1 else [(0, 32)]
  | 0xE => if 0x100 ≤ o ∧ o < 0x120 then [(0, 6), (8, 8), (16, 8)] else [(0, 32)]
  | 0x10 => if 0x400000 ≤ o ∧ o % 0x20 ≠ 0 then each 1 else [(0, 32)]
  | 0x11 =>
    if o < 0x200000 then [(0, 12), (12, 4), (16, 8), (24, 3)]
    else if 0x400000 ≤ o ∧ o < 0x400200 then
      match o % 0x40 with
      | 0 => [(0, 7), (12, 7), (21, 1), (22, 1), (23, 1), (24, 2)]
      | 4 => [(0, 12), (16, 8), (24, 8)]
      | _ => [(0, 32)]
    else if 0x401000 ≤ o ∧ o < 0x401200 ∧ o % 0x40 = 0 then [(0, 7), (22, 1), (23, 1)] else [(0, 32)]
  | _ => [(0, 32)]

/-- Bits of a register that hold what is written to them; bits that give a command. -/
def dataBits (a : Nat) : Word := if a = ra 6 0 then 0xFFF else regRw a
def cmdBits (a : Nat) : Word :=
  let o := off a
  if a = ra 0xA 4 then 0xE0000000
  else if [ra 6 0x40, ra 0xA 0x40, ra 7 0x58, ra 8 0x60, ra 0xD 8].contains a then 0xC0000000
  else if blk a = 3 ∧ atPort o 0x14 then 0x8000000F
  else if blk a = 0x11 ∧ 0x400000 ≤ o ∧ o < 0x402000 ∧ o % 0x40 = 0 then 0xC0000000
  else 0

/-- Orders that are combined and not ranked (R64). -/
def combined (a : Nat) : Bool := a == ra 0xF 0xC || a == ra 0xF 0x10 || a == ra 0xF 0x14

/-- Objects that an action takes down, resets or removes (R61). -/
inductive Obj where
  | path
  | port (p : Nat)
  | lane (l : Nat)
  | stage
  | group (g : Nat)
  | round (r : Nat)
  | route
  | activation
  | col
  deriving DecidableEq, Repr

/-- The register and bits an action writes; no register for another action. -/
def CtlAct.reg (x : CtlAct) : Nat × Word × Word :=
  match x.op with
  | .write a m v => (a, m, v &&& m)
  | _ => (0x12000000, 0, 0)

/-- The Bypass message with this packet (R228). -/
def Dev.isBypass (d : Dev) (id : Nat) : Bool :=
  match d.pkt id with
  | some k => ctlMsg 6 k && leAt k.pk.payload 1 1 == 1
  | none => false

/-- What an action sets: each field, command or state with the outcome it gives it (R61). A START's outcome names its level, since the
stage is loaded for its source (R373). -/
def State.setsOf (s : State) (x : CtlAct) : List ((Nat × Nat) × Nat) :=
  match x.op with
  | .write a m v =>
    if combined a then []
    else
      let new := s.merged a m v
      let fields := (fieldsOf a).filter (fun f => fld (m &&& dataBits a) f.1 f.2 != 0)
      let cmd := v &&& m &&& cmdBits a
      fields.map (fun f => ((a, f.1), fld new f.1 f.2)) ++
      (if cmd = 0 then [] else [((a, 32), cmd.toNat * 8 + (if a = ra 0xA 4 then whoLevel x.who else 0))]) ++
      (if a = ra 6 0x40 ∧ cmd ≠ 0 then [((ra 6 0x4C, 0), 0)] else [])
  | .locate st => [((ra 0 0x74, 8), st)]
  | .message id => if s.dev.isBypass id then [((ra 6 0x4C, 0), 1)] else []
  | _ => []

/-- Objects that an action takes down (R61). -/
def Dev.takes (d : Dev) (x : CtlAct) : List Obj :=
  let (a, m, v) := x.reg
  let o := off a
  let on (i : Nat) : Bool := Machine.bit v i
  if a = ra 0 0x40 then (if on 31 then [.path] else [])
  else if blk a = 0 ∧ 0x50 ≤ o ∧ o < 0x60 then (bitList 32 v.toNat).map (fun i => .port (8 * (o - 0x50) + i))
  else if blk a = 2 ∧ o < 0x200000 ∧ (o % 0x1000 = 0 ∨ o % 0x1000 = 0x50) then
    let l := o / 0x1000
    let hit := if o % 0x1000 = 0 then (Machine.bit m 0 && ! on 0) || on 1 || Machine.fld v 5 2 != 0 else v != 0
    if hit then .lane l :: (match d.portOf l with | some p => [.port p] | none => []) else []
  else if blk a = 3 ∧ atPort o 0 then (if on 0 then [.port (pOf o)] else [])
  else if a = ra 0xA 4 then (if on 30 || on 31 then [.stage] else [])
  else if a = ra 0xA 0x40 then (if on 30 then [.activation] else [])
  else if a = ra 6 0x40 then (if on 30 then [.route] else [])
  else if a = ra 7 0x58 then (if on 30 then [.group (Machine.fld v 0 12)] else [])
  else if a = ra 8 0x60 then (if on 30 then [.round (Machine.fld v 0 16)] else [])
  else if a = ra 0xD 4 then (if on 31 then [.col] else [])
  else if a = ra 0xD 8 then (if on 31 then [.col] else [])
  else
    match x.op with
    | .recovStart _ _ => [.col]
    | _ => []

/-- An action acts on an object. -/
def Dev.actsOn (d : Dev) (x : CtlAct) (ob : Obj) : Bool :=
  let (a, _, v) := x.reg
  let o := off a
  let wr := decide (a < 0x12000000)
  match ob with
  | .path => (wr && ! dpKeeps a) || (match x.op with | .message _ => true | _ => false)
  | .port p =>
    wr && (if blk a = 2 then decide (o < 0x200000) && (d.lanesOf p).contains (o / 0x1000)
      else decide (o < 0x200000) && pOf o == p && (blk a == 3 || decide (0x100 ≤ pOff o)) ||
        (blk a == 0 && decide (0x50 ≤ o ∧ o < 0x60) && Machine.bit v (p % 32) && (o - 0x50) / 4 == p / 32))
  | .lane l => wr && blk a == 2 && decide (o < 0x200000) && o / 0x1000 == l
  | .stage =>
    a == ra 0xA 4 || (a == ra 0xA 0x40 && Machine.bit v 31) || (a == ra 6 0x40 && Machine.bit v 31 && Machine.bit v 19) ||
      (match x.op with | .platData _ _ => true | .dmaWr t _ _ => t == 1 | _ => false)
  | .group g => a == ra 7 0x58 && (Machine.bit v 30 || Machine.bit v 31) && Machine.fld v 0 12 == g
  | .round r => a == ra 8 0x60 && ((Machine.bit v 30 && Machine.fld v 0 16 == r) || (Machine.bit v 31 && d.fld (ra 8 0x40) 0 16 == r))
  | .route => a == ra 6 0x40 || (match x.op with | .message id => d.isBypass id | _ => false)
  | .activation => a == ra 0xA 0x40
  | .col =>
    (wr && blk a == 0xD) ||
      (match x.op with | .recovStart _ _ => true | .recovData _ _ => true | .recovRun => true | .dmaWr t _ _ => t == 2 | _ => false)

/-- One action takes down what the other acts on. -/
def Dev.takesFrom (d : Dev) (x y : CtlAct) : Bool := (d.takes x).any (fun o => d.actsOn y o && ! (d.takes y).contains o)

/-- Two actions of different sources conflict (R61). -/
def State.clash (s : State) (x y : CtlAct) : Bool :=
  x.who != y.who &&
    ((s.setsOf x).any (fun e => (s.setsOf y).any (fun f => e.1 == f.1 && e.2 != f.2)) ||
      s.dev.takesFrom x y || s.dev.takesFrom y x) &&
    ! (whoLevel x.who == 4 && whoLevel y.who == 4)

/-- The actions that conflict with some action of a list, directly or through others, with that list; `n` bounds the search. -/
def grow (s : State) (m : List CtlAct) : Nat → List CtlAct → List CtlAct
  | 0, c => c
  | n + 1, c =>
    let c1 := m.filter (fun x => c.contains x || c.any (fun y => s.clash x y))
    if c1.length = c.length then c else grow s m n c1

/-- The groups of actions that contend: no action of one conflicts with one of another. -/
def groups (s : State) : Nat → List CtlAct → List (List CtlAct)
  | 0, _ => []
  | _, [] => []
  | n + 1, x :: l =>
    let c := grow s (x :: l) l.length [x]
    c :: groups s n (l.filter (fun y => ! c.contains y))

/-- Actions by the rotating order of their sources, each source's in its own order (R62). -/
def rotated (f : Nat) (m : List CtlAct) : List CtlAct :=
  let ix := ((m.map (fun x => whoIndex x.who)).dedup).insertionSort (· ≤ ·)
  (rotate ix f).flatMap (fun i => m.filter (fun x => whoIndex x.who == i))

/-- The order in which actions are taken: by level, then the rotating order (R65). -/
def serveOrder (f : Nat) (l : List CtlAct) : List CtlAct :=
  [2, 3, 4, 5].flatMap (fun lv => rotated f (l.filter (fun x => whoLevel x.who == lv)))

/-- Actions that stand, and the refused with the condition word each carries. -/
abbrev Settled := List CtlAct × List (CtlAct × Word)

/-- One action meets those that stand. -/
def State.meet (s : State) (m : Settled) (x : CtlAct) : Settled :=
  match m.1.find? (fun y => s.clash x y) with
  | some y => (m.1, m.2 ++ [(x, condWord 1 4 (whoLevel y.who * 256 + whoLevel x.who))])
  | none => (m.1 ++ [x], m.2)

/-- The actions of one level meet those of higher levels, and then, contention by contention, one another (R61, R62). -/
def State.settleLevel (s : State) (m : Settled) (l : List CtlAct) : Settled :=
  let free (x : CtlAct) : Bool := ! m.1.any (fun y => s.clash x y)
  let m1 := (l.filter (fun x => ! free x)).foldl s.meet m
  let rest := l.filter free
  ((groups s rest.length rest).flatMap (rotated s.dev.fno)).foldl s.meet m1

/-- Every action of the frame settled, level by level (R60, R61). -/
def State.settleActs (s : State) (l : List CtlAct) : Settled :=
  [2, 3, 4, 5].foldl (fun m lv => s.settleLevel m (l.filter (fun x => whoLevel x.who == lv))) ([], [])

/-! ## What takes effect (R65) -/

/-- An action counts against the 64 of a frame: register writes and state commands do; data and in-band messages do not (log 58). -/
def counts : ActOp → Bool
  | .write _ _ _ => true
  | .locate _ => true
  | .recovStart _ _ => true
  | .recovRun => true
  | _ => false

/-- The actions in order: those that take effect, and those deferred, with every later one of a deferred source (R56, R65). -/
def sixtyFour (l : List CtlAct) : List CtlAct × List CtlAct :=
  let r := l.foldl (fun (m : Nat × List CtlAct × List CtlAct) x =>
    if (counts x.op && decide (64 ≤ m.1)) || m.2.2.any (fun y => y.who == x.who) then (m.1, m.2.1, m.2.2 ++ [x])
    else (m.1 + b2n (counts x.op), m.2.1 ++ [x], m.2.2)) (0, [], [])
  (r.2.1, r.2.2)

/-- An action of a command is done: refused with a word, or with effect; its answer's data. -/
def Cmd.done (c : Cmd) (idx : Nat) (w : Option Word) (data : List Byte) : Cmd :=
  match w with
  | some x => { c with left := c.left - 1, refused := c.refused ++ [idx], cond := if c.cond = 0 then x else c.cond, data := c.data ++ data }
  | none => { c with left := c.left - 1, data := c.data ++ data }

def Dev.actDone (d : Dev) (x : CtlAct) (w : Option Word) (data : List Byte) : Dev :=
  d.onObvo (fun o => { o with cmds := o.cmds.map (fun c => if c.id = x.cmd then c.done x.idx w data else c) })

/-- The refusal map of a write command (R404). -/
def refusalMap (c : Cmd) : List Byte :=
  (List.range (cdiv c.count 32)).flatMap (fun w =>
    leBytes 4 ((c.refused.filter (fun i => i / 32 == w)).map (fun i => 2 ^ (i % 32))).sum)

/-- Answer the commands all of whose actions are done. -/
def Dev.answerWrites (d : Dev) : Dev :=
  let fin (c : Cmd) : Bool := c.left == 0 && ! d.obvo.reads.any (fun r => r.cmd == c.id)
  let d1 := d.onObvo (fun x => { x with cmds := x.cmds.filter (fun c => ! fin c) })
  (d.obvo.cmds.filter fin).foldl (fun (x : Dev) c =>
    x.reply c { cond := c.cond, frame := x.frame32, data := refusalMap c ++ c.data }) d1

/-- Refuse an action; a message that loses is dropped. -/
def Dev.refuseAct (d : Dev) (e : CtlAct × Word) : Dev :=
  let d1 := (d.raise 1 4 (Machine.fld e.2 0 16)).actDone e.1 (some e.2) []
  match e.1.op with
  | .message id => d1.rmPkt id
  | _ => d1

/-- The command is a trail PLAT_START, PLAT_CLEAR or PLAT_INSTALL. -/
def platCmd (c : Cmd) : Bool :=
  match c.path with
  | .trail _ _ b => b == 0xB0 || b == 0xB2 || b == 0xB3
  | .obvo _ => false

/-- The PLAT condition word that a trail plat command's write of PLAT_LOAD_CTL meets, for its answer (R373, R375, R413). -/
def State.platWord (s : State) (x : CtlAct) (a : Nat) (v : Word) (src : Src) : Option Word :=
  if a ≠ ra 0xA 4 ∨ ! s.dev.obvo.cmds.any (fun c => c.id == x.cmd && platCmd c) then none
  else if Machine.bit v 29 then
    (if s.dev.plat.load = .staged ∧ cKind s.nv.stage = 0 then none else some (condWord 0xA 8 0x100))
  else (s.loadRefusal src).map (fun det => condWord 0xA 3 det)

/-- The answer of a recovery command: COL_RECOV_STAT, and COL 04h where it is refused (R430). -/
def recovAns (r : Option Nat) (t : State) : (Option Word × List Byte) × State :=
  ((r.map (fun x => condWord 0xD 4 (x * 256)), leBytes 4 t.dev.recovStat.toNat), t)

/-- An in-band message is acted on. -/
def Dev.actMessage (d : Dev) (id : Nat) : Dev :=
  match d.pkt id with
  | none => d
  | some k =>
    let op := k.pk.hdr.op.toNat
    if op = 0x23 then d.catHoldAct id
    else if op = 0x24 then d.catAbortAct id
    else if op = 0x41 then d.cntReadAct id
    else if ctlMsg 6 k then d.bypassAct id
    else if ctlMsg 8 k then d.fanAbortAct id
    else if ctlMsg 0xD k then d.colMessageAct id else d

/-- What an action does: the condition word that refuses it, if one does, its answer's data, and the state it leaves. -/
def State.runOp (s : State) (x : CtlAct) : (Option Word × List Byte) × State :=
  let src : Src := match x.who with
    | .sw q => q
    | .inBand _ => .obvo
  match x.op with
  | .write a m v =>
    let w := s.platWord x a v src
    let (r, t) := s.regWrite src a m v
    ((match r with | some e => some e | none => w, []), t)
  | .locate st => ((none, []), s.onDev (fun d => d.setFld (ra 0 0x74) 8 2 st))
  | .platData o data =>
    match s.dev.stageReason true o data.length with
    | some r => s.opNo 0xC 4 r
    | none => ((none, []), s.stageData data)
  | .recovStart kind len =>
    let (r, d) := s.dev.recovStart true kind len
    recovAns r { s with dev := d }
  | .recovData o data =>
    let r := recovDataBad s.dev.col true o data.length
    recovAns r (s.onDev (fun d => match r with | some q => d.recovRefuse q | none => d.recovAppend data))
  | .recovRun =>
    let (r, t) := s.recovRun true
    recovAns r t
  | .dmaWr t o data => s.dmaWrite t o data
  | .dmaRd t o n => s.dmaRead t o n
  | .message id => ((none, []), s.onDev (fun d => d.actMessage id))

/-- An action takes effect, and its command notes it. -/
def State.applyAct (s : State) (x : CtlAct) : State :=
  let r := s.runOp x
  r.2.onDev (fun d => d.actDone x r.1.1 r.1.2)

/-- The lower of two caps, 0 for none. -/
def lowCap (a b : Nat) : Nat := if a = 0 then b else if b = 0 then a else min a b

/-- The trail caps of one frame combine (R64): the lowest that a source's last order leaves in force stands. -/
def mergeCaps (l : List CtlAct) : List CtlAct :=
  let cap (x : CtlAct) : Option Nat := match x.op with
    | .write a _ v => if a = ra 0xF 0xC then some (Machine.fld v 0 16) else none
    | _ => none
  let caps := l.filter (fun x => (cap x).isSome && whoLevel x.who == 2)
  let last (w : Who) : Nat := (((caps.filter (fun x => x.who == w)).getLast?).bind cap).getD 0
  let low := (((caps.map (·.who)).dedup).map last).foldl lowCap 0
  l.map (fun x => if caps.contains x then { x with op := .write (ra 0xF 0xC) fullMask (BitVec.ofNat 32 low) } else x)

/-- A data-path reset among the actions of a frame alone takes effect, and no per-port reset does (R472). -/
def Dev.resetAlone (d : Dev) (l : List CtlAct) : List CtlAct :=
  let whole (x : CtlAct) : Bool := match x.who, x.op with
    | .sw q, .write a m v => a == ra 0 0x40 && d.rstTakes q (v &&& m)
    | _, _ => false
  let one (x : CtlAct) : CtlAct := match x.op with
    | .write a m _ => if blk a = 0 ∧ 0x50 ≤ off a ∧ off a < 0x60 then { x with op := .write a m 0 } else x
    | _ => x
  if l.any whole then l.map one else l

/-- Actions beyond the 64th are deferred (R65). -/
def Dev.deferActs (d : Dev) (l : List CtlAct) : Dev :=
  let n := (l.filter (fun x => counts x.op)).length
  if l = [] then d
  else
    ((d.onObvo (fun x => { x with acts := l.map (fun a => { a with deferred := true }) })).addSat (ra 1 0x1C) n).raise 1 7 (min n 0xFFFF)

/-- An action on the stage: a write of PLAT_LOAD_CTL, or data for it. -/
def onStage (x : CtlAct) : Bool :=
  match x.op with
  | .write a _ _ => a == ra 0xA 4
  | .platData _ _ => true
  | .dmaWr t _ _ => t == 1
  | _ => false

/-- An activation of the stage is due in this frame: what acts on the stage waits for it (R392). -/
def Dev.stageDue (d : Dev) : Bool := d.actDue || (d.ractDue && d.stageLocked)

/-- The actions that waited for an activation take effect, once nothing of it is left to come (R392). -/
def State.runHeld (s : State) : State :=
  let l := s.dev.obvo.held
  if l = [] ∨ s.dev.plat.apply.isSome then s
  else
    (l.foldl State.applyAct (s.onDev (fun d => d.onObvo (fun x => { x with held := [] })))).onDev Dev.answerWrites

/-- The control actions of a boundary (R61, R62, R65): conflicts first, then at most 64 take effect, the rest wait for the next frame
ahead of what is sampled there. -/
def State.actTick (s : State) : State :=
  let m := s.settleActs s.dev.obvo.acts
  let (now, later) := sixtyFour (serveOrder s.dev.fno m.1)
  let s1 := s.onDev (fun d => (m.2.foldl Dev.refuseAct (d.onObvo (fun x => { x with acts := [] }))).deferActs later)
  let wait (x : CtlAct) : Bool := onStage x && s.dev.stageDue
  let s2 := ((s.dev.resetAlone (mergeCaps now)).filter (fun x => ! wait x)).foldl State.applyAct
    (s1.onDev (fun d => d.onObvo (fun x => { x with held := x.held ++ now.filter wait })))
  s2.onDev (fun d => { d.answerWrites with level1 := [] })

/-! ## Activations in their frame -/

/-- PLAT_ACTIVATE (R384): in frame T, or at the boundary after a first GO. A test instruction of the TAP holds it (R521). -/
def execPlatActivate (s : State) : Host.Outcome State Fault Refusal :=
  .next ((
    match s.dev.plat.act with
    | none => s
    | some a =>
      if (if a.first then decide (s.dev.now < a.t) else decide (s.dev.fno < a.t)) || s.dev.tapHeld then s
      else if ! a.first ∧ ! s.dev.aligned then s.onDev (fun d => d.notAligned.onPlat (fun x => { x with act := none }))
      else s.platActivate a).runHeld)

/-- ACTIVATED (R224): in frame T. A test instruction of the TAP holds it (R521). -/
def execActivated (s : State) : Host.Outcome State Fault Refusal :=
  .next ((
    match s.dev.ract with
    | none => s
    | some a =>
      if s.dev.fno < a.t ∨ s.dev.tapHeld then s
      else if ! s.dev.aligned then s.onDev (fun d => (({ d with ract := none } : Dev).corrFrom d).notAligned)
      else s.routeActivated a).runHeld)

/-- DATA_PATH_UP (R21, R469): in the first frame in which every part is UP the data path enters service; the plat is restored, or the
new one of a structural activation applied (R386). -/
def execDataPathUp (s : State) : Host.Outcome State Fault Refusal :=
  .next ((
    let d := s.dev
    if ! d.dataUp ∨ d.inService ∨ ! d.rails ∨ d.pwr.trip then s
    else
      let t := s.onDev (fun x => x.partsUp.evalAll)
      match d.plat.apply with
      | some b => (t.onDev (fun x => x.onPlat (fun y => { y with apply := none }))).actStage b false
      | none => t.onDev (fun x => { x with col := { x.col with restoreDue := true } })).runHeld)

end Sys2Proof.Machine
end

