-- ==== Sys2Proof/Machine/Send.lean ====
section
/-! DEFINITION. What the transmitters send in a frame (R76-R90, R93, R98, R101, R103, R105-R107, R111, R115, R119, R124, R127, R135):
the columns of codewords that begin in it are laid out and encoded at its end (DESIGN CHOICE, log 95). -/

namespace Sys2Proof.Machine

/-! ## Columns -/

/-- The core cycle, counted from the reset, in which column `k` of codewords begins: 2,720 symbols at 112 GBd each (R76, R78). -/
def colCycle (k : Nat) : Nat := 8704 * k / 175

/-- The columns that begin in the frame in progress. -/
def Dev.colsNow (d : Dev) : List Nat :=
  let t := d.cycles 0
  let lo := cdiv (175 * t) 8704
  (List.range (cdiv (175 * (t + d.frm.len)) 8704 - lo)).map (· + lo)

/-- The next `n` blocks of a port's stream: FILL where it is empty, and up to the end of the column before a START (R89, R127). -/
def takeSlots : Nat → List TxItem → List Block × List TxItem
  | 0, l => ([], l)
  | n + 1, .blk b :: l => let r := takeSlots n l; (b :: r.1, r.2)
  | n + 1, l => let r := takeSlots n l; (fillBlk :: r.1, r.2)

/-- `n` rows of a column, a block for each of `w` lanes (R87): the slots since the last row of FILL, the stream. A row of FILL comes at the
latest after 1,023 others (R89). -/
def takeRows (w : Nat) : Nat → Nat → List TxItem → List (List Block) × Nat × List TxItem
  | 0, f, l => ([], f, l)
  | n + 1, f, l =>
    let (row, l1) := if 1022 ≤ f then (List.replicate w fillBlk, l) else takeSlots w l
    let r := takeRows w n (if row.all isFill then 0 else f + 1) l1
    (row :: r.1, r.2)

/-! ## The sideband word (R84, R85) -/

/-- IDLE of a codeword. -/
def idleOf (blks : List Block) : BitVec 2 := if blks.contains eiBlk then 2 else if blks.any (fun b => isData b || isLinkCtl b) then 0 else 1

/-- FILL_MAP of a codeword. -/
def fillMapOf (blks : List Block) : BitVec 19 := BitVec.ofNat 19 ((blks.zipIdx.map (fun b => b2n (isFill b.1) <<< b.2)).sum)

/-- ACK_RSEQ as it is sent: that of a REQ outstanding; held by an injection act (R124, R126, R517). -/
def Dev.ackOut (d : Dev) (p : Nat) : BitVec 12 :=
  let x := d.port p
  if (d.injOn p 4 1).isSome then x.ackSent else if x.reqOpen then x.reqAck else x.ackRseq

/-- The port fields of a column that begins at cycle `cyc` of the frame, and that begins a replay where `start` is given; START comes before
REQ (log 95). Injection may move the marker (R517). -/
def Dev.portLsw (d : Dev) (p cyc : Nat) (start : Option (BitVec 6)) : Lsw :=
  let x := d.port p
  if ! linked x.st then {}
  else
    let mark : Int := match d.injOn p 2 2 with | some i => sInt 12 i.param | none => 0
    let verd := x.st == .up || x.st == .quar
    { bad0 := if verd then x.badTags[0]? else none, bad1 := if verd then x.badTags[1]? else none
      upToV := verd, upTo := if verd then ({ x with badTags := x.badTags.drop 2 } : Port).upTo else 0
      markFrame := BitVec.ofInt 16 ((d.fno : Int) + mark), markCycle := BitVec.ofNat 8 cyc, ack := d.ackOut p
      rop := if start.isSome then 2 else if x.reqOpen && ! x.resumed then 1 else 0
      reqId := start.getD (if x.reqOpen && ! x.resumed then x.reqId else 0), xoff := x.txXoff }

/-- The lane's own fields. -/
def Dev.laneLsw (d : Dev) (l k : Nat) (blks : List Block) (w : Lsw) : Lsw :=
  let x := d.lane l
  let w1 : Lsw := { w with eqiEcho := x.eqi, txeqAck := x.ack, txeqReq := x.ask, idle := idleOf blks, fillMap := fillMapOf blks, cwSeq := BitVec.ofNat 8 k }
  match d.portOf l with
  | some p => { w1 with width := BitVec.ofNat 3 (d.wcode p), laneInPort := BitVec.ofNat 4 (l - d.lane0 p) }
  | none => w1

/-! ## A codeword leaves a lane -/

/-- Whether injection strikes the lane's next codeword (R107); it is counted unless LANE_INJ_END has counted it. -/
def Dev.injNext (d : Dev) (l : Nat) : Dev × Bool :=
  let x := d.lane l
  let cnt (y : Dev) : Dev := y.addSat (rl 0x74 l) 1
  if 0 < x.injOwed then (d.onLane l (fun y => { y with injOwed := y.injOwed - 1 }), true)
  else
    match x.inj with
    | some none => (cnt d, true)
    | some (some n) => if n = 0 then (d, false)
      else ((cnt d).onLane l (fun y => { y with inj := if n = 1 then none else some (some (n - 1)) }), true)
    | none => (d, false)

/-- Symbols leave a lane from cycle `cyc` of the frame on. -/
def Dev.putLine (d : Dev) (l cyc : Nat) (sym : List (BitVec 2)) : Dev :=
  (d.onLane l (fun x => { x with sending := true })).emit (.line l cyc (some sym))

/-- The lane's line is in electrical idle. -/
def Dev.quietLine (d : Dev) (l cyc : Nat) : Dev :=
  if (d.lane l).sending then (d.onLane l (fun x => { x with sending := false })).emit (.line l cyc none) else d

/-- A lane sends a codeword (R79, R80, R107): with injection its header, or its symbols after encoding, are corrupted. -/
def Dev.sendWord (d : Dev) (l cyc : Nat) (blks : List Block) (lsw : BitVec 238) : Dev :=
  let (d1, hit) := d.injNext l
  let mode := if hit then d.fld (rl 0x70 l) 0 2 else 0
  let param := d.fld (rl 0x70 l) 8 5
  let sent := if mode = 3 then blks.zipIdx.map (fun b => if b.2 = param then (3, b.1.2) else b.1) else blks
  let (w, scr) := codeword (d.lane l).txScr sent lsw
  let w1 := if mode = 1 then invertSymbols param w else if mode = 2 then invertSymbols 16 w else w
  (d1.onLane l (fun x => { x with txScr := scr })).putLine l cyc (pamLevels w1)

/-- A lane in TEST sends a stretch of its pattern (R105, R107). -/
def Dev.sendPattern (d : Dev) (l cyc : Nat) : Dev :=
  let (d1, hit) := d.injNext l
  let (sym, r) := patternRun (d.fld (rl 0x50 l) 0 3) (d.userBits l) 2720 (d.lane l).gen
  let sent := if hit then invertLevels (d.fld (rl 0x70 l) 8 5) sym else sym
  (d1.onLane l (fun x => { x with gen := r })).putLine l cyc sent

/-- A lane in far-end loopback sends back the blocks it received; FILL, CW_SEQ and FILL_MAP are its own (R106). -/
def Dev.sendBack (d : Dev) (l k cyc : Nat) : Dev :=
  let x := d.lane l
  let blks := x.back.take 19 ++ List.replicate (19 - x.back.length) fillBlk
  let w : Lsw := { lswOf x.backLsw with cwSeq := BitVec.ofNat 8 k, fillMap := fillMapOf blks }
  (d.onLane l (fun y => { y with back := y.back.drop 19 })).sendWord l cyc blks w.bits

/-- The blocks a lane in WAKE sends in the `i`-th column of the frame: 64 TRAIN blocks from the boundary of W+4 (R103). -/
def Dev.wakeBlks (d : Dev) (l i : Nat) : List Block :=
  let burst := match (d.portOf l).bind (fun p => (d.port p).wakeAt) with | some w => w + 4 == d.now | none => false
  (List.range 19).map (fun j => if burst && decide (19 * i + j < 64) then trainBlk (63 - (19 * i + j)) else fillBlk)

/-- What a lane sends that carries no port stream, in column `k`, the `i`-th of the frame (R98). -/
def Dev.sendLane (d : Dev) (l k i : Nat) : Dev :=
  let cyc := colCycle k - d.cycles 0
  let put (blks : List Block) : Dev := d.sendWord l cyc blks (d.laneLsw l k blks {}).bits
  let eiFirst := match d.portOf l with | some p => (d.port p).eiSend | none => false
  if l / 64 ∈ d.clkDead then d.quietLine l cyc
  else
    match (d.lane l).st with
    | .off => d.quietLine l cyc
    | .fault => d.quietLine l cyc
    | .adapt => put (List.replicate 19 (trainBlk 255))
    | .hunt => put (List.replicate 19 (trainBlk 255))
    | .tune => put (List.replicate 19 (trainBlk 255))
    | .ready => put (List.replicate 19 fillBlk)
    | .service => put (List.replicate 19 fillBlk)
    | .ei =>
      if eiFirst then
        let blks := List.replicate 18 fillBlk ++ [eiBlk]
        d.sendWord l cyc blks (d.laneLsw l k blks (match d.portOf l with | some p => d.portLsw p cyc none | none => {})).bits
      else d.quietLine l cyc
    | .wake =>
      let blks := d.wakeBlks l i
      d.sendWord l cyc blks (d.laneLsw l k blks (match d.portOf l with | some p => d.portLsw p cyc none | none => {})).bits
    | .test =>
      if d.fld (rl 0 l) 5 2 = 1 then d.quietLine l cyc
      else if patOn (d.fld (rl 0x50 l) 0 3) then d.sendPattern l cyc
      else if d.fld (rl 0 l) 5 2 = 2 then d.sendBack l k cyc
      else d.quietLine l cyc

/-! ## A port's column -/

/-- Link control blocks that are due by the columns sent (R111, R114, R115, R119): IDENT, the next TIME_PROBE, UP_READY. -/
def Dev.dueCtl (d : Dev) (p : Nat) : Dev :=
  let x := d.port p
  let every (n : Nat) : Bool := x.columns % n == 0
  let ident (y : Dev) : Dev := y.sendCtl p (identBlk (y.ownIdent p))
  match x.st with
  | .exchange =>
    let d1 := if every 256 then ident d else d
    let left := ((List.range 8).map (fun i => (x.probe + i) % 8)).filter (fun i => ! x.trips.any (fun t => t.1 == i))
    (match left with
     | i :: _ => if x.ident.isSome && every 64 then (d1.sendCtl p (probeBlk i)).onPort p (fun y => { y with probe := (i + 1) % 8 }) else d1
     | [] => d1)
  | .check =>
    let d1 := if every 65536 then ident d else d
    if x.decided && every 256 then d1.sendCtl p upReadyBlk else d1
  | .up => if every 65536 then ident d else d
  | .quar => if every 65536 then ident d else d
  | _ => d

/-- A port sends a column (R87, R89, R127): its due control blocks join the stream, a START takes a column from its first slot. -/
def Dev.sendPort (d : Dev) (p k : Nat) : Dev :=
  let cyc := colCycle k - d.cycles 0
  let d1 := if linked (d.port p).st then d.dueCtl p else d
  let d2 := if (d1.port p).stream.isEmpty then d1.putCtl p else d1
  let x := d2.port p
  let (start, items) := match x.stream with
    | .start id :: l => (some id, l)
    | l => (none, l)
  let w := d2.width p
  let (rows, f, rest) := takeRows w 19 (if start.isSome then min x.sinceFill 1021 else x.sinceFill) items
  let fills := (rows.flatten.reverse.takeWhile isFill).length
  let port := d2.portLsw p cyc start
  let d3 := (d2.lanesOf p).foldl (fun (y : Dev) l =>
    let blks := rows.map (fun r => r.getD (l - d2.lane0 p) fillBlk)
    y.sendWord l cyc blks (y.laneLsw l k blks port).bits) d2
  let d4 := d3.onPort p (fun y => { y with
    stream := rest, sinceFill := f, sinceCtl := if rest.isEmpty then min 64 (y.sinceCtl + fills) else y.sinceCtl
    columns := y.columns + b2n (linked y.st), ackSent := d2.ackOut p, badTags := y.badTags.drop 2 })
  if (d4.injOn p 2 2).isSome || (d4.injOn p 4 1).isSome then d4.injUnits p 1 else d4

/-! ## The frame's transmission -/

/-- A lane in TUNE chooses a request of its partner's transmitter (R93; log 87): one that asks for a step or a preset has a new REQ_ID. -/
def Dev.askTick (d : Dev) (l : Nat) : Dev :=
  let r := (Config.tapAsk l d.draws).toNat % 256
  let old := (d.lane l).ask.toNat / 256
  let tap := r % 8
  if tap = 7 ∨ (1 ≤ tap ∧ tap ≤ 4 ∧ (r / 8 % 4 = 1 ∨ r / 8 % 4 = 2)) then
    d.onLane l (fun x => { x with ask := BitVec.ofNat 16 (r + 256 * ((old + 1) % 64)) })
  else d

/-- Every transmitter sends the `i`-th column of the frame. -/
def Dev.sendColumn (d : Dev) (k i : Nat) : Dev :=
  let ps := d.validPorts.filter (fun p => (d.lanesOf p).all (fun l => (d.lane l).st == .service))
  let d1 := ps.foldl (fun (x : Dev) p => x.sendPort p k) d
  let own := ps.flatMap d.lanesOf
  let d2 := ((d.lanes.map (·.1)).filter (fun l => ! own.contains l)).foldl (fun (x : Dev) l => x.sendLane l k i) d1
  { d2 with ports := d2.ports.map (fun (e : Nat × Port) => if e.2.eiSend then (e.1, { e.2 with eiSend := false }) else e) }

/-- The columns of the frame are sent; acts by the frame have had one more unit (R517). -/
def Dev.sendTick (d : Dev) : Dev :=
  let tuning := (d.lanes.filter (fun e => e.2.st == .tune)).map (·.1)
  let d1 : Dev := if tuning.isEmpty then d
    else { tuning.foldl (fun (x : Dev) l => x.askTick l) d with draws := d.draws + 1 }
  let d2 := if d1.lanes.isEmpty then d1 else d1.colsNow.zipIdx.foldl (fun (x : Dev) c => x.sendColumn c.1 c.2) d1
  let d3 := { d2 with lanes := d2.lanes.map (fun (e : Nat × Lane) => if e.2.injOwed = 0 then e else (e.1, { e.2 with injOwed := 0 })) }
  ((d3.injs.filter (fun (e : Nat × Option Inj) => e.2.isSome)).map (·.1)).foldl (fun (x : Dev) p =>
    if (x.injOn p 2 1).isSome then (x.injUnits p 1).refreshXoff p else x) d3

end Sys2Proof.Machine
end

