-- ==== Sys2Proof/Machine/Frame.lean ====
section
/-! DEFINITION. The frame boundary (R55-R66) and the alignment of frames (R44-R52): what ends with a frame, what a boundary sets for
the next ones, and the control actions and reads sampled at it. -/

namespace Sys2Proof.Machine

/-! ## The end of a frame -/

/-- Cycles of a frame in which a VC is stopped by the partner's XOFF, or stops the partner (TXSTALL, RXXOFF of R490), at the frame's
resolution. -/
def Dev.stallTick (d : Dev) : Dev :=
  let n := d.frm.len
  d.validPorts.foldl (fun (x : Dev) p =>
    ((List.range 16).filter vcFc).foldl (fun (y : Dev) v =>
      let waits := y.isUp p && (y.port p).rxXoff.getLsbD v &&
        (match y.queue.find? (fun q => q.out == p && q.vc == v && ! q.begun) with | some q => y.ready q | none => false)
      let z := if waits then y.add64 (rp 0x10 (0x300 + 0x10 * v) p) n else y
      if (z.port p).txXoff.getLsbD v then z.add64 (rp 0x10 (0x308 + 0x10 * v) p) n else z) x) d

/-- A snapshot and a clear of watermarks of the frame take the state at its end (R492, R495). -/
def Dev.depthTick (d : Dev) : Dev :=
  let d1 : Dev := { d.setDepths d.wmarkDue with wmarkDue := false }
  if d1.snapDue then { d1.snap with snapDue := false } else d1

/-- CFG_LOCK engages at the end of the frame (R441). -/
def Dev.lockTick (d : Dev) : Dev :=
  if d.col.lockDue then d.onCol (fun x => { x with cfgLock := true, lockDue := false }) else d

/-- Condition words of the frame in ascending order. -/
def Dev.frameWords (d : Dev) : List Nat := (d.words.map (fun w => w.toNat)).insertionSort (· ≤ ·)

/-- CONDITION records of the frame (R408), then OBVO 06h for the records it lost (R409). -/
def Dev.condTick (d : Dev) : Dev :=
  let mask := d.rd (ra 0xB 8)
  let d1 := (d.frameWords.filter (fun w => Machine.bit mask (w / 2 ^ 24) && w / 2 ^ 16 != 0xB06)).foldl
    (fun (x : Dev) w => x.event 1 (leBytes 4 w ++ zeros 4)) d
  if 0 < d1.obvo.lostFrame then d1.raise 0xB 6 (min d1.obvo.lostFrame 0xFFFF) else d1

/-- Answer a read of the frame with the state at its end (R59, R404). -/
def State.answerRead (s : State) (r : RdAct) : State :=
  let back := s.dev.obvo.cmds.find? (fun c => c.id == r.cmd)
  let put (data : List Byte) (t : State) : State :=
    match back with
    | none => t
    | some c => t.onDev (fun d =>
        (d.onObvo (fun x => { x with cmds := x.cmds.filter (fun e => e.id != c.id) })).reply c { cond := 0, frame := d.frame32, data := data })
  match r.kind with
  | .regs a n =>
    let m := s.readMany r.src a n
    put m.1 m.2
  | .one a => s.readOut r.src a
  | .status => put s.statusData s

/-- Every read sampled in the frame is answered, in the order in which the reads were sampled. -/
def State.readTick (s : State) : State :=
  s.dev.obvo.reads.foldl State.answerRead (s.onDev (fun d => d.onObvo (fun x => { x with reads := [] })))

/-- What ends with a frame: what was held for an activation that did not come takes effect, the columns that began in it are sent, and its counts, conditions and reads are settled. -/
def State.endFrame (s : State) : State :=
  (s.runHeld.onDev (fun d => d.qclrAll.holdsMoved.catTick.fanTick.sendTick.stallTick.depthTick.cntTick.lockTick.condTick)).readTick

/-! ## The new frame -/

/-- The frame number runs on (R48, R51). -/
def Frm.next (f : Frm) : Frm :=
  { f with no := f.nextNo.getD (f.no + 1), nextNo := none, elapsed := f.elapsed + 1, len := 256, rackBack := false
           extra := if f.len = 256 then f.extra else f.extra ++ [(f.elapsed, f.len - 256)]
           st := if f.rackBack then .free else f.st }

/-- Budgets of the next frame become this frame's. -/
def shift2 (l : List (Nat × (Nat × Nat))) : List (Nat × (Nat × Nat)) :=
  (l.map (fun e => (e.1, (e.2.2, 0)))).filter (fun e => e.2 != (0, 0))

/-- What is counted by the frame starts afresh. -/
def Dev.beginFrame (d : Dev) : Dev :=
  { d with
    frm := d.frm.next, raised := [], words := [], inj := [], injAll := [], reps := [], cntServed := 0, units := shift2 d.units, stackU := shift2 d.stackU
    obvo := { d.obvo with lostFrame := 0 }
    ports := d.ports.map (fun e => (e.1, { e.2 with ctlBegun := 0, protoSent := [] }))
    col := { d.col with sent := d.col.sent.filter (fun e => decide (d.frm.elapsed + 1 < e.2.1 + 100)) } }

/-- A stage by occupancy (R176). -/
def stageOf (size used old : Nat) : Nat :=
  let thr (n : Nat) : Nat := if n = 1 then 50 else if n = 2 then 75 else 90
  let reached (n : Nat) : Bool := decide (thr n * size ≤ 100 * used)
  let left (n : Nat) : Bool := decide (100 * used < (thr n - 5) * size)
  let up := if reached 3 then 3 else if reached 2 then 2 else if reached 1 then 1 else 0
  if size = 0 then 0 else max up (if old = 3 ∧ ! left 3 then 3 else if 2 ≤ old ∧ ! left 2 then 2 else if 1 ≤ old ∧ ! left 1 then 1 else 0)

/-- Pool stages and watermarks (R176). -/
def Dev.poolTick (d : Dev) : Dev :=
  if ! d.plat.active then d else
  (List.range 24).foldl (fun (x : Dev) i =>
    let k := i / 6
    let j := i % 6
    let size := x.poolSize k j
    let used := x.poolUsed k j
    let old := x.stage k j
    let new := stageOf size used old
    let y : Dev := { x with stages := mapSet 0 x.stages (k * 8 + j) new }
    let a := ra 5 (0x400008 + 0x20 * j + 0x1000 * k)
    let z := if (y.rd a).toNat < used then y.wr a (word used) else y
    if old < new then z.raise 5 4 (k * 0x4000 + j * 0x800 + new) else z) d

/-- Corridors of an output in force in a frame F, or foreseen for F+1. -/
def Dev.corrNear (d : Dev) (o : Nat) : List Nat := (d.corrAt o d.fno ++ d.corrAt o (d.fno + 1)).dedup

/-- The budgets of an output that stays in service (R176, R184, R215): those set a frame ago, and those of the next frame. -/
def Dev.budTick (d : Dev) (p : Nat) : Dev :=
  if ! d.isUp p || d.txIdle p then d else
  let d1 := (List.range 7).foldl (fun (x : Dev) c =>
    x.setBud p c (if x.staged p c then (0, 0) else ((x.budOf p c).2, x.newBud p c (x.fno + 1)))) d
  let near := d1.corrNear p
  let d2 : Dev := { d1 with corr := d1.corr.filter (fun e => (d1.ct e.1).outP != p || near.contains e.1) }
  near.foldl (fun (x : Dev) i =>
    { x with corr := mapSet (0, 0) x.corr i ((mapGet (0, 0) x.corr i).2, if x.ctIn (x.ovlAt (x.fno + 1)) i then (x.ct i).cells else 0) }) d2

/-- Throttle states (R212). -/
def Dev.thrTick (d : Dev) : Dev :=
  if ! d.bit (ra 6 4) 15 then d.wr (ra 6 0x80) 0 else
  (List.range 18).foldl (fun (x : Dev) i =>
    let g := i / 3 + 1
    let c := i % 3 + 3
    let ps := x.group g
    let used := (ps.map (fun p => x.uSum p c)).sum
    let room := (ps.map (fun p => x.vcs p c * x.capOf p c)).sum
    let on := x.bit (ra 6 0x80) i
    if ! on && decide (0 < room ∧ x.fld (ra 6 8) 8 8 * room ≤ 256 * used) then (x.setBit (ra 6 0x80) i true).raise 6 0xD (g * 256 + c)
    else if on && decide (256 * used ≤ x.fld (ra 6 8) 16 8 * room) then x.setBit (ra 6 0x80) i false
    else x) d

/-- PLAT_STAT.PLAN (R390). -/
def Dev.planNow (d : Dev) : Plan :=
  let miss (p : Nat) : Bool := (d.port p).missing || (d.port p).st == .quar
  let lost := d.validPorts.filter miss
  if lost = [] then .full
  else if lost.any (fun p => Machine.bit (d.nb (d.role p)) 30) ∨
      (List.range 6).any (fun i => decide (((d.group (i + 1)).filter (fun p => ! miss p)).length < d.fld (ra 0xA 0x50) (4 * i) 4)) then .belowMin
  else .degraded

/-- The condition a change of PLAN raises. -/
def planCond : Plan → Nat
  | .degraded => 0xB
  | .belowMin => 0xC
  | _ => 0xD

def Dev.planTick (d : Dev) : Dev :=
  if ! d.plat.active then d
  else if d.planNow = d.plat.plan then d
  else (d.onPlat (fun x => { x with plan := d.planNow })).raise 0xA (planCond d.planNow) 0

/-- A change of a port's state that was due takes place (R113): what no longer fits its state is dropped. -/
def Dev.takeDue (d : Dev) (p : Nat) (u : Due) : Dev :=
  let x := d.port p
  match u with
  | .down => d.portLeave p .down 0
  | .quar c => if x.st = .up then d.portLeave p .quar c else d
  | .swapped q => if x.st = .exchange ∨ (x.st = .check ∧ ! x.decided) then d.quarantine p 3 7 q else d
  | .up => if x.st = .quar then d.resumeUp p else if x.st = .check ∧ x.decided ∧ x.upReady then d.enterUp p else d
  | .check => d.checkNow p
  | .exchange =>
    if x.st = .down then
      d.setPort p { st := .exchange, tExch := d.now, wasUp := x.wasUp, tOut := x.tOut, missing := x.missing
                    rxWakeAt := x.rxWakeAt, rxDeskew := x.rxDeskew }
    else d

/-- The order in which what is due takes place: what takes a port down comes first (log 38). -/
def dueRank : Due → Nat
  | .down => 0
  | .quar _ => 1
  | .swapped _ => 2
  | .up => 3
  | .check => 4
  | .exchange => 5

/-- Every change of a port's state that is due; a port that goes down makes no other (R113). -/
def Dev.dueTick (d : Dev) : Dev :=
  let l := d.ports.flatMap (fun e => if e.2.due.contains .down then [(e.1, Due.down)] else e.2.due.map (fun u => (e.1, u)))
  let d1 : Dev := { d with ports := d.ports.map (fun e => if e.2.due = [] then e else (e.1, { e.2 with due := [] })) }
  ((List.range 6).flatMap (fun r => l.filter (fun e => dueRank e.2 == r))).foldl (fun (x : Dev) e => x.takeDue e.1 e.2) d1

/-- A port at a boundary: RX_EI (R102), its idle frames (R101), frames that R115's wait does not count, and its violation window
(R137). -/
def Dev.portTick (d : Dev) (p : Nat) : Dev :=
  let d3 := d.clearRxEi p
  let held := d3.queue.any (fun q => q.out == p) || ! (d3.port p).replay.isEmpty
  let still := d3.isUp p && ! held && ! (d3.port p).busy
  let idle := if still then (d3.port p).idle + 1 else 0
  let d4 := if (d3.port p).busy = held ∧ (d3.port p).idle = idle then d3 else d3.onPort p (fun x => { x with busy := held, idle := idle })
  let d5 := if (d4.port p).st = .exchange ∧ d4.exchWaits p then d4.onPort p (fun x => { x with tWaited := x.tWaited + 1 }) else d4
  if (d5.port p).violCount ≠ 0 ∧ d5.fno % 2 ^ min 24 (d5.fld (rp 3 0xC (d5.role p)) 8 5) = 0 then d5.onPort p (fun x => { x with violCount := 0 }) else d5

/-- Taps stay within limits that a write lowered (R438). -/
def Dev.tapTick (d : Dev) : Dev :=
  (d.lanes.map (·.1)).foldl (fun (x : Dev) l =>
    let t := x.clampTaps l (x.lane l).taps
    if (x.lane l).st = .off ∨ t = (x.lane l).taps then x else x.onLane l (fun y => { y with taps := t })) d

/-- An Obvo port that lost lock trains again (R397). -/
def Obvo.retrain (x : Obvo) : Obvo :=
  { x with inSt := if x.inSt = .down then .train else x.inSt, outSt := if x.outSt = .down then .train else x.outSt }

/-- One change of an Obvo port's state is sampled (R397). -/
def Dev.takeSide (d : Dev) (e : Side × ObvoSt) : Dev :=
  if e.2 = .down then (if d.sideUp e.1 then (d.onObvo (fun x => x.setSide .down e.1)).raise 0xB 1 (sideBit e.1) else d)
  else d.onObvo (fun x => x.setSide e.2 e.1)

/-- The Obvo ports at a boundary: one that went down trains, then the changes since the last boundary are sampled, and the flags of a
port that is not in UP clear (R55, R397, R402). -/
def Dev.obvoTick (d : Dev) : Dev :=
  let d0 := if d.obvoPowered && d.frm.st != .lost then d.onObvo Obvo.retrain else d
  let d1 := d0.obvo.due.foldl Dev.takeSide (d0.onObvo (fun x => { x with due := [] }))
  let clear (x : Dev) (s : Side) (v : Bool) : Dev := if v && ! x.sideUp s then x.onFlags (fun o => o.unvalid s) else x
  clear (clear d1 .obIn d.obvo.validA) .obOut d.obvo.validB

/-- Parts whose calibration, training or test has ended well are UP (R40, R41). -/
def Dev.passTick (d : Dev) (l : List Part) : Dev :=
  (l.filter (fun pt => d.partSt pt == .init)).foldl (fun (x : Dev) pt => x.setPart pt .up) d

/-- Words in which bridges, cell buffers, stores and stacks corrected one symbol (R28, R173, R251, R355). -/
def Dev.correctTick (d : Dev) (f : FrameIn) : Dev :=
  let d1 := f.bridgeCe.foldl (fun (x : Dev) e => x.add64 (ra 0 (0x100 + 8 * e.1.val)) e.2) d
  let d2 := f.bufCe.foldl (fun (x : Dev) e => x.add64 (ra 5 (0x400F08 + 0x1000 * e.1.val)) e.2) d1
  let d3 := f.storeCe.foldl (fun (x : Dev) e => x.addSat (ra 7 (0x400034 + 0x1000 * e.1.val)) e.2) d2
  f.basinCe.foldl (fun (x : Dev) e => x.add64 (ra 9 (0x100 + 0x20 * e.1.val)) e.2) d3

/-- What a new frame begins with: its number, budgets, and what hardware found since the last boundary. -/
def Dev.newFrame (d : Dev) (f : FrameIn) : Dev :=
  let d1 := (((d.correctTick f).beginFrame.passTick f.passed).onPwr (fun x => { x with hot := f.hot })).poolTick
  d1.validPorts.foldl (fun (x : Dev) p => x.budTick p) d1

/-- Link events, and the levels of pins, sampled at the boundary (R55). -/
def Dev.eventTick (d : Dev) : Dev := (d.validPorts.foldl (fun (x : Dev) p => x.portTick p) d.dueTick).obvoTick.brakeTick

/-- What follows from the inputs that took effect: throttling, PLAN, power, taps. -/
def Dev.afterActs (d : Dev) (f : FrameIn) : Dev :=
  ((d.thrTick.planTick).powerTick f.pEst.toNat).tapTick

/-- Abort causes found at a boundary, and ranked copies released (R286, R292, R311). -/
def Dev.checkTick (d : Dev) : Dev :=
  let d1 := (d.launches.map (·.1)).foldl (fun (x : Dev) g => x.launchCheck g) d
  (d1.rounds.map (·.1)).foldl (fun (x : Dev) r => x.rankRelease r) d1

/-- A part entered FAULT in the frame before: the data path is reset (R42). -/
def State.dpTick (s : State) : State := if s.dev.dpDue then s.dpBegin 4 else s

/-- A frame boundary: the old frame ends; the new one begins; inputs are sampled, settled and take effect; what follows from them. -/
def State.boundary (s : State) (f : FrameIn) : State :=
  let s1 := (s.endFrame.onDev (fun d => d.newFrame f)).dpTick
  let s2 := (s1.onDev Dev.eventTick).sampleInputs
  s2.actTick.onDev (fun d => (d.afterActs f).checkTick)

/-- FRAME_BOUNDARY (R55). -/
def execFrameBoundary (f : FrameIn) (s : State) : Host.Outcome State Fault Refusal := .next (s.boundary f)

/-! ## TICKSYNC and RACKCLK (R46-R51) -/

/-- FRM_TSKEW as a number of cycles. -/
def skewOf (w : BitVec 6) : Int := sInt 6 w.toNat

/-- The stretched frame of an armed pulse at cycle `cyc`: its length, and the boundaries of the new alignment left before the loaded
one (R48). -/
def stretch (cyc dist : Nat) : Nat × Nat :=
  if 512 ≤ dist ∧ 256 ≤ cyc + dist - 512 then (cyc + dist - 512, 2)
  else if 256 ≤ dist ∧ 256 ≤ cyc + dist - 256 then (cyc + dist - 256, 1) else (cyc + dist, 0)

/-- An armed pulse (R48). -/
def Dev.realign (d : Dev) (cyc : Nat) : Dev :=
  let sk : BitVec 6 := BitVec.ofNat 6 (d.fld (ra 1 0x14) 0 6)
  let (n, j) := stretch cyc ((512 + skewOf sk).toNat)
  let d1 : Dev := { d with frm := { d.frm with
    st := .locked, skew := sk, len := n, missRun := 0
    nextNo := some (BitVec.ofNat 48 ((d.rd (ra 1 0x10)).toNat * 65536 + 2 ^ 48 - j)) } }
  d1.setBit (ra 1 0xC) 0 false

/-- Core cycles from cycle `cyc` of the frame in progress to the next boundary that begins a frame whose number has low 16 bits 0000h,
with the numbering that an armed pulse has already set for the frames to come (R47, R48). -/
def Dev.toRound (d : Dev) (cyc : Nat) : Int :=
  let next := (d.frm.nextNo.getD (d.frm.no + 1)).toNat % 65536
  ((65536 - next) % 65536 : Nat) * 256 + (d.frm.len : Int) - cyc

/-- Offset of an unarmed pulse from the expected edge, in RACKCLK periods (R47, R49). -/
def Dev.pulseOffset (d : Dev) (cyc : Nat) : Int :=
  let a := 512 + skewOf d.frm.skew - d.toRound cyc
  let b := a + 2 ^ 24
  let late := if b.natAbs < a.natAbs then b else a
  (late * 50 + 512) / 1024

/-- TICKSYNC_PULSE (R47-R49). -/
def execTicksyncPulse (cyc : BitVec 9) (s : State) : Host.Outcome State Fault Refusal :=
  devStep (fun d =>
    if d.frm.st = .lost then d
    else if d.bit (ra 1 0xC) 0 then d.realign cyc.toNat
    else if d.frm.st = .free then d
    else
      let o := d.pulseOffset cyc.toNat
      if o = 0 then { d with frm := { d.frm with st := .locked, missRun := 0 } }
      else d.raise 1 1 (if - 32768 ≤ o ∧ o < 32768 then uInt 16 o else (Config.slipDetail o).toNat)) s

/-- TICKSYNC_MISS: an expected edge passes without a pulse. -/
def execTicksyncMiss (s : State) : Host.Outcome State Fault Refusal :=
  devStep (fun d =>
    if d.aligned then
      let n := d.frm.missRun + 1
      let d1 : Dev := { d with frm := { d.frm with missRun := n, st := if 2 ≤ n then .holdover else d.frm.st } }
      (d1.addSat (ra 1 0x18) 1).raise 1 2 (min n 0xFFFF)
    else d) s

/-- RACKCLK_LOST (R51): the Obvo ports lose lock, and train when RACKCLK returns (R546). -/
def execRackclkLost (s : State) : Host.Outcome State Fault Refusal :=
  devStep (fun d =>
    if d.frm.st = .lost then { d with frm := { d.frm with rackBack := false } }
    else ((({ d with frm := { d.frm with st := .lost, missRun := 0, rackBack := false } } : Dev).raise 1 3 0).sideLater .obIn .down).sideLater .obOut .down) s

/-- RACKCLK_RETURN (R51): 1,024 consecutive periods; FREE from the next boundary. -/
def execRackclkReturn (s : State) : Host.Outcome State Fault Refusal :=
  devStep (fun d => if d.frm.st = .lost then { d with frm := { d.frm with rackBack := true } } else d) s

end Sys2Proof.Machine
end

