-- ==== Sys2Proof/Machine/Dispatch.lean ====
section
/-! DEFINITION. The meaning of each command: one arm per constructor of `Instr`, one direct call each. -/

namespace Sys2Proof.Machine

/-- A command's effect on everything but the queue. -/
def exec (i : Instr) (s : State) : Host.Outcome State Fault Refusal :=
  match i with
  | .frameBoundary f => Sys2Proof.Machine.execFrameBoundary f s
  | .ticksyncPulse cyc => Sys2Proof.Machine.execTicksyncPulse cyc s
  | .ticksyncMiss => Sys2Proof.Machine.execTicksyncMiss s
  | .rackclkLost => Sys2Proof.Machine.execRackclkLost s
  | .rackclkReturn => Sys2Proof.Machine.execRackclkReturn s
  | .frmArm src v => Sys2Proof.Machine.execFrmArm src v s
  | .frmNoLoRead src => Sys2Proof.Machine.execFrmNoLoRead src s
  | .pairLoRead src addr => Sys2Proof.Machine.execPairLoRead src addr s
  | .pairHiRead src addr => Sys2Proof.Machine.execPairHiRead src addr s
  | .registerWrite src addr v => Sys2Proof.Machine.execRegisterWrite src addr v s
  | .peerSkewClear p => Sys2Proof.Machine.execPeerSkewClear p s
  | .boundMiss p id => Sys2Proof.Machine.execBoundMiss p id s
  | .laneEnable src l v => Sys2Proof.Machine.execLaneEnable src l v s
  | .laneDisable src l v => Sys2Proof.Machine.execLaneDisable src l v s
  | .retrain src l v => Sys2Proof.Machine.execRetrain src l v s
  | .loopbackSelect src l v => Sys2Proof.Machine.execLoopbackSelect src l v s
  | .equaliserSettled l => Sys2Proof.Machine.execEqualiserSettled l s
  | .lockAcquired l => Sys2Proof.Machine.execLockAcquired l s
  | .lockLost l => Sys2Proof.Machine.execLockLost l s
  | .eqiUpdate l up1 low0 up2 low1 up3 low2 => Sys2Proof.Machine.execEqiUpdate l up1 low0 up2 low1 up3 low2 s
  | .txeqRequest l req => Sys2Proof.Machine.execTxeqRequest l req s
  | .trainTimeout l => Sys2Proof.Machine.execTrainTimeout l s
  | .signalLost l => Sys2Proof.Machine.execSignalLost l s
  | .laneclkLost d => Sys2Proof.Machine.execLaneclkLost d s
  | .portDeskew p skewNs consistent => Sys2Proof.Machine.execPortDeskew p skewNs consistent s
  | .codewordDecode p col => Sys2Proof.Machine.execCodewordDecode p col s
  | .lswReceive p w => Sys2Proof.Machine.execLswReceive p w s
  | .eiEnter p => Sys2Proof.Machine.execEiEnter p s
  | .eiEnterReceived p => Sys2Proof.Machine.execEiEnterReceived p s
  | .wakeStart p => Sys2Proof.Machine.execWakeStart p s
  | .wakeComplete p => Sys2Proof.Machine.execWakeComplete p s
  | .wakeFail p => Sys2Proof.Machine.execWakeFail p s
  | .rxWake p => Sys2Proof.Machine.execRxWake p s
  | .rxWakeFail p => Sys2Proof.Machine.execRxWakeFail p s
  | .patternGeneratorSet src l v => Sys2Proof.Machine.execPatternGeneratorSet src l v s
  | .patternCheckerSet src l v => Sys2Proof.Machine.execPatternCheckerSet src l v s
  | .chkLock l => Sys2Proof.Machine.execChkLock l s
  | .checkerReseed l rx seed => Sys2Proof.Machine.execCheckerReseed l rx seed s
  | .laneInjGo src l v => Sys2Proof.Machine.execLaneInjGo src l v s
  | .laneInjEnd l => Sys2Proof.Machine.execLaneInjEnd l s
  | .identReceived p id => Sys2Proof.Machine.execIdentReceived p id s
  | .timeProbe p n turnaround => Sys2Proof.Machine.execTimeProbe p n turnaround s
  | .timeReply p n cycles turnaround => Sys2Proof.Machine.execTimeReply p n cycles turnaround s
  | .portCheck p => Sys2Proof.Machine.execPortCheck p s
  | .swapWaitExpire p => Sys2Proof.Machine.execSwapWaitExpire p s
  | .exchangeTimeout p => Sys2Proof.Machine.execExchangeTimeout p s
  | .upReady p => Sys2Proof.Machine.execUpReady p s
  | .upReadyTimeout p => Sys2Proof.Machine.execUpReadyTimeout p s
  | .nbMissing p => Sys2Proof.Machine.execNbMissing p s
  | .linkQclr src p v => Sys2Proof.Machine.execLinkQclr src p v s
  | .portDisable src p => Sys2Proof.Machine.execPortDisable src p s
  | .portEnable src p => Sys2Proof.Machine.execPortEnable src p s
  | .retryReqReceived p ack reqId => Sys2Proof.Machine.execRetryReqReceived p ack reqId s
  | .retryStartReceived p reqId => Sys2Proof.Machine.execRetryStartReceived p reqId s
  | .reqTimeout p => Sys2Proof.Machine.execReqTimeout p s
  | .ackReceived p ack => Sys2Proof.Machine.execAckReceived p ack s
  | .protoErrReceived p code => Sys2Proof.Machine.execProtoErrReceived p code s
  | .trainSelect p b => Sys2Proof.Machine.execTrainSelect p b s
  | .trainComplete p => Sys2Proof.Machine.execTrainComplete p s
  | .headerLookup p pk sinceXoff => Sys2Proof.Machine.execHeaderLookup p pk sinceXoff s
  | .cellConfirm id => Sys2Proof.Machine.execCellConfirm id s
  | .cellStomp id => Sys2Proof.Machine.execCellStomp id s
  | .admissionRound r => Sys2Proof.Machine.execAdmissionRound r s
  | .orderPresent id => Sys2Proof.Machine.execOrderPresent id s
  | .orderRelease id => Sys2Proof.Machine.execOrderRelease id s
  | .orderTimeout id => Sys2Proof.Machine.execOrderTimeout id s
  | .sampleConsume src k v => Sys2Proof.Machine.execSampleConsume src k v s
  | .coreWmarkClr src => Sys2Proof.Machine.execCoreWmarkClr src s
  | .bridgeUncorr b die it => Sys2Proof.Machine.execBridgeUncorr b die it s
  | .partFault part => Sys2Proof.Machine.execPartFault part s
  | .coordWrite src v => Sys2Proof.Machine.execCoordWrite src v s
  | .routeActGo src v => Sys2Proof.Machine.execRouteActGo src v s
  | .routeActCancel src v => Sys2Proof.Machine.execRouteActCancel src v s
  | .drainStart => Sys2Proof.Machine.execDrainStart s
  | .activated => Sys2Proof.Machine.execActivated s
  | .parkedRepresent p => Sys2Proof.Machine.execParkedRepresent p s
  | .bypassDetect v => Sys2Proof.Machine.execBypassDetect v s
  | .bypassMessage id => Sys2Proof.Machine.execBypassMessage id s
  | .catContrib id => Sys2Proof.Machine.execCatContrib id s
  | .catPartial id => Sys2Proof.Machine.execCatPartial id s
  | .clusterAdmit id => Sys2Proof.Machine.execClusterAdmit id s
  | .accumulate id uncorr => Sys2Proof.Machine.execAccumulate id uncorr s
  | .retract id => Sys2Proof.Machine.execRetract id s
  | .chunkComplete g c => Sys2Proof.Machine.execChunkComplete g c s
  | .partialEmit g c => Sys2Proof.Machine.execPartialEmit g c s
  | .resultHandover g c => Sys2Proof.Machine.execResultHandover g c s
  | .catLaunchGo src v => Sys2Proof.Machine.execCatLaunchGo src v s
  | .catLaunchAbort src v => Sys2Proof.Machine.execCatLaunchAbort src v s
  | .launchStart g => Sys2Proof.Machine.execLaunchStart g s
  | .launchDone g => Sys2Proof.Machine.execLaunchDone g s
  | .stepTimeout g => Sys2Proof.Machine.execStepTimeout g s
  | .catHold id => Sys2Proof.Machine.execCatHold id s
  | .catResult id => Sys2Proof.Machine.execCatResult id s
  | .catAbort id => Sys2Proof.Machine.execCatAbort id s
  | .abortFrame g => Sys2Proof.Machine.execAbortFrame g s
  | .catFenceWrite src w v => Sys2Proof.Machine.execCatFenceWrite src w v s
  | .scoreboardSelect src addr v => Sys2Proof.Machine.execScoreboardSelect src addr v s
  | .fanRoundGo src v => Sys2Proof.Machine.execFanRoundGo src v s
  | .fanRoundAbort src v => Sys2Proof.Machine.execFanRoundAbort src v s
  | .roundOpen r => Sys2Proof.Machine.execRoundOpen r s
  | .roundClose r => Sys2Proof.Machine.execRoundClose r s
  | .rank r => Sys2Proof.Machine.execRank r s
  | .rankFallback r => Sys2Proof.Machine.execRankFallback r s
  | .roundDone r => Sys2Proof.Machine.execRoundDone r s
  | .roundTimeout r => Sys2Proof.Machine.execRoundTimeout r s
  | .fanDispatch id => Sys2Proof.Machine.execFanDispatch id s
  | .dispatchAdmit id => Sys2Proof.Machine.execDispatchAdmit id s
  | .fanCopy id => Sys2Proof.Machine.execFanCopy id s
  | .windowBoundary e => Sys2Proof.Machine.execWindowBoundary e s
  | .fanOutForward id => Sys2Proof.Machine.execFanOutForward id s
  | .fanOutCombine id => Sys2Proof.Machine.execFanOutCombine id s
  | .fanRetract id => Sys2Proof.Machine.execFanRetract id s
  | .fanNotice id => Sys2Proof.Machine.execFanNotice id s
  | .combineSend p round token => Sys2Proof.Machine.execCombineSend p round token s
  | .fanAbortMessage id => Sys2Proof.Machine.execFanAbortMessage id s
  | .fanAbortFrame r => Sys2Proof.Machine.execFanAbortFrame r s
  | .basRead id => Sys2Proof.Machine.execBasRead id s
  | .basWrite id => Sys2Proof.Machine.execBasWrite id s
  | .basMread id => Sys2Proof.Machine.execBasMread id s
  | .basAdd id => Sys2Proof.Machine.execBasAdd id s
  | .basCas id => Sys2Proof.Machine.execBasCas id s
  | .basinAdmit id => Sys2Proof.Machine.execBasinAdmit id s
  | .segmentGrant slot => Sys2Proof.Machine.execSegmentGrant slot s
  | .scrubVisit da f => Sys2Proof.Machine.execScrubVisit da f s
  | .platLoadStart src => Sys2Proof.Machine.execPlatLoadStart src s
  | .platLoadClear src => Sys2Proof.Machine.execPlatLoadClear src s
  | .platLoadInstall src => Sys2Proof.Machine.execPlatLoadInstall src s
  | .platVerify => Sys2Proof.Machine.execPlatVerify s
  | .platActGo src v => Sys2Proof.Machine.execPlatActGo src v s
  | .platActCancel src v => Sys2Proof.Machine.execPlatActCancel src v s
  | .platDrainStart => Sys2Proof.Machine.execPlatDrainStart s
  | .platActivate => Sys2Proof.Machine.execPlatActivate s
  | .bootRestore => Sys2Proof.Machine.execBootRestore s
  | .obvoRd side tag addr count => Sys2Proof.Machine.execObvoRd side tag addr count s
  | .obvoWr side tag addr vals => Sys2Proof.Machine.execObvoWr side tag addr vals s
  | .obvoWrm side tag addr mask v => Sys2Proof.Machine.execObvoWrm side tag addr mask v s
  | .dmaWr side tag target off data => Sys2Proof.Machine.execDmaWr side tag target off data s
  | .dmaRd side tag target off rlen => Sys2Proof.Machine.execDmaRd side tag target off rlen s
  | .beacon side passed fromB => Sys2Proof.Machine.execBeacon side passed fromB s
  | .obvoForward side pk => Sys2Proof.Machine.execObvoForward side pk s
  | .obvoPortUp side => Sys2Proof.Machine.execObvoPortUp side s
  | .obvoPortDown side => Sys2Proof.Machine.execObvoPortDown side s
  | .beaconTimeout side => Sys2Proof.Machine.execBeaconTimeout side s
  | .eventSend => Sys2Proof.Machine.execEventSend s
  | .pecBad => Sys2Proof.Machine.execPecBad s
  | .setEndpointId eid => Sys2Proof.Machine.execSetEndpointId eid s
  | .getEndpointId => Sys2Proof.Machine.execGetEndpointId s
  | .getMctpVersionSupport => Sys2Proof.Machine.execGetMctpVersionSupport s
  | .getMessageTypeSupport => Sys2Proof.Machine.execGetMessageTypeSupport s
  | .getVersion => Sys2Proof.Machine.execGetVersion s
  | .getCapabilities => Sys2Proof.Machine.execGetCapabilities s
  | .negotiateAlgorithms => Sys2Proof.Machine.execNegotiateAlgorithms s
  | .getDigests => Sys2Proof.Machine.execGetDigests s
  | .getCertificate => Sys2Proof.Machine.execGetCertificate s
  | .challenge => Sys2Proof.Machine.execChallenge s
  | .getMeasurements => Sys2Proof.Machine.execGetMeasurements s
  | .spdmUnsupportedRequest => Sys2Proof.Machine.execSpdmUnsupportedRequest s
  | .status eid inst => Sys2Proof.Machine.execStatus eid inst s
  | .regRead eid inst addr count => Sys2Proof.Machine.execRegRead eid inst addr count s
  | .regWrite eid inst addr vals => Sys2Proof.Machine.execRegWrite eid inst addr vals s
  | .capSet eid inst watts => Sys2Proof.Machine.execCapSet eid inst watts s
  | .holdoffSet eid inst => Sys2Proof.Machine.execHoldoffSet eid inst s
  | .holdoffClear eid inst => Sys2Proof.Machine.execHoldoffClear eid inst s
  | .locate eid inst st => Sys2Proof.Machine.execLocate eid inst st s
  | .platStart eid inst len => Sys2Proof.Machine.execPlatStart eid inst len s
  | .platData eid inst off data => Sys2Proof.Machine.execPlatData eid inst off data s
  | .platClear eid inst => Sys2Proof.Machine.execPlatClear eid inst s
  | .platInstall eid inst => Sys2Proof.Machine.execPlatInstall eid inst s
  | .recovStart eid inst kind len => Sys2Proof.Machine.execRecovStart eid inst kind len s
  | .recovData eid inst off data => Sys2Proof.Machine.execRecovData eid inst off data s
  | .recovRun eid inst => Sys2Proof.Machine.execRecovRun eid inst s
  | .colRecovStart src v => Sys2Proof.Machine.execColRecovStart src v s
  | .colRecovRun src v => Sys2Proof.Machine.execColRecovRun src v s
  | .alertResponse => Sys2Proof.Machine.execAlertResponse s
  | .bootRom selfTestOk flashOk => Sys2Proof.Machine.execBootRom selfTestOk flashOk s
  | .colReady src => Sys2Proof.Machine.execColReady src s
  | .colRestart src => Sys2Proof.Machine.execColRestart src s
  | .wdogKick src v => Sys2Proof.Machine.execWdogKick src v s
  | .wdogExpire => Sys2Proof.Machine.execWdogExpire s
  | .cfgLock src v => Sys2Proof.Machine.execCfgLock src v s
  | .tokenCheck src v => Sys2Proof.Machine.execTokenCheck src v s
  | .tokenCheckDone => Sys2Proof.Machine.execTokenCheckDone s
  | .tokenExpire p => Sys2Proof.Machine.execTokenExpire p s
  | .colPacketSend pk => Sys2Proof.Machine.execColPacketSend pk s
  | .colMessage id => Sys2Proof.Machine.execColMessage id s
  | .colFlashWrite off data => Sys2Proof.Machine.execColFlashWrite off data s
  | .avsFault k => Sys2Proof.Machine.execAvsFault k s
  | .avsRecover k => Sys2Proof.Machine.execAvsRecover k s
  | .avsStep k target => Sys2Proof.Machine.execAvsStep k target s
  | .capViolation400 => Sys2Proof.Machine.execCapViolation400 s
  | .brakeStepDown => Sys2Proof.Machine.execBrakeStepDown s
  | .brake low => Sys2Proof.Machine.execBrake low s
  | .diodeRead temps noRise => Sys2Proof.Machine.execDiodeRead temps noRise s
  | .thermStepDown => Sys2Proof.Machine.execThermStepDown s
  | .thermTrip id => Sys2Proof.Machine.execThermTrip id s
  | .tripClr src v hot => Sys2Proof.Machine.execTripClr src v hot s
  | .leakMeasure ra rb => Sys2Proof.Machine.execLeakMeasure ra rb s
  | .leakClr src v => Sys2Proof.Machine.execLeakClr src v s
  | .diodeRetry src v => Sys2Proof.Machine.execDiodeRetry src v s
  | .pwrCapHost src v => Sys2Proof.Machine.execPwrCapHost src v s
  | .pwrHoldSet src v => Sys2Proof.Machine.execPwrHoldSet src v s
  | .pwrHoldClr src v => Sys2Proof.Machine.execPwrHoldClr src v s
  | .coldReset st => Sys2Proof.Machine.execColdReset st s
  | .resetNAssert => Sys2Proof.Machine.execResetNAssert s
  | .resetNRelease st => Sys2Proof.Machine.execResetNRelease st s
  | .dpReset src v => Sys2Proof.Machine.execDpReset src v s
  | .dataPathUp => Sys2Proof.Machine.execDataPathUp s
  | .partInitTimeout => Sys2Proof.Machine.execPartInitTimeout s
  | .perPortReset src w v => Sys2Proof.Machine.execPerPortReset src w v s
  | .railLoss => Sys2Proof.Machine.execRailLoss s
  | .railReturn => Sys2Proof.Machine.execRailReturn s
  | .stbyLoss => Sys2Proof.Machine.execStbyLoss s
  | .ledRefresh => Sys2Proof.Machine.execLedRefresh s
  | .locateHost src v => Sys2Proof.Machine.execLocateHost src v s
  | .cntSnap src v => Sys2Proof.Machine.execCntSnap src v s
  | .cntWmarkClr src v => Sys2Proof.Machine.execCntWmarkClr src v s
  | .cntWinWrite src v => Sys2Proof.Machine.execCntWinWrite src v s
  | .bwWindowEnd => Sys2Proof.Machine.execBwWindowEnd s
  | .cntViewWrite src addr v => Sys2Proof.Machine.execCntViewWrite src addr v s
  | .cntRead id => Sys2Proof.Machine.execCntRead id s
  | .witPatGo src id v => Sys2Proof.Machine.execWitPatGo src id v s
  | .witPatStop src id v => Sys2Proof.Machine.execWitPatStop src id v s
  | .patStart id => Sys2Proof.Machine.execPatStart id s
  | .patPresent id => Sys2Proof.Machine.execPatPresent id s
  | .patResume id => Sys2Proof.Machine.execPatResume id s
  | .witCapGo src c v => Sys2Proof.Machine.execWitCapGo src c v s
  | .witCapStop src c v => Sys2Proof.Machine.execWitCapStop src c v s
  | .capStart c => Sys2Proof.Machine.execCapStart c s
  | .captureWrite c => Sys2Proof.Machine.execCaptureWrite c s
  | .witInjGo src p v => Sys2Proof.Machine.execWitInjGo src p v s
  | .extest => Sys2Proof.Machine.execExtest s
  | .idcode => Sys2Proof.Machine.execIdcode s
  | .samplePreload bits => Sys2Proof.Machine.execSamplePreload bits s
  | .extestPulse => Sys2Proof.Machine.execExtestPulse s
  | .extestTrain => Sys2Proof.Machine.execExtestTrain s
  | .clamp => Sys2Proof.Machine.execClamp s
  | .highz => Sys2Proof.Machine.execHighz s
  | .bypass => Sys2Proof.Machine.execBypass s
  | .testLogicReset => Sys2Proof.Machine.execTestLogicReset s
  | .laneclkReturn d => Sys2Proof.Machine.execLaneclkReturn d s
  | .loaderCommit ok => Sys2Proof.Machine.execLoaderCommit ok s
  | .partInitFail part => Sys2Proof.Machine.execPartInitFail part s
  | .trailCmdUndefined eid inst cmd => Sys2Proof.Machine.execTrailCmdUndefined eid inst cmd s
  | .obvoCmdUndefined side tag ty => Sys2Proof.Machine.execObvoCmdUndefined side tag ty s
  | .mainRailsUp => Sys2Proof.Machine.execMainRailsUp s
  | .unsupportedMessageType => Sys2Proof.Machine.execUnsupportedMessageType s

end Sys2Proof.Machine
end

