-- ==== Sys2Proof/Safety.lean ====
section
/-! DEFINITION. What counts as a safe run, in the terms statements use. -/

namespace Sys2Proof

open Sys2Proof.Machine

/-- A step that neither faults nor refuses. -/
def Completes (s : State) : Prop := ∃ t, step s = .next t

/-- Basin's bytes are in canonical form: addresses strictly rising, none listed at the byte an unlisted one reads as. -/
abbrev Memory.wf (m : List Host.Cell) : Bool := mapWf memDefault m

/-- The state keeps the canonical form of Basin (R332). -/
def MemOk (s : State) : Prop := Memory.wf s.mem = true

end Sys2Proof
end

