-- ==== Sys2Proof/Certificates/Slice0/Obligations.lean ====
section
/-! DEFINITION. The statements for the provers. Each says which rules of spec/ it formalises; its tier, kind and basis are
in OBLIGATIONS.json. -/

namespace Sys2Proof.Claim

open Sys2Proof Sys2Proof.Machine

/-- The command completes in a state of which `P` holds. -/
def Runs (c : Instr) (s : State) (P : State → Prop) : Prop := ∃ t, exec c s = .next t ∧ P t

/-- A register access by this source reaches the device: the trail port acknowledges its address and serves it. -/
def Heard (s : State) (src : Src) : Prop := isTrail src = true → s.dev.service = .full ∧ s.dev.obvo.eid ≠ 0

/-- A write by this source reaches the block of the register: the port serves it, and neither Narrows nor a die refuses it. -/
def Reached (s : State) (src : Src) (a : Nat) : Prop := Heard s src ∧ s.dev.writeRefusal src a = none

/-- The command completes: it joins the inputs that the next boundary samples (R55) and changes nothing else. Sampled, it is one
control action, and that action, as it takes effect (R65, `FrameBoundaryBeginsFrame`), leaves a state of which `P` holds. -/
def Takes (c : Instr) (s : State) (P : State → Prop) : Prop :=
  exec c s = .next (s.wait c) ∧ ∃ x, (s.takeInput c).dev.obvo.acts = s.dev.obvo.acts ++ [x] ∧ P (s.runOp x).2

/-- The command completes: it joins the inputs that the next boundary samples (R55) and changes nothing else. Sampled, it leaves a
state of which `P` holds. -/
def Sampled (c : Instr) (s : State) (P : State → Prop) : Prop := exec c s = .next (s.wait c) ∧ P (s.takeInput c)

/-- The command completes: it joins the inputs that the next boundary samples (R55) and changes nothing else. Sampled, it is one
read, and the answer of that read, with the state at the end of its frame (R59), leaves a state of which `P` holds. -/
def Reads (c : Instr) (s : State) (P : State → Prop) : Prop :=
  exec c s = .next (s.wait c) ∧ ∃ r, (s.takeInput c).dev.obvo.reads = s.dev.obvo.reads ++ [r] ∧ P (s.answerRead r)

/-- What an action does as it takes effect, whichever command it belongs to: the condition word that refuses it, its answer's data, and
the state it leaves. -/
def Does (s : State) (who : Who) (op : ActOp) (P : Option Word → List Byte → State → Prop) : Prop :=
  ∀ (cmd idx : Nat) (later : Bool),
    let r := s.runOp { who := who, op := op, cmd := cmd, idx := idx, deferred := later }
    P r.1.1 r.1.2 r.2

/-- The queue, what flash and fuses keep, and Basin stay. -/
def Kept (s t : State) : Prop := t.pending = s.pending ∧ t.nv = s.nv ∧ t.mem = s.mem

/-- Basin reads as before at every address outside the `n` bytes from `a`. -/
def MemBut (s t : State) (a n : Nat) : Prop := ∀ x, x < a ∨ a + n ≤ x → mapGet memDefault t.mem x = mapGet memDefault s.mem x

/-- Registers other than those named read as before. -/
def RegsBut (s t : State) (as : List Nat) : Prop := ∀ a, a ∉ as → t.dev.rd a = s.dev.rd a

/-- Of the device, only held registers may change. -/
def RegsOnly (s t : State) : Prop := Kept s t ∧ t.dev = { s.dev with regs := t.dev.regs }

/-- The COND register of a condition and its PENDING register. -/
def condRegs (b idx : Nat) : List Nat := [condAddr b idx, condAddr b idx + 4]

/-- What raising the one condition `b`, `c` with DETAIL `det` at COND register `idx` may do beside another change of the
device `e`: the word joins those of the frame, only its COND and PENDING registers change, and ALERT_N may be asserted, at once or when
Col is READY (R435). -/
def RaisedOn (e d : Dev) (b c det idx : Nat) : Prop :=
  d = { e with regs := d.regs, raised := d.raised, words := e.words ++ [condWord b c det]
               obvo := { e.obvo with alert := d.obvo.alert, alertDue := d.obvo.alertDue } } ∧
  (condAddr b idx, condWord b c det) ∈ d.raised ∧ (∀ a, a ∉ condRegs b idx → d.rd a = e.rd a)

/-- The command does nothing but raise one condition. -/
def OnlyRaises (s t : State) (b c det idx : Nat) : Prop := Kept s t ∧ RaisedOn s.dev t.dev b c det idx

/-- Of the device, only lane `l` and the registers named may change. -/
def LaneAnd (s t : State) (l : Nat) (as : List Nat) : Prop :=
  Kept s t ∧ t.dev = { s.dev with lanes := t.dev.lanes, regs := t.dev.regs } ∧ (∀ m, m ≠ l → t.dev.lane m = s.dev.lane m) ∧
  RegsBut s t as

/-- Of the device, only port `p` and the registers named may change, and what is sent on the port joins the outputs. -/
def PortAnd (s t : State) (p : Nat) (as : List Nat) (sent : List Out) : Prop :=
  Kept s t ∧ t.dev = { s.dev with ports := t.dev.ports, regs := t.dev.regs, out := sent ++ s.dev.out } ∧
  (∀ q, q ≠ p → t.dev.port q = s.dev.port q) ∧ RegsBut s t as

/-- A quiet boundary: no input, control action, read or part fault waits, no change of a port is due, and no launch or round is held. -/
def Quiet (s : State) : Prop :=
  s.dev.inputs = [] ∧ s.dev.obvo.acts = [] ∧ s.dev.obvo.held = [] ∧ s.dev.obvo.reads = [] ∧ s.dev.dpDue = false ∧
  s.dev.launches = [] ∧ s.dev.rounds = [] ∧ ∀ p, (s.dev.port p).due = [] ∧ (s.dev.port p).qclrHeld = none

/-- The packet is no longer in the device, and nothing beside the device changed. -/
def Gone (s t : State) (id : Nat) : Prop := Kept s t ∧ ∀ x ∈ t.dev.pkts, x.id ≠ id

/-- The lists of the device keep their books: no loss waits to be settled between commands, and the numbers of packets and
of queue entries lie below the next to be given. -/
def ListsOk (d : Dev) : Prop := d.lost = [] ∧ (∀ k ∈ d.pkts, k.id < d.nextId) ∧ (∀ q ∈ d.queue, q.key < d.nextId)

/-- A change of the device and nothing else. -/
def DevIs (s t : State) (e : Dev) : Prop := Kept s t ∧ t.dev = e

end Sys2Proof.Claim

open Sys2Proof Sys2Proof.Machine Sys2Proof.Claim


/-! ## The machine as a whole -/

/-- A step runs the command at the front of the queue (95_what_each_step_holds.md, spec/opcode_table.json). For every
command and every queue behind it, a step of the state with that command in front is what the command does to the
state with the rest of the queue. On an empty queue a step leaves the state as it is (the model's choice, log 1). No
row of the opcode table has bits, so no word spells a command (the table's fields). -/
def Obligations.StepRunsFrontCommand : Prop :=
  (∀ (c : Instr) (rest : List Instr) (s : State),
    step { s with pending := c :: rest } = exec c { s with pending := rest }) ∧
  (∀ s : State, s.pending = [] → step s = .next s) ∧
  (∀ (s : State) (n w : Nat), s.withFetchWord n w = s)

/-- Every command of the table completes, and none takes from the queue (95_what_each_step_holds.md, R486). Whole
machine, all 246 commands: whatever the state and the operands, the command ends in a next state, never in a fault or
a refusal (where a rule refuses a command, the refusal is its effect), and the commands that wait behind it still
wait, in their order. -/
def Obligations.EveryCommandCompletes : Prop :=
  ∀ (c : Instr) (s : State), ∃ t, exec c s = .next t ∧ t.pending = s.pending

/-- Every step keeps Basin in canonical form (R332, R335). For every state whose Basin bytes are in canonical form
(addresses strictly rising, no byte listed at the value an unlisted byte reads as), a step of any command, resets,
DMA, captures and Basin operations included, ends in a state whose Basin bytes are in that form. -/
def Obligations.EveryStepKeepsMemory : Prop :=
  ∀ s t : State, MemOk s → step s = .next t → MemOk t

/-- Every step settles the losses it notes and keeps the numbers of packets and queue entries below the next (R71,
R186, R189, R479, R480). Whole machine: for every state in which no loss waits and every packet and every queue entry
has a number below the next to be given, a step of any command ends in such a state. The numbers and the list of
losses are the model's own (docstring of State); the statements that take a fresh number or no waiting loss as a
premise rest on this. -/
def Obligations.EveryStepKeepsTheLists : Prop :=
  ∀ s t : State, ListsOk s.dev → step s = .next t → ListsOk t.dev

/-- No command takes back what a fuse holds (R422, R427, R431). Whole machine: whatever the command, the security
version number in the fuses never falls, a final owner state stays final, and every owner key digest that was
programmed is still among the programmed ones. -/
def Obligations.FusesOnlyGain : Prop :=
  ∀ (c : Instr) (s t : State), exec c s = .next t →
    s.nv.svn ≤ t.nv.svn ∧ (s.nv.ownerFinal = true → t.nv.ownerFinal = true) ∧ (∀ k, k ∈ s.nv.owners → k ∈ t.nv.owners)

/-- The reset state, and that it has the invariants (R51, R54, R98, R113, R226, R332, R426, R468). In the reset state
the frame state is FREE (R51) and every FRM_NO_HI latch reads 0 (R54), every lane is OFF, every port DOWN, no packet
is held or queued, Col is in RESET, no plat is active and nothing is staged; registers with a stated reset value read
it: CAT_CFG, BAS_CFG, OBVO_EV_MASK, CNT_CTL, PKT_CFG, PKT_ORDER_CFG and LANE_CTL. Basin is in the canonical form that
EveryStepKeepsMemory keeps, and the lists are as EveryStepKeepsTheLists keeps them. That a byte nothing has written
reads 00h (log 10), that the frame number is 0 and that dies, stacks and bridges are OFF are the values of log 39. -/
def Obligations.ResetState : Prop :=
  let d := State.reset.dev
  MemOk State.reset ∧ (∀ a, mapGet memDefault State.reset.mem a = 0) ∧ ListsOk d ∧
  d.frm.st = .free ∧ d.frm.latTrail = 0 ∧ d.frm.latObvo = 0 ∧ d.frm.latCol = 0 ∧ d.frm.no = 0 ∧
  (∀ l, (d.lane l).st = .off) ∧ (∀ p, (d.port p).st = .down) ∧ d.pkts = [] ∧ d.queue = [] ∧
  d.col.st = .reset ∧ d.plat.active = false ∧ d.plat.load = .empty ∧ d.dies = List.replicate 12 .off ∧
  d.rd (ra 4 0) = 0x00100000 ∧ d.rd (ra 4 4) = 0x1F40 ∧ d.rd (ra 7 0) = 0x06000000 ∧ d.rd (ra 9 0) = 0x320 ∧
  d.rd (ra 0xB 8) = 0x3FFFF ∧ d.rd (ra 0x10 0) = 0xD ∧ (∀ l < 512, d.rd (rl 0 l) = 0x00406010)

/-- A condition raised for the first time in a frame is held and pending (R16, R75, R415). For every device state and
condition: when its word has not been raised at that COND register in the frame, raising it sets the block's PENDING
bit, the COND register holds a word at least as high as every word raised there in the frame and one of them (R75),
the word joins the frame's records, and no register beside that COND pair changes; when ALERT_N is enabled for the
block and PENDING was 0b, ALERT_N is asserted where Col is READY, and is to be asserted at READY where it is not (the
model's reading, log 97). -/
def Obligations.ConditionIsHeld : Prop :=
  ∀ (d : Dev) (b c det idx : Nat), (condAddr b idx, condWord b c det) ∉ d.raised →
    let a := condAddr b idx
    let e := d.raiseAt b c det idx
    RaisedOn d e b c det idx ∧ Machine.bit (e.rd (a + 4)) 0 = true ∧
    (∀ w, (a, w) ∈ e.raised → w.toNat ≤ (e.rd a).toNat) ∧ ((a, e.rd a) ∈ e.raised ∨ e.rd a = 0) ∧
    (Machine.bit (d.rd (a + 4)) 0 = false → Machine.bit ((d.wr a (e.rd a)).rd (ra 0xC 8)) b = true → ra 0xC 8 ≠ a + 4 →
      if d.col.st = .ready then e.obvo.alert = true else e.obvo.alertDue = true)

/-- A Col write of a protected register does nothing but count and raise NAR 03h (R420). For every state and value, a
REGISTER_WRITE by either Col core of an aligned register that Narrows protects is discarded when the boundary samples
it: it raises NAR 03h with the block number in DETAIL [15:8], adds 1 to NAR_REFUSED with saturation, and changes no
other register and no other part of the device, of flash, of fuses or of Basin. -/
def Obligations.NarrowsProtectsRegisters : Prop :=
  ∀ (s : State) (core : Bool) (addr v : Word), colProtected addr.toNat = true → addr.toNat < 0x12000000 → addr.toNat % 4 = 0 →
    Sampled (.registerWrite (.col core) addr v) s fun t =>
      Kept s t ∧ RaisedOn (s.dev.addSat (ra 0xE 0x14) 1) t.dev 0xE 3 (blk addr.toNat * 256) 0 ∧
      t.dev.rd (ra 0xE 0x14) = sat32 ((s.dev.rd (ra 0xE 0x14)).toNat + 1) ∧
      RegsBut s t (ra 0xE 0x14 :: condRegs 0xE 0)


/-! ## Frames, TICKSYNC, register writes and reads -/

/-- FRAME_BOUNDARY begins the next frame and takes the control actions that waited (R48, R50, R51, R55, R56, R60, R62,
R65). At a boundary with no input, control action, read or part fault waiting, no change of a port due and no launch
or round held, FRAME_BOUNDARY gives the new frame the number that follows, or the one an armed pulse set, counts one
frame elapsed, sets its length back to 256 core cycles and notes the cycles by which a stretched frame was longer,
takes the state to FREE where RACKCLK has been back for 1,024 periods, and leaves queue, flash and Basin alone. With
one write of GLB_SCRATCH from the host waiting to be sampled, the register holds the written value afterwards and
nothing waits. FRAME_BOUNDARY is: the frame ends and the new one begins, every waiting input is sampled in the order
of its arrival, the control actions are settled and take effect, and what follows from them. Where one control action
waits, which is no trail cap (trail caps of one frame combine, R64) and does not wait for an activation of the stage
it acts on (R392), it takes effect, the commands all of whose actions are done are answered, and no action waits. Of
two actions of different levels that conflict, the one of the level with the lower number stands and the other is
refused with FRM 04h, winner's level in DETAIL [15:8] and loser's in [7:0]. Actions of one source never conflict, and
keep their order. -/
def Obligations.FrameBoundaryBeginsFrame : Prop :=
  (∀ (s : State) (f : FrameIn), Quiet s →
    Runs (.frameBoundary f) s fun t => Kept s t ∧
      t.dev.frm.no = s.dev.frm.nextNo.getD (s.dev.frm.no + 1) ∧ t.dev.frm.elapsed = s.dev.frm.elapsed + 1 ∧
      t.dev.frm.nextNo = none ∧ t.dev.frm.len = 256 ∧
      t.dev.frm.extra = (if s.dev.frm.len = 256 then s.dev.frm.extra else s.dev.frm.extra ++ [(s.dev.frm.elapsed, s.dev.frm.len - 256)]) ∧
      t.dev.frm.st = (if s.dev.frm.rackBack then .free else s.dev.frm.st)) ∧
  (∀ (s : State) (f : FrameIn) (v : Word),
    Quiet { s with dev := { s.dev with inputs := [] } } →
    s.dev.inputs = [.registerWrite .obvo (BitVec.ofNat 32 (ra 0 0x38)) v] →
    Runs (.frameBoundary f) s fun t => t.dev.rd (ra 0 0x38) = v ∧ t.dev.obvo.acts = [] ∧ t.dev.inputs = []) ∧
  (∀ (s : State) (f : FrameIn), Runs (.frameBoundary f) s fun t =>
    t = (((s.endFrame.onDev (fun d => d.newFrame f)).dpTick.onDev Dev.eventTick).sampleInputs).actTick.onDev (fun d => (d.afterActs f).checkTick)) ∧
  (∀ (s : State), s.sampleInputs = s.dev.inputs.foldl State.takeInput (s.onDev (fun d => { d with inputs := [] }))) ∧
  (∀ (s : State) (x : CtlAct), s.dev.obvo.acts = [x] → (∀ m v, x.op ≠ .write (ra 0xF 0xC) m v) →
    (onStage x && s.dev.stageDue) = false →
    s.actTick = ((s.onDev (fun d => d.onObvo (fun o => { o with acts := [] }))).applyAct x).onDev (fun d => { d.answerWrites with level1 := [] })) ∧
  (∀ (s : State) (x y : CtlAct), whoLevel x.who < whoLevel y.who → s.clash y x = true →
    s.settleActs [y, x] = ([x], [(y, condWord 1 4 (whoLevel x.who * 256 + whoLevel y.who))])) ∧
  (∀ (s : State) (x y : CtlAct), x.who = y.who → s.clash x y = false ∧ s.settleActs [x, y] = ([x, y], []) ∧ serveOrder s.dev.fno [x, y] = [x, y])

/-- TICKSYNC_PULSE, TICKSYNC_MISS, RACKCLK_LOST, RACKCLK_RETURN and PEER_SKEW_CLEAR (R47, R48, R49, R51, R53, R74,
R546). In any state but LOST with ARM set, a pulse enters LOCKED, clears ARM and no other register, takes FRM_TSKEW,
and gives the frame that begins at the first boundary of the new alignment the number FRM_LOAD times 10000h less j (j
is 0, 1 or 2), where the stretched frame lasts at least 256 cycles and ends 256 times j cycles before the loaded
boundary, which lies 512 plus FRM_TSKEW cycles after the pulse. In LOCKED or HOLDOVER without ARM, a pulse at the
expected edge (its offset rounds to 0 RACKCLK periods) leaves LOCKED with no misses, and any other raises FRM 01h with
the signed offset and changes nothing else. An expected edge that passes without a pulse in LOCKED or HOLDOVER counts
the miss in FRM_TS_MISS, raises FRM 02h with the misses in a row, and leaves HOLDOVER from the second on. Loss of
RACKCLK enters LOST and raises FRM 03h, once, and both Obvo ports are to go down at the next boundary; its return for
1,024 periods is held until the boundary that enters FREE. A port whose markers were out of place and have been in
place for 64 words admits CORR again, and no other port changes. -/
def Obligations.ReferenceClockKeepsTheFrame : Prop :=
  (∀ (s : State) (cyc : BitVec 9), s.dev.frm.st ≠ .lost → s.dev.bit (ra 1 0xC) 0 = true →
    Runs (.ticksyncPulse cyc) s fun t => Kept s t ∧
      let sk : BitVec 6 := BitVec.ofNat 6 (s.dev.fld (ra 1 0x14) 0 6)
      t.dev = { s.dev with frm := t.dev.frm, regs := t.dev.regs } ∧ RegsBut s t [ra 1 0xC] ∧ t.dev.bit (ra 1 0xC) 0 = false ∧
      t.dev.frm.st = .locked ∧ t.dev.frm.skew = sk ∧ t.dev.frm.missRun = 0 ∧ t.dev.frm.no = s.dev.frm.no ∧ 256 ≤ t.dev.frm.len ∧
      ∃ j ≤ 2, t.dev.frm.nextNo = some (BitVec.ofNat 48 ((s.dev.rd (ra 1 0x10)).toNat * 0x10000 + 2 ^ 48 - j)) ∧
        (t.dev.frm.len : Int) + 256 * j = cyc.toNat + 512 + skewOf sk) ∧
  (∀ (s : State) (cyc : BitVec 9), s.dev.aligned = true → s.dev.bit (ra 1 0xC) 0 = false → s.dev.pulseOffset cyc.toNat = 0 →
    Runs (.ticksyncPulse cyc) s fun t => Kept s t ∧
      t.dev = { s.dev with frm := { s.dev.frm with st := .locked, missRun := 0 } }) ∧
  (∀ (s : State) (cyc : BitVec 9), s.dev.aligned = true → s.dev.bit (ra 1 0xC) 0 = false → s.dev.pulseOffset cyc.toNat ≠ 0 →
    -32768 ≤ s.dev.pulseOffset cyc.toNat → s.dev.pulseOffset cyc.toNat < 32768 →
    Runs (.ticksyncPulse cyc) s fun t => OnlyRaises s t 1 1 (uInt 16 (s.dev.pulseOffset cyc.toNat)) 0) ∧
  (∀ s : State, s.dev.aligned = true → Runs .ticksyncMiss s fun t => Kept s t ∧
    let n := s.dev.frm.missRun + 1
    RaisedOn (Dev.addSat { s.dev with frm := { s.dev.frm with missRun := n, st := if 2 ≤ n then .holdover else s.dev.frm.st } }
      (ra 1 0x18) 1) t.dev 1 2 (min n 0xFFFF) 0 ∧ t.dev.rd (ra 1 0x18) = sat32 ((s.dev.rd (ra 1 0x18)).toNat + 1)) ∧
  (∀ s : State, s.dev.frm.st ≠ .lost → Runs .rackclkLost s fun t => Kept s t ∧
    ∃ u : Dev, RaisedOn { s.dev with frm := { s.dev.frm with st := .lost, missRun := 0, rackBack := false } } u 1 3 0 0 ∧
      t.dev = { u with obvo := { u.obvo with due := s.dev.obvo.due ++ [(.obIn, .down), (.obOut, .down)] } }) ∧
  (∀ s : State, s.dev.frm.st = .lost → Runs .rackclkReturn s fun t => Kept s t ∧
    t.dev = { s.dev with frm := { s.dev.frm with rackBack := true } }) ∧
  (∀ (s : State) (p : BitVec 7), (s.dev.port p.toNat).skewed = true → 64 ≤ (s.dev.port p.toNat).skewGood →
    Runs (.peerSkewClear p) s fun t => Kept s t ∧ t.dev = { s.dev with ports := t.dev.ports } ∧
      t.dev.port p.toNat = { s.dev.port p.toNat with skewed := false } ∧ ∀ q ≠ p.toNat, t.dev.port q = s.dev.port q)

/-- FRM_ARM and REGISTER_WRITE set the writable bits of a register (R12, R13, R48, R55). Both wait for the boundary,
which samples each as one control action. FRM_ARM from the host, or from a trail port that serves, puts the written
ARM bit into FRM_CTL and changes no other register and nothing else. REGISTER_WRITE from such a source of a register
of the FRM block or of GLB_SCRATCH sets the bits of its RW fields to those written, keeps its other bits, and changes
nothing else. REGISTER_WRITE from Col of a register that Narrows does not protect is one control action of level 5
with the written value, and sampling it changes nothing else. -/
def Obligations.RegisterWriteSetsFields : Prop :=
  (∀ (s : State) (src : Src) (v : Word), isCol src = false → Heard s src → Takes (.frmArm src v) s fun t => RegsOnly s t ∧
    RegsBut s t [ra 1 0xC] ∧ t.dev.bit (ra 1 0xC) 0 = Machine.bit v 0) ∧
  (∀ (s : State) (src : Src) (addr v : Word), isCol src = false → Heard s src → addr.toNat % 4 = 0 →
    (blk addr.toNat = 1 ∨ addr.toNat = ra 0 0x38) → s.dev.keepsW1c addr.toNat = false →
    Takes (.registerWrite src addr v) s fun t => RegsOnly s t ∧ RegsBut s t [addr.toNat] ∧
      t.dev.rd addr.toNat = ((s.dev.rd addr.toNat &&& ~~~ regRw addr.toNat) ||| (v &&& regRw addr.toNat)) &&& ~~~ (v &&& regW1c addr.toNat)) ∧
  (∀ (s : State) (core : Bool) (addr v : Word), colProtected addr.toNat = false → addr.toNat < 0x12000000 → addr.toNat % 4 = 0 →
    Sampled (.registerWrite (.col core) addr v) s fun t => Kept s t ∧
      t.dev = { s.dev with obvo := { s.dev.obvo with
        acts := s.dev.obvo.acts ++ [{ who := .sw (.col core), op := .write addr.toNat fullMask v, cmd := s.dev.obvo.nextCmd, idx := 0 }]
        nextCmd := s.dev.obvo.nextCmd + 1 } })

/-- The latch of FRM_NO_HI (R54). A read of a register waits for the boundary that samples it and is answered with the
state at the end of that frame. FRM_NO_LO_READ by any source answers bits [31:0] of the frame in progress, latches
bits [47:32] of it for that source and leaves the latches of the two other sources and everything else alone.
PAIR_HI_READ of FRM_NO_HI by a source answers that source's latched bits, whatever the frame in progress, and does not
empty the latch; from reset it answers 0000h. -/
def Obligations.FrameNumberReadsNameOneFrame : Prop :=
  (∀ (s : State) (src : Src), Heard s src → Reads (.frmNoLoRead src) s fun t => Kept s t ∧
    let hi : BitVec 16 := BitVec.ofNat 16 (s.dev.frm.no.toNat / 2 ^ 32)
    let k := srcKind src
    t.dev = { s.dev with out := .read src (ra 1 0) (BitVec.ofNat 32 s.dev.frm.no.toNat) :: s.dev.out
                         frm := { s.dev.frm with
                           latTrail := if k = 0 then hi else s.dev.frm.latTrail
                           latObvo := if k = 1 then hi else s.dev.frm.latObvo
                           latCol := if k = 2 then hi else s.dev.frm.latCol } }) ∧
  (∀ (s : State) (src : Src), Heard s src → Reads (.pairHiRead src (BitVec.ofNat 32 (ra 1 4))) s fun t => Kept s t ∧
    t.dev = { s.dev with out := .read src (ra 1 4) ((match src with
      | .trail _ => s.dev.frm.latTrail
      | .obvo => s.dev.frm.latObvo
      | .col _ => s.dev.frm.latCol).setWidth 32) :: s.dev.out }) ∧
  State.reset.dev.frm.latTrail = 0 ∧ State.reset.dev.frm.latObvo = 0 ∧ State.reset.dev.frm.latCol = 0

/-- PAIR_LO_READ and PAIR_HI_READ: both halves of a pair name one moment (R494). Reads wait for the boundary and are
answered with the state at the end of their frame. For every pair of registers with the latch of R494 on a die that is
UP: PAIR_LO_READ answers NAME_LO and latches NAME_HI as it then stands for the reading source, the latches of other
sources and every register unchanged; a PAIR_HI_READ of the same pair by the same source answers the latched value
whatever the pair holds by then, and empties the latch. -/
def Obligations.RegisterPairsReadTogether : Prop :=
  (∀ (s : State) (src : Src) (addr : Word), isPairLo addr.toNat = true → addr.toNat % 4 = 0 → addr.toNat < 0x12000000 →
    s.dev.dieRefusal addr.toNat = none → Heard s src → Reads (.pairLoRead src addr) s fun t => Kept s t ∧
      t.dev = { s.dev with latches := t.dev.latches, out := .read src addr.toNat (s.view addr.toNat) :: s.dev.out } ∧
      mapGet (0, 0) t.dev.latches (srcKind src) = (addr.toNat + 4, s.view (addr.toNat + 4)) ∧
      ∀ k ≠ srcKind src, mapGet (0, 0) t.dev.latches k = mapGet (0, 0) s.dev.latches k) ∧
  (∀ (s : State) (src : Src) (addr w : Word), 4 ≤ addr.toNat → isPairLo (addr.toNat - 4) = true → isPairLo addr.toNat = false →
    addr.toNat % 4 = 0 → addr.toNat < 0x12000000 → s.dev.dieRefusal addr.toNat = none →
    mapGet (0, 0) s.dev.latches (srcKind src) = (addr.toNat, w) →
    Heard s src → Reads (.pairHiRead src addr) s fun t => Kept s t ∧
      t.dev = { s.dev with latches := t.dev.latches, out := .read src addr.toNat w :: s.dev.out } ∧
      mapGet (0, 0) t.dev.latches (srcKind src) = (0, 0) ∧
      ∀ k ≠ srcKind src, mapGet (0, 0) t.dev.latches k = mapGet (0, 0) s.dev.latches k)


/-! ## Lanes -/

/-- LANE_ENABLE, LANE_DISABLE, RETRAIN and LOOPBACK_SELECT (R12, R21, R95, R98, R99, R106, R362). For a write of
LANE_CTL that reaches its block, on a lane that carries no port in service, with the data path in service, a plat
active, its port not DISABLED and with no change due, and no pattern selected: the register takes the written fields,
no other register and no other lane changes, and the lane's own state becomes as follows. ENABLE without a test
selection takes an OFF or TEST lane to ADAPT with the taps of its preset inside the Narrows limits; ENABLE 0b takes
any lane to OFF; RETRAIN takes a lane that trains, is READY or in FAULT to ADAPT and forgets its timeouts; loopback
takes a lane that is not in FAULT to TEST. -/
def Obligations.LaneControlMovesLane : Prop :=
  ∀ (s : State) (src : Src) (l : BitVec 9) (v : Word), Reached s src (rl 0 l.toNat) → s.dev.inService = true → s.dev.plat.active = true →
    (∀ p, s.dev.portOf l.toNat = some p → (s.dev.port p).st ≠ .disabled ∧ (s.dev.port p).due = []) → carries (s.dev.lane l.toNat).st = false →
    patOn (s.dev.fld (rl 0x50 l.toNat) 0 3) = false → patOn (s.dev.fld (rl 0x50 l.toNat) 4 3) = false →
    let Done (t : State) (st : LaneSt) : Prop := LaneAnd s t l.toNat [rl 0 l.toNat] ∧
      t.dev.rd (rl 0 l.toNat) = v &&& 0x00FFFFFD ∧ (t.dev.lane l.toNat).st = st
    let lp := Machine.fld v 5 2
    let st := (s.dev.lane l.toNat).st
    (Machine.bit v 0 = true → Machine.bit v 1 = false → (lp = 0 ∨ lp = 3) → (st = .off ∨ st = .test) →
      Takes (.laneEnable src l v) s fun t => Done t .adapt ∧
        (t.dev.lane l.toNat).taps = s.dev.clampTaps l.toNat (presetTaps (Machine.fld v 2 3))) ∧
    (Machine.bit v 0 = false → Takes (.laneDisable src l v) s fun t => Done t .off) ∧
    (Machine.bit v 0 = true → Machine.bit v 1 = true → (lp = 0 ∨ lp = 3) → (st ≠ .off ∧ st ≠ .test) →
      Takes (.retrain src l v) s fun t => Done t .adapt ∧ (t.dev.lane l.toNat).timeouts = 0) ∧
    (Machine.bit v 0 = true → Machine.bit v 1 = false → (lp = 1 ∨ lp = 2) → st ≠ .fault →
      Takes (.loopbackSelect src l v) s fun t => Done t .test)

/-- A lane that leaves service, and a wake that fails, take their port down (R98, R100, R102, R104, R113). When a lane
in SERVICE, EI or WAKE of a port that is not DOWN or DISABLED is disabled by a register write, the port is DOWN
afterwards with cause 0. When such a lane loses lock outside electrical idle, or loses its signal outside electrical
idle, the port keeps its state in that frame and its DOWN is due at the next boundary. A wake begun 8 frames ago or
more that fails, and an idle receiver whose lanes have not all locked and deskewed 8 frames after energy returned, do
the same. A DOWN that is due leaves the port DOWN with cause 0. Queue, flash, fuses and Basin stay. -/
def Obligations.LossOfALaneTakesPortDown : Prop :=
  (∀ (s : State) (l : BitVec 9) (p : Nat), carries (s.dev.lane l.toNat).st = true → s.dev.portOf l.toNat = some p →
    (s.dev.port p).st ≠ .down → (s.dev.port p).st ≠ .disabled →
    let Down (t : State) : Prop := Kept s t ∧ (t.dev.port p).st = .down ∧ (t.dev.port p).cause = 0
    (∀ (src : Src) (v : Word), Reached s src (rl 0 l.toNat) → Machine.bit v 0 = false →
      Takes (.laneDisable src l v) s Down) ∧
    let Goes (t : State) : Prop := Kept s t ∧ (t.dev.port p).st = (s.dev.port p).st ∧ Due.down ∈ (t.dev.port p).due
    ((s.dev.lane l.toNat).rxEi = false → Runs (.lockLost l) s Goes ∧ Runs (.signalLost l) s Goes)) ∧
  (∀ (s : State) (p : BitVec 7) (w : Nat), 8 ≤ s.dev.age w → (s.dev.port p.toNat).st ≠ .down → (s.dev.port p.toNat).st ≠ .disabled →
    let Goes (t : State) : Prop := Kept s t ∧ (t.dev.port p.toNat).st = (s.dev.port p.toNat).st ∧ Due.down ∈ (t.dev.port p.toNat).due
    ((s.dev.port p.toNat).wakeAt = some w → Runs (.wakeFail p) s Goes) ∧
    ((s.dev.port p.toNat).rxWakeAt = some w → s.dev.rxBack p.toNat = false → Runs (.rxWakeFail p) s Goes)) ∧
  (∀ (d : Dev) (p : Nat), ((d.takeDue p .down).port p).st = .down ∧ ((d.takeDue p .down).port p).cause = 0)

/-- EQUALISER_SETTLED, LOCK_ACQUIRED, LOCK_LOST, SIGNAL_LOST and TRAIN_TIMEOUT (R91, R92, R98, R99, R102, R109). A
lane in ADAPT whose LANECLK runs enters HUNT with signal present; a lock takes a lane in HUNT to TUNE, and on a
receiver in electrical idle only notes the lock. A lane in TUNE or READY that loses lock outside electrical idle
counts it in LANE_LOCK_LOSS, raises LANE 01h and enters HUNT. A training lane or one that is READY and loses its
signal raises LANE 02h and enters ADAPT without signal. Of training timeouts 200,000 frames after the entry to ADAPT,
the first two in a row raise LANE 03h and restart ADAPT; the third raises LANE 04h and enters FAULT. No other lane
changes. -/
def Obligations.LaneTrainingSteps : Prop :=
  ∀ (s : State) (l : BitVec 9),
    let n := l.toNat
    let x := s.dev.lane n
    (x.st = .adapt → n / 64 ∉ s.dev.clkDead → Runs (.equaliserSettled l) s fun t => LaneAnd s t n [] ∧
      t.dev.lane n = { x with st := .hunt, sig := true, found := 0 }) ∧
    (x.st = .hunt → x.rxEi = false → Runs (.lockAcquired l) s fun t => LaneAnd s t n [] ∧
      t.dev.lane n = { x with st := .tune, run := 0, eqiNew := true, headers := (0, []) }) ∧
    (x.rxEi = true → Runs (.lockAcquired l) s fun t => LaneAnd s t n [] ∧ 
      t.dev.lane n = { x with rxLock := true, headers := (0, []) }) ∧
    ((x.st = .tune ∨ x.st = .ready) → x.rxEi = false → Runs (.lockLost l) s fun t => Kept s t ∧
      condWord 2 1 n ∈ t.dev.words ∧ t.dev.rd (rl 0x4C n) = sat32 ((s.dev.rd (rl 0x4C n)).toNat + 1) ∧
      (t.dev.lane n).st = .hunt ∧ (∀ m, m ≠ n → t.dev.lane m = s.dev.lane m) ∧ t.dev.ports = s.dev.ports ∧
      RegsBut s t (rl 0x4C n :: condRegs 2 n)) ∧
    ((x.st = .adapt ∨ x.st = .hunt ∨ x.st = .tune ∨ x.st = .ready) → x.rxEi = false →
      Runs (.signalLost l) s fun t => Kept s t ∧ condWord 2 2 n ∈ t.dev.words ∧ (t.dev.lane n).st = .adapt ∧
        (t.dev.lane n).sig = false ∧ (∀ m, m ≠ n → t.dev.lane m = s.dev.lane m) ∧ t.dev.ports = s.dev.ports ∧
        RegsBut s t (condRegs 2 n)) ∧
    (∀ f, x.tAdapt = some f → 200000 ≤ s.dev.age f → (x.st = .adapt ∨ x.st = .hunt ∨ x.st = .tune) → Runs (.trainTimeout l) s fun t => Kept s t ∧
      (if 2 ≤ x.timeouts then (t.dev.lane n).st = .fault ∧ (t.dev.lane n).timeouts = 0 ∧ condWord 2 4 n ∈ t.dev.words
       else (t.dev.lane n).st = .adapt ∧ (t.dev.lane n).timeouts = x.timeouts + 1 ∧ condWord 2 3 n ∈ t.dev.words) ∧
      (∀ m, m ≠ n → t.dev.lane m = s.dev.lane m) ∧ t.dev.ports = s.dev.ports ∧ RegsBut s t (condRegs 2 n))

/-- EQI_UPDATE (R96, R97, R98). On a lane that is not OFF or in FAULT, EQI becomes four times the least opening of the
three eyes, at most 255, and EQI_LOW the least since training. An opening is never wider than what lies between two
bins, one of the upper level and one of the lower, with at least two samples each. In TUNE the second update in a row
at or above the threshold makes the lane READY, the first is counted, and one below it starts the count again. On a
carrying receiver outside electrical idle an update at or above the threshold starts the count again, the first below
it raises LANE 05h, and the second raises LANE 06h, takes the lane to TUNE, and its port's DOWN is due. No other lane
changes. -/
def Obligations.EyeQualityDecidesLane : Prop :=
  (∀ (s : State) (l : BitVec 9) (up1 low0 up2 low1 up3 low2 : List (Byte × Nat)),
    let n := l.toNat
    let x := s.dev.lane n
    let e := min 255 (4 * min (eyeOpen up1 low0) (min (eyeOpen up2 low1) (eyeOpen up3 low2)))
    let good : Prop := max 96 (s.dev.fld (rl 0 n) 8 8) ≤ e
    x.st ≠ .off → x.st ≠ .fault →
    (carries x.st = true → x.rxEi = false → ¬ good → x.run ≠ 0 → Runs (.eqiUpdate l up1 low0 up2 low1 up3 low2) s fun t => Kept s t ∧
      condWord 2 6 n ∈ t.dev.words ∧ (t.dev.lane n).st = .tune ∧ (t.dev.lane n).eqi.toNat = e ∧ (∀ m, m ≠ n → t.dev.lane m = s.dev.lane m) ∧
      ∀ p, s.dev.portOf n = some p → (s.dev.port p).st ≠ .down → (s.dev.port p).st ≠ .disabled → Due.down ∈ (t.dev.port p).due) ∧
    (¬ (carries x.st = true ∧ x.rxEi = false ∧ ¬ good ∧ x.run ≠ 0) →
    Runs (.eqiUpdate l up1 low0 up2 low1 up3 low2) s fun t => Kept s t ∧ t.dev.ports = s.dev.ports ∧
      (∀ m, m ≠ n → t.dev.lane m = s.dev.lane m) ∧ RegsBut s t (condRegs 2 n) ∧
      let y := t.dev.lane n
      y.eqi.toNat = e ∧ y.eqiLow.toNat = (if x.eqiNew then e else min e x.eqiLow.toNat) ∧ y.eqiNew = false ∧
      (x.st = .tune → good → x.run ≠ 0 → y.st = .ready ∧ y.run = 0) ∧ (x.st = .tune → good → x.run = 0 → y.st = .tune ∧ y.run = 1) ∧
      (x.st = .tune → ¬ good → y.st = .tune ∧ y.run = 0) ∧
      (carries x.st = true → x.rxEi = false → good → y.st = x.st ∧ y.run = 0 ∧ t.dev.words = s.dev.words) ∧
      (carries x.st = true → x.rxEi = false → ¬ good → y.st = x.st ∧ y.run = 1 ∧ condWord 2 5 n ∈ t.dev.words))) ∧
  (∀ (up low : List (Byte × Nat)) (a b : Byte) (m k : Nat), (a, m) ∈ up → 2 ≤ m → (b, k) ∈ low → 2 ≤ k →
    eyeOpen up low ≤ a.toNat - b.toNat - 1)

/-- TXEQ_REQUEST (R93, R94, R95, R438). On a lane in TUNE or READY, or one that carries its port and whose receiver is
active, a request with a new REQ_ID is answered once. A step up or down of one tap that stays inside the ranges and
sum of R94 and inside the Narrows limits is applied and answered with STATUS 01b; one that leaves the ranges or the
sum is not applied and is answered with STATUS 10b, and LANE 0Bh is raised where it was not yet raised in this
training. A preset request inside the limits gives the taps of the preset and STATUS 01b. A request that repeats the
last REQ_ID changes nothing. -/
def Obligations.TapRequestsAnswered : Prop :=
  ∀ (s : State) (l : BitVec 9) (req : BitVec 16),
    let n := l.toNat
    let x := s.dev.lane n
    let id : BitVec 6 := BitVec.ofNat 6 (req.toNat / 256)
    let tap := req.toNat % 8
    let act := req.toNat / 8 % 4
    let m := x.taps.set (tap - 1) (x.taps.getD (tap - 1) 0 + (if act = 1 then 1 else -1))
    let pre := presetTaps (req.toNat / 32 % 8)
    let Answered (t : State) (taps : List Int) (status : Nat) : Prop :=
      Kept s t ∧ (t.dev.lane n).taps = taps ∧ (t.dev.lane n).lastReq = some id ∧
      (t.dev.lane n).ack = BitVec.ofNat 8 (status * 64 + id.toNat) ∧ t.dev.out = .txAck n (BitVec.ofNat 8 (status * 64 + id.toNat)) :: s.dev.out ∧
      (∀ k, k ≠ n → t.dev.lane k = s.dev.lane k) ∧ t.dev.ports = s.dev.ports ∧ RegsBut s t (condRegs 2 n)
    (x.st = .tune ∨ x.st = .ready ∨ (carries x.st = true ∧ x.rxEi = false)) →
    (x.lastReq ≠ some id → 1 ≤ tap → tap ≤ 4 → (act = 1 ∨ act = 2) → tapsOk m = true → s.dev.clampTaps n m = m →
      Runs (.txeqRequest l req) s fun t => Answered t m 1 ∧ t.dev.words = s.dev.words) ∧
    (x.lastReq ≠ some id → 1 ≤ tap → tap ≤ 4 → (act = 1 ∨ act = 2) → tapsOk m = false →
      Runs (.txeqRequest l req) s fun t => Answered t x.taps 2 ∧ (x.limited = false → condWord 2 0xB n ∈ t.dev.words) ∧
        (t.dev.lane n).limited = true) ∧
    (x.lastReq ≠ some id → tap = 7 → s.dev.clampTaps n pre = pre →
      Runs (.txeqRequest l req) s fun t => Answered t pre 1 ∧ t.dev.words = s.dev.words) ∧
    (x.lastReq = some id → Runs (.txeqRequest l req) s fun t => t = s)

/-- LANECLK_LOST and LANECLK_RETURN (R99, R538). When the lane clock of a lane die stops while none of its 64 lanes
carries a port, the die is noted, every lane of it that is in ADAPT, HUNT, TUNE or READY outside electrical idle
enters ADAPT without signal with LANE 02h raised, its other lanes and the lanes of other dies stay, and a lane of the
die in ADAPT does not settle. When the clock returns only the note goes. -/
def Obligations.LaneClockStopsDie : Prop :=
  (∀ (s : State) (i : BitVec 3), (∀ l, l / 64 = i.toNat → carries (s.dev.lane l).st = false) →
    Runs (.laneclkLost i) s fun t => Kept s t ∧ i.toNat ∈ t.dev.clkDead ∧ t.dev.ports = s.dev.ports ∧
      (∀ l, l / 64 = i.toNat → (s.dev.lane l).st ∈ [LaneSt.adapt, .hunt, .tune, .ready] → (s.dev.lane l).rxEi = false →
        (t.dev.lane l).st = .adapt ∧ (t.dev.lane l).sig = false ∧ condWord 2 2 l ∈ t.dev.words) ∧
      (∀ l, (l / 64 ≠ i.toNat ∨ (s.dev.lane l).st ∈ [LaneSt.off, .test, .fault]) → t.dev.lane l = s.dev.lane l)) ∧
  (∀ (s : State) (l : BitVec 9), l.toNat / 64 ∈ s.dev.clkDead → Runs (.equaliserSettled l) s fun t => t = s) ∧
  (∀ (s : State) (i : BitVec 3), Runs (.laneclkReturn i) s fun t => Kept s t ∧ i.toNat ∉ t.dev.clkDead ∧
    (∀ j, j ≠ i.toNat → (j ∈ t.dev.clkDead ↔ j ∈ s.dev.clkDead)) ∧ t.dev = { s.dev with clkDead := t.dev.clkDead })

/-- PORT_DESKEW, EI_ENTER, EI_ENTER_RECEIVED, WAKE_START, WAKE_COMPLETE and RX_WAKE (R88, R101, R102, R103). A DOWN
port of the plat whose lanes are all READY or in SERVICE, within 48 ns of skew and consistent, has all its lanes in
SERVICE, and its EXCHANGE is due at the next boundary, where it enters EXCHANGE; the lanes of a waking receiver that
have all locked are noted as deskewed. A port that may idle puts its lanes in EI, its transmitter idle and its budgets
of classes at 0. A received idle puts every receiver of the port in idle without signal. A wake due since an earlier
frame puts the lanes in WAKE, notes its frame and sends the burst; 8 frames later the lanes serve again and the
transmitter is awake. Energy on an idle receiver is noted with its frame. Lanes of other ports and other ports stay,
and no register changes. -/
def Obligations.PortIdleAndWake : Prop :=
  ∀ (s : State) (p : BitVec 7),
    let n := p.toNat
    let x := s.dev.port n
    let ls := s.dev.lanesOf n
    let Same (t : State) : Prop := Kept s t ∧ (∀ l, l ∉ ls → t.dev.lane l = s.dev.lane l) ∧
      (∀ q, q ≠ n → t.dev.port q = s.dev.port q) ∧ t.dev.regs = s.dev.regs ∧ t.dev.pkts = s.dev.pkts ∧ t.dev.queue = s.dev.queue
    (∀ skew : Nat, s.dev.pvalid n = true → x.st = .down → x.rxWakeAt = none → (∀ l ∈ ls, (s.dev.lane l).st = .ready ∨ (s.dev.lane l).st = .service) →
      skew ≤ 48 → Runs (.portDeskew p skew true) s fun t => Same t ∧ (t.dev.port n).st = .down ∧
        Due.exchange ∈ (t.dev.port n).due ∧ ∀ l ∈ ls, (t.dev.lane l).st = .service) ∧
    (x.st = .down → ((s.dev.takeDue n .exchange).port n).st = .exchange ∧ ((s.dev.takeDue n .exchange).port n).tExch = s.dev.now) ∧
    (∀ skew : Nat, s.dev.pvalid n = true → x.rxWakeAt.isSome = true → (∀ l ∈ ls, (s.dev.lane l).rxLock = true) → skew ≤ 48 →
      Runs (.portDeskew p skew true) s fun t => Same t ∧ t.dev.lanes = s.dev.lanes ∧ t.dev.port n = { x with rxDeskew := true }) ∧
    (s.dev.eiOk n = true → Runs (.eiEnter p) s fun t => Same t ∧ (t.dev.port n).txEi = true ∧
      (∀ l ∈ ls, t.dev.lane l = { s.dev.lane l with st := .ei }) ∧ (∀ c < 7, t.dev.budOf n c = (0, 0)) ∧
      t.dev.out = .idle n :: s.dev.out) ∧
    (s.dev.pvalid n = true → (∀ l ∈ ls, carries (s.dev.lane l).st = true) → Runs (.eiEnterReceived p) s fun t => Same t ∧
      (∀ l ∈ ls, t.dev.lane l = { s.dev.lane l with rxEi := true, rxLock := false, sig := false, found := 0 }) ∧
      t.dev.port n = { x with rxWakeAt := none, rxDeskew := false }) ∧
    (∀ f, x.txEi = true → x.wakeDue = some f → f < s.dev.now → x.wakeAt = none → Runs (.wakeStart p) s fun t => Same t ∧
      (∀ l ∈ ls, t.dev.lane l = { s.dev.lane l with st := .wake }) ∧ t.dev.port n = { x with wakeAt := some s.dev.now } ∧
      t.dev.out = .burst n :: s.dev.out) ∧
    (∀ w, x.wakeAt = some w → 8 ≤ s.dev.age w → Runs (.wakeComplete p) s fun t => Same t ∧
      (∀ l ∈ ls, t.dev.lane l = { s.dev.lane l with st := .service }) ∧
      t.dev.port n = { x with txEi := false, wakeAt := none, wakeDue := none, idle := 0 }) ∧
    (s.dev.pvalid n = true → (∀ l ∈ ls, (s.dev.lane l).rxEi = true) → x.rxWakeAt = none → Runs (.rxWake p) s fun t => Same t ∧
      (∀ l ∈ ls, t.dev.lane l = { s.dev.lane l with sig := true }) ∧ t.dev.port n = { x with rxWakeAt := some s.dev.now, rxDeskew := false })

/-- PATTERN_GENERATOR_SET, PATTERN_CHECKER_SET, CHK_LOCK, CHECKER_RESEED, LANE_INJ_GO and LANE_INJ_END (R98, R105,
R107, R108). For a write that reaches its block on an enabled lane of an active plat, the data path in service, that
carries no port and is not in FAULT: a pattern in GEN or CHK takes the lane to TEST, LANE_PAT_CTL holds the written
codes, and a changed CHK starts the checker without lock. A checker that runs takes lock; while it has lock, the
symbols compared join LANE_PAT_SYM, and those that differ from its own pattern, run from its seed, LANE_PAT_ERR. GO
with MODE 01b on a lane in TEST that has not left SERVICE in this frame clears LANE_INJ_CNT and begins REPEAT
codewords, and its end adds them to LANE_INJ_CNT. No other lane changes. -/
def Obligations.LaneTestFunctions : Prop :=
  ∀ (s : State) (src : Src) (l : BitVec 9) (v : Word),
    let n := l.toNat
    let x := s.dev.lane n
    let Pat (t : State) : Prop := LaneAnd s t n [rl 0x50 n] ∧ t.dev.rd (rl 0x50 n) = v &&& 0x77 ∧ (t.dev.lane n).st = .test
    (Reached s src (rl 0x50 n) → s.dev.inService = true → s.dev.plat.active = true → s.dev.bit (rl 0 n) 0 = true →
      (∀ p, s.dev.portOf n = some p → (s.dev.port p).st ≠ .disabled ∧ (s.dev.port p).due = []) → carries x.st = false → x.st ≠ .fault →
      (patOn (Machine.fld v 0 3) = true → Takes (.patternGeneratorSet src l v) s Pat) ∧
      (patOn (Machine.fld v 4 3) = true → Machine.fld v 4 3 ≠ s.dev.fld (rl 0x50 n) 4 3 →
        Takes (.patternCheckerSet src l v) s fun t => Pat t ∧ (t.dev.lane n).chkLock = false)) ∧
    (s.dev.checking n = true → Runs (.chkLock l) s fun t => LaneAnd s t n [] ∧ t.dev.lane n = { x with chkLock := true }) ∧
    (∀ (rx : List (BitVec 2)) (seed : BitVec 31), s.dev.checking n = true → x.chkLock = true →
      Runs (.checkerReseed l rx seed) s fun t => RegsOnly s t ∧
      let own := (patternRun (s.dev.fld (rl 0x50 n) 4 3) (s.dev.userBits n) rx.length seed.toNat).1
      let syms := rx.length
      let errs := ((List.zip rx own).filter (fun e => e.1 != e.2)).length
      t.dev.rd64 (rl 0x68 n) = (s.dev.rd64 (rl 0x68 n) + syms) % 2 ^ 64 ∧ t.dev.rd64 (rl 0x60 n) = (s.dev.rd64 (rl 0x60 n) + errs) % 2 ^ 64 ∧
      RegsBut s t [rl 0x60 n, rl 0x64 n, rl 0x68 n, rl 0x6C n]) ∧
    (Reached s src (rl 0x70 n) → x.st = .test → x.tLeft ≠ s.dev.now + 1 → Machine.bit v 31 = true → Machine.fld v 0 2 = 1 →
      Takes (.laneInjGo src l v) s fun t => LaneAnd s t n [rl 0x70 n, rl 0x74 n] ∧ t.dev.rd (rl 0x74 n) = 0 ∧
        t.dev.lane n = { x with tInj := s.dev.now + 1, inj := some (if Machine.fld v 16 8 = 0 then none else some (Machine.fld v 16 8)) }) ∧
    (∀ k, x.inj = some (some k) → Runs (.laneInjEnd l) s fun t => LaneAnd s t n [rl 0x74 n] ∧
      t.dev.rd (rl 0x74 n) = sat32 ((s.dev.rd (rl 0x74 n)).toNat + k) ∧ t.dev.lane n = { x with inj := none, injOwed := x.injOwed + k })


/-! ## Links -/

/-- IDENT_RECEIVED, TIME_PROBE and TIME_REPLY (R112, R115, R122, R136). What IDENT_RECEIVED brings is the block's
payload, of which each field is a part. In EXCHANGE a received IDENT becomes the candidate, and the established
identity once it has arrived twice in a row; an IDENT that changes an established identity outside EXCHANGE, other
than the one REMAP change, is violation 04h: it adds 1 to LINK_VIOL with saturation and raises LINK 0Ch with the code
in DETAIL [15:8] on a port that is no EMU_CHECK port. A probe on a linked port is answered: a TIME_REPLY with its
number and turnaround joins the link control blocks that wait to be sent, and on another port nothing happens. A reply
in EXCHANGE from an identified partner enters its round trip under its probe number, and with eight of them LINK_DELAY
is half the least of them, rounded up. Nothing else changes. -/
def Obligations.PartnerIsIdentifiedAndTimed : Prop :=
  (∀ (s : State) (p : BitVec 7) (b : BitVec 256), (s.dev.port p.toNat).st = .exchange →
    Runs (.identReceived p b) s fun t => PortAnd s t p.toNat [] [] ∧ let x := s.dev.port p.toNat
      let i := identOf b
      t.dev.port p.toNat = { x with cand := some i, ident := if x.cand = some i then some i else x.ident }) ∧
  (∀ (s : State) (p : BitVec 7) (b : BitVec 256) (j : Ident), ((s.dev.port p.toNat).st = .up ∨ (s.dev.port p.toNat).st = .quar) →
    (s.dev.port p.toNat).ident = some j → identOf b ≠ j → s.dev.emuRole p.toNat ≠ 2 →
    Runs (.identReceived p b) s fun t => Kept s t ∧ condWord 3 0xC (4 * 256 + p.toNat) ∈ t.dev.words ∧
      t.dev.rd (rp 3 0x70 p.toNat) = sat32 ((s.dev.rd (rp 3 0x70 p.toNat)).toNat + 1) ∧
      (t.dev.port p.toNat).st = (s.dev.port p.toNat).st ∧ (∀ q, q ≠ p.toNat → t.dev.port q = s.dev.port q) ∧
      RegsBut s t (rp 3 0x70 p.toNat :: condRegs 3 p.toNat)) ∧
  (∀ (s : State) (p : BitVec 7) (n : BitVec 3) (ta : BitVec 16), Runs (.timeProbe p n ta) s fun t =>
    if linked (s.dev.port p.toNat).st = true then PortAnd s t p.toNat [] [] ∧
      t.dev.port p.toNat = { s.dev.port p.toNat with
        ctlBlocks := (s.dev.port p.toNat).ctlBlocks ++ [0x13 + 256 * n.toNat + 2 ^ 16 * ta.toNat] }
    else t = s) ∧
  (∀ (s : State) (p : BitVec 7) (n : BitVec 3) (cyc ta : Nat), (s.dev.port p.toNat).st = .exchange →
    (s.dev.port p.toNat).ident.isSome = true → Runs (.timeReply p n cyc ta) s fun t => PortAnd s t p.toNat [] [] ∧
      let y := t.dev.port p.toNat
      y = { s.dev.port p.toNat with trips := y.trips, delay := y.delay } ∧ mapGet 0 y.trips n.toNat = cyc - ta ∧
      (∀ k, k ≠ n.toNat → mapGet 0 y.trips k = mapGet 0 (s.dev.port p.toNat).trips k) ∧
      (y.trips.length = 8 → ∃ m, y.delay = some ((m + 1) / 2) ∧ (m = cyc - ta ∨ m ∈ y.trips.map (·.2)) ∧ m ≤ cyc - ta ∧
        ∀ v ∈ y.trips.map (·.2), m ≤ v))

/-- PORT_CHECK (R113, R115, R117, R120, R123). On a port in EXCHANGE with an identified and timed partner that need
not wait, CHECK is due at the next boundary, and nothing else changes. The check that is due, of a port that no other
port waits for: when every test of R117 passes, the partner runs the same firmware and has not yet sent UP_READY, the
port enters CHECK with UP decided and nothing else changes, and UP_READY joins its control blocks when its first
column is laid out; when a test other than the role test fails, the port enters QUAR with that test's cause. -/
def Obligations.PortCheckDecides : Prop :=
  ∀ (s : State) (p : BitVec 7) (i : Ident) (dl : Nat),
    let n := p.toNat
    let x := s.dev.port n
    let e := s.dev.takeDue n .check
    x.st = .exchange → x.ident = some i → x.delay = some dl → s.dev.exchWaits n = false →
    (Due.check ∉ x.due → Runs (.portCheck p) s fun t => PortAnd s t n [] [] ∧ t.dev.port n = { x with due := x.due ++ [.check] }) ∧
    ((∀ r, (s.dev.port r).swapWait ≠ some n) →
      (s.dev.linkTest n i dl = none → i.fwVer = s.dev.col.fwVer → x.upReady = false →
        e = { s.dev with ports := e.ports } ∧ (∀ q, q ≠ n → e.port q = s.dev.port q) ∧
        e.port n = { x with st := .check, tCheck := s.dev.now, columns := 0, decided := true, tDecide := s.dev.now, ackRseq := 0, rxTag := 0
                            rxNext := 0, rxSeen := 0, rxBlocks := 0, reqOpen := false, reqFor := none, txXoff := 0, fwDiff := false
                            swapWait := none, remapWait := none } ∧
        upReadyBlk ∈ ((e.dueCtl n).port n).ctlBlocks) ∧
      (∀ cause c det : Nat, s.dev.linkTest n i dl = some (cause, c, det) → cause ≠ 2 →
        (e.port n).st = .quar ∧ (e.port n).cause = cause ∧ (e.port n).tQuar = s.dev.now))

/-- SWAP_WAIT_EXPIRE, EXCHANGE_TIMEOUT, UP_READY, UP_READY_TIMEOUT and NB_MISSING (R116, R119, R120, R121, R390).
Changes of a port's state are due at the next boundary and take place there. When a swap wait has lasted 8,000 frames,
the quarantine with cause 3 is due for the waiting port, and for the other port of the pair where that one has not
decided UP; it is what QUAR with cause 3 then becomes of a port that has not decided. EXCHANGE for 8,000 counted
frames, and 8,000 frames without UP_READY after the decision, make the port's DOWN due. UP_READY is noted while the
port is in EXCHANGE or CHECK, and makes UP due for a port that has decided, which then enters UP with a fresh transmit
state (where no abort word is kept for it: and with nothing else changed). A port of the plat out of UP for 640,000
frames is missing, with LINK 06h raised once. -/
def Obligations.LinkTimersAct : Prop :=
  ∀ (s : State) (p : BitVec 7),
    let n := p.toNat
    let x := s.dev.port n
    let Goes (t : State) : Prop := Kept s t ∧ (t.dev.port n).st = x.st ∧ Due.down ∈ (t.dev.port n).due ∧ condWord 3 3 n ∈ t.dev.words
    (∀ q, (x.swapWait = some q ∨ (x.swapWait = none ∧ x.remapWait = some q)) → x.st = .check → 8000 ≤ s.dev.age x.tCheck →
      Runs (.swapWaitExpire p) s fun t => Kept s t ∧ t.dev = { s.dev with ports := t.dev.ports } ∧
        (∀ r, r ≠ n → r ≠ q → t.dev.port r = s.dev.port r) ∧ Due.swapped q ∈ (t.dev.port n).due ∧
        (((s.dev.port q).st = .exchange ∨ ((s.dev.port q).st = .check ∧ (s.dev.port q).decided = false)) →
          Due.swapped n ∈ (t.dev.port q).due)) ∧
    (∀ q, (x.st = .exchange ∨ (x.st = .check ∧ x.decided = false)) →
      ((s.dev.takeDue n (.swapped q)).port n).st = .quar ∧ ((s.dev.takeDue n (.swapped q)).port n).cause = 3) ∧
    (x.st = .exchange → x.tWaited + 8000 ≤ s.dev.age x.tExch → Runs (.exchangeTimeout p) s Goes) ∧
    ((x.st = .exchange ∨ (x.st = .check ∧ x.decided = false)) → Runs (.upReady p) s fun t => PortAnd s t n [] [] ∧
      t.dev.port n = { x with upReady := true }) ∧
    (x.st = .check → x.decided = true → Due.up ∉ x.due → Runs (.upReady p) s fun t => PortAnd s t n [] [] ∧
      t.dev.port n = { x with upReady := true, due := x.due ++ [.up] }) ∧
    (x.st = .check → x.decided = true → x.upReady = true → s.dev.bit (rp 7 0x100 n) 31 = false → s.dev.bit (rp 8 0x108 n) 0 = false →
      let e := s.dev.takeDue n .up
      let y := e.port n
      e.regs = s.dev.regs ∧ (∀ q, q ≠ n → e.port q = s.dev.port q) ∧
        y.st = .up ∧ y.sndRseq = 0 ∧ y.txTag = 0 ∧ y.rxXoff = 0 ∧ y.replay = [] ∧ y.served = none ∧ y.violCount = 0 ∧ y.missing = false) ∧
    (x.st = .check → x.decided = true → 8000 ≤ s.dev.age x.tDecide → Runs (.upReadyTimeout p) s Goes) ∧
    (Machine.bit (s.dev.nb (s.dev.role n)) 31 = true → x.st ≠ .up → x.missing = false → 640000 ≤ s.dev.age x.tOut →
      Runs (.nbMissing p) s fun t => Kept s t ∧ t.dev.port n = { x with missing := true } ∧ condWord 3 6 n ∈ t.dev.words ∧
        (∀ q, q ≠ n → t.dev.port q = s.dev.port q) ∧ RegsBut s t (condRegs 3 n))

/-- LINK_QCLR, PORT_DISABLE and PORT_ENABLE (R21, R113, R123, R141, R442). A quarantine clear that reaches its block
and names the cause of a port quarantined before this frame makes its return to UP due at the next boundary and ends
its token (in the frame of a plat's activation it is held and tested after it): cause 6 needs none, causes 1 to 3 a
token that Narrows holds, and causes 4 and 5 are never cleared so (a clear that fails raises LINK 0Eh and nothing
else). DISABLE of a port of the plat that is DOWN with nothing held makes it DISABLED and turns its lanes OFF; ENABLE
of a DISABLED port makes it DOWN, and with the data path in service and a plat active its enabled OFF lanes without a
test selection train. No register but LINK_CTL changes. -/
def Obligations.PortControlTakesEffect : Prop :=
  ∀ (s : State) (src : Src) (p : BitVec 7) (v : Word),
    let n := p.toNat
    let x := s.dev.port n
    let ls := s.dev.lanesOf n
    (Reached s src (rp 3 0x14 n) → Machine.bit v 31 = true → s.dev.actDue = true →
      Takes (.linkQclr src p v) s fun t => PortAnd s t n [] [] ∧ t.dev.port n = { x with qclrHeld := some (Machine.fld v 0 4) }) ∧
    (x.st = .quar → s.dev.bit (rp 7 0x100 n) 31 = false → s.dev.bit (rp 8 0x108 n) 0 = false →
      ((s.dev.takeDue n .up).port n).st = .up ∧ ((s.dev.takeDue n .up).port n).cause = 0) ∧
    (Reached s src (rp 3 0x14 n) → Machine.bit v 31 = true → s.dev.actDue = false →
      (x.st = .quar → Machine.fld v 0 4 = x.cause → x.tQuar ≠ s.dev.now → (x.cause = 6 ∨ (x.cause ≤ 3 ∧ s.dev.tokenOk n x.cause = true)) →
        Due.up ∉ x.due → Takes (.linkQclr src p v) s fun t => Kept s t ∧ t.dev.port n = { x with due := x.due ++ [.up] } ∧
          (∀ q, q ≠ n → t.dev.port q = s.dev.port q) ∧
          t.dev = { s.dev with ports := t.dev.ports, col := { s.dev.col with tokens := s.dev.col.tokens.filter (fun e => e.1 != n) } }) ∧
      ((x.st ≠ .quar ∨ Machine.fld v 0 4 ≠ x.cause ∨ x.cause = 4 ∨ x.cause = 5 ∨ (x.cause ≤ 3 ∧ s.dev.tokenOk n (Machine.fld v 0 4) = false)) →
        Takes (.linkQclr src p v) s fun t => OnlyRaises s t 3 0xE (Machine.fld v 0 4 * 256 + n) n)) ∧
    (Reached s src (rp 3 0 n) → (∀ l ∈ ls, s.dev.portOf l = some n) →
      (x.st = .down → x.decided = false → x.role = none → x.replay = [] → x.train = none → s.dev.lost = [] → (∀ k ∈ s.dev.pkts, k.ing ≠ some n) →
        (∀ l ∈ ls, (s.dev.lane l).st ≠ .ei ∧ (s.dev.lane l).st ≠ .wake ∧ (s.dev.lane l).inj = none) →
        Takes (.portDisable src p) s fun t => Kept s t ∧ t.dev.rd (rp 3 0 n) = 1 ∧ RegsBut s t [rp 3 0 n] ∧
          (t.dev.port n).st = .disabled ∧ (∀ q, q ≠ n → t.dev.port q = s.dev.port q) ∧ (∀ l ∈ ls, (t.dev.lane l).st = .off) ∧
          (∀ l, l ∉ ls → t.dev.lane l = s.dev.lane l)) ∧
      (x.st = .disabled → (∀ l ∈ ls, (s.dev.lane l).st = .off) →
        Takes (.portEnable src p) s fun t => Kept s t ∧ t.dev.rd (rp 3 0 n) = 0 ∧ RegsBut s t [rp 3 0 n] ∧
          t.dev.port n = { x with st := .down } ∧ (∀ q, q ≠ n → t.dev.port q = s.dev.port q) ∧
          (∀ l, l ∉ ls → t.dev.lane l = s.dev.lane l) ∧
          ∀ l ∈ ls, (t.dev.lane l).st = (if ¬ (s.dev.inService = true ∧ s.dev.plat.active = true ∧ s.dev.bit (rl 0 l) 0 = true) then .off
            else if s.dev.laneTest l then .test else .adapt)))

/-- ACK_RECEIVED, RETRY_REQ_RECEIVED, RETRY_START_RECEIVED and REQ_TIMEOUT (R124, R125, R126, R127). On a linked port:
an acknowledgement of a held cell or of the next RSEQ frees every earlier cell and nothing else; a REQ with a new
REQ_ID and such an ACK_RSEQ replays every cell from it on in RSEQ order under new tags (the tags of cells of which
nothing was sent are given anew), counts those sent before in LINK_REPLAY, and lets START with that REQ_ID and the
cells' blocks follow what is left of the cell in progress, and one with the REQ_ID served last changes nothing; a
START with the REQ_ID asked ends the request, and what is received goes on from the cell asked for. A request open for
8 frames is asked again with the next REQ_ID and the same ACK_RSEQ and counted in LINK_REQ; at the fourth with one
ACK_RSEQ LINK 01h is raised and the port's DOWN is due. -/
def Obligations.RetryReplaysInOrder : Prop :=
  ∀ (s : State) (p : BitVec 7),
    let n := p.toNat
    let x := s.dev.port n
    linked x.st = true →
    (∀ (ack : BitVec 12) (i : Nat), ackPos x ack = some i → Runs (.ackReceived p ack) s fun t => PortAnd s t n [] [] ∧
      t.dev.port n = { x with replay := x.replay.drop i, fullSeen := if i = 0 then x.fullSeen else false }) ∧
    (∀ (ack : BitVec 12) (id : BitVec 6) (i : Nat), x.served ≠ some id → ackPos x ack = some i →
      Runs (.retryReqReceived p ack id) s fun t =>
        let y := t.dev.port n
        let r := x.replay.drop i
        let unsent := (splitStream (streamData x.stream % 8) x.stream).2.2 / 8
        PortAnd s t n [rp 3 0x58 n, rp 3 0x5C n] [.start n id y.replay] ∧ y.served = some id ∧ y.sndRseq = x.sndRseq ∧
        y.replay.map (·.rseq) = r.map (·.rseq) ∧ y.replay.map (·.pk) = r.map (·.pk) ∧ y.replay.map (·.bad) = r.map (·.bad) ∧
        y.txTag = x.txTag - BitVec.ofNat 12 unsent + BitVec.ofNat 12 r.length ∧
        (∀ k < r.length, (y.replay.map (·.tag))[k]? = some (x.txTag - BitVec.ofNat 12 unsent + BitVec.ofNat 12 k)) ∧
        t.dev.rd64 (rp 3 0x58 n) = (s.dev.rd64 (rp 3 0x58 n) + (r.length - unsent)) % 2 ^ 64 ∧
        ∃ rest, streamData rest = streamData x.stream % 8 ∧
          y.stream = rest ++ TxItem.start id :: y.replay.flatMap (fun c => (cellBlocks c.pk c.idx).map TxItem.blk)) ∧
    (∀ (ack : BitVec 12) (id : BitVec 6), x.served = some id → Runs (.retryReqReceived p ack id) s fun t => t = s) ∧
    (∀ id : BitVec 6, x.reqOpen = true → x.reqId = id → Runs (.retryStartReceived p id) s fun t => PortAnd s t n [] [] ∧
      t.dev.port n = { (if x.resumed then x else x.atStart) with reqOpen := false, resumed := false }) ∧
    (x.reqOpen = true → 8 ≤ s.dev.age x.reqAt → x.reqFor = some x.reqAck → x.reqTries < 3 → Runs (.reqTimeout p) s fun t =>
      PortAnd s t n [rp 3 0x50 n, rp 3 0x54 n] [.req n x.reqAck (x.reqId + 1)] ∧
      t.dev.port n = { x with reqId := x.reqId + 1, resumed := false, reqTries := x.reqTries + 1, reqAt := s.dev.now } ∧
      t.dev.rd64 (rp 3 0x50 n) = (s.dev.rd64 (rp 3 0x50 n) + 1) % 2 ^ 64) ∧
    (x.reqOpen = true → 8 ≤ s.dev.age x.reqAt → x.reqFor = some x.reqAck → 3 ≤ x.reqTries → Runs (.reqTimeout p) s fun t => Kept s t ∧
      (t.dev.port n).st = x.st ∧ Due.down ∈ (t.dev.port n).due ∧ condWord 3 1 n ∈ t.dev.words)

/-- CODEWORD_DECODE, LSW_RECEIVE and PROTO_ERR_RECEIVED (R53, R81, R85, R126, R131, R138). On a linked port that takes
cells and has no request open, all of whose lanes carry it with room in their buffers: a column of codewords without
an error, of data blocks alone, advances the expected RSEQ by the cells that end in it and adds 1 to LANE_CW of each
of its lanes, and no other register, lane or port changes. A column with an uncorrectable codeword (its others as
before), while no packet of the port is unconfirmed, asks for replay from the cell expected next with a new REQ_ID. Of
a column's sideband words the lowest lane's that is usable acts, and with none nothing happens. A word without retry
and verdicts gives FC_XOFF and acknowledges; in LOCKED or HOLDOVER one whose marker is more than one frame off stops
CORR on the port and raises FRM 06h. A received PROTO_ERR raises LINK 0Fh and changes nothing else. -/
def Obligations.ColumnsAndSidebandWords : Prop :=
  ∀ (s : State) (p : BitVec 7),
    let n := p.toNat
    let x := s.dev.port n
    let ls := s.dev.lanesOf n
    let open_ (e : Nat × BitVec 5440) := (openWord (s.dev.lane e.1).rxScr e.2).1
    let clean (e : Nat × BitVec 5440) : Prop := rsDecode e.2 = some (e.2, 0) ∧ ∀ b ∈ open_ e, isData b = true
    let ready (cyc : BitVec 9) (l : Nat) : Prop := carries (s.dev.lane l).st = true ∧ (s.dev.lane l).rxEi = false ∧
      (s.dev.lane l).headers.2.length < 13 ∧ (s.dev.lane l).levelNow (s.dev.cycles 0 + cyc.toNat) ≤ 45 * 8192
    linked x.st = true →
    (∀ col : Column, s.dev.pvalid n = true → takesCells x = true → x.reqOpen = false → col.words.length = ls.length →
      (∀ l ∈ ls, ready col.cycle l) → (∀ e ∈ List.zip ls col.words, clean e) →
      Runs (.codewordDecode p col) s fun t => Kept s t ∧ t.dev = { s.dev with lanes := t.dev.lanes, ports := t.dev.ports, regs := t.dev.regs } ∧
        (∀ l, l ∉ ls → t.dev.lane l = s.dev.lane l) ∧ (∀ q, q ≠ n → t.dev.port q = s.dev.port q) ∧
        RegsBut s t (ls.map (rl 0x20) ++ ls.map (rl 0x24)) ∧
        (t.dev.port n).ackRseq = x.ackRseq + BitVec.ofNat 12 ((x.rxBlocks + 19 * ls.length) / 8) ∧
        (t.dev.port n).rxBlocks = (x.rxBlocks + 19 * ls.length) % 8 ∧
        ∀ l ∈ ls, t.dev.rd64 (rl 0x20 l) = (s.dev.rd64 (rl 0x20 l) + 1) % 2 ^ 64) ∧
    (∀ col : Column, s.dev.pvalid n = true → x.reqOpen = false → x.reqFor ≠ some x.ackRseq → (∀ k ∈ s.dev.pkts, k.ing ≠ some n) →
      col.words.length = ls.length → (∀ l ∈ ls, ready col.cycle l) → (∀ e ∈ List.zip ls col.words, rsDecode e.2 = none ∨ clean e) →
      (∃ e ∈ List.zip ls col.words, rsDecode e.2 = none) →
      Runs (.codewordDecode p col) s fun t => Kept s t ∧ t.dev.out = .req n x.ackRseq (x.reqId + 1) :: s.dev.out ∧
        (t.dev.port n).reqOpen = true ∧ (t.dev.port n).reqAck = x.ackRseq ∧ (t.dev.port n).reqId = x.reqId + 1 ∧
        (t.dev.port n).ackRseq = x.ackRseq ∧ (t.dev.port n).reqAt = s.dev.now ∧ ∀ q, q ≠ n → t.dev.port q = s.dev.port q) ∧
    (∀ (k : Nat) (b : BitVec 238) (rest : List (Option (BitVec 238))) (sb : Sideband), sb.words = List.replicate k none ++ some b :: rest →
      let w := lswOf b
      (w.rop = 0 ∨ w.rop = 3) → w.bad0 = none → w.bad1 = none → w.upToV = false →
      (s.dev.aligned = false → Runs (.lswReceive p sb) s fun t => PortAnd s t n [] [] ∧ (t.dev.port n).rxXoff = w.xoff ∧
        ∀ i, ackPos x w.ack = some i → (t.dev.port n).replay = x.replay.drop i) ∧
      (s.dev.aligned = true → 1 < s.dev.markOff n w sb.cycle.toNat → Runs (.lswReceive p sb) s fun t => Kept s t ∧
        (t.dev.port n).rxXoff = w.xoff ∧ (t.dev.port n).skewed = true ∧
        condWord 1 6 (n * 256 + min (s.dev.markOff n w sb.cycle.toNat) 255) ∈ t.dev.words ∧ RegsBut s t (condRegs 1 0))) ∧
    (∀ sb : Sideband, (∀ o ∈ sb.words, o = none) → Runs (.lswReceive p sb) s fun t => t = s) ∧
    (∀ code : Byte, Runs (.protoErrReceived p code) s fun t => OnlyRaises s t 3 0xF (code.toNat * 256 + n) n)


/-! ## Packets, admission, trains and the switch core -/

/-- HEADER_LOOKUP (R71, R132, R157, R161, R202). On a port that takes cells with no retry open and no EMU role, for a
packet on a valid VC that overruns nothing: its cells advance the tags of the port; where its hold has no room it is
an overrun, provisional until confirmed; where it fails a test of R157 it is provisional with that test's number;
where it passes them, does not ask for order, is for an endpoint of this device and is no Fan copy, it waits
unconfirmed in its ingress hold for the endpoint's port on the VC of phase 0 and side 0, its HOPS set to HOP_LIMIT
where the partner is no switch. No other packet, no queue entry and no register changes. -/
def Obligations.HeaderLookupPlacesPacket : Prop :=
  ∀ (s : State) (p : BitVec 7) (pk : Packet) (k : Nat),
    let n := p.toNat
    let d := s.dev
    let x := d.port n
    let h := if d.pSwitch n then pk.hdr else { pk.hdr with hops := BitVec.ofNat 6 d.hopLimit }
    takesCells x = true → x.reqOpen = false → d.isEmu n = false → vcValid (d.pSwitch n) pk.hdr.cls.toNat pk.hdr.vc.toNat = true →
    d.overruns n pk.hdr k = false →
    Runs (.headerLookup p pk k) s fun t => Kept s t ∧ t.dev.queue = d.queue ∧ t.dev.regs = d.regs ∧
      (t.dev.port n).rxTag = x.rxTag + BitVec.ofNat 12 (cellsOfPkt pk.hdr) ∧
      (d.holdFull n pk.hdr = true → ∃ q, t.dev.pkts = d.pkts ++ [q] ∧ q.id = d.nextId ∧ q.ing = some n ∧ q.pk = pk ∧ q.conf = false ∧
        q.st = .dropped { cause := .overrun, atOut := false, port := n }) ∧
      (d.holdFull n pk.hdr = false → ∀ c, d.tests (some n) h = some c → ∃ q, t.dev.pkts = d.pkts ++ [q] ∧ q.id = d.nextId ∧
        q.ing = some n ∧ q.pk.hdr = h ∧ q.conf = false ∧ q.st = .dropped { cause := .pkt c, atOut := false, port := n }) ∧
      (d.holdFull n pk.hdr = false → d.tests (some n) h = none → (d.dt h.dstId.toNat).ty = 1 → (d.dt h.dstId.toNat).coord = d.own →
        h.viaV = false → h.order = false → h.op ≠ 0x31 → ∃ q, t.dev.pkts = d.pkts ++ [q] ∧ q.id = d.nextId ∧ q.ing = some n ∧
        q.pk = { pk with hdr := h } ∧ q.arr = some pk.hdr ∧ q.conf = false ∧ q.verd = (! h.spec) ∧ q.st = .hold ∧ q.mcast = false ∧
        q.tgts = [{ port := some ((d.dt h.dstId.toNat).ref % 128), dir := 0, vc := vcOf h.cls.toNat 0 0 }])

/-- CELL_CONFIRM and CELL_STOMP (R71, R73, R150, R158, R490). A good verdict on an unconfirmed packet whose VERDICT is
0 and whose CRC is right, waiting in its hold of a port without EMU role and without captures, counts one packet and
its bytes on the VC it arrived on, confirms it there and on its queue entries, and leaves every other packet. A packet
stomped by its partner, one with another VERDICT, and one with a wrong CRC (which raises PKT 0Ah and counts) leave the
device, and no entry of theirs that has not begun stays queued; a confirmed packet is not stomped. -/
def Obligations.ConfirmationAndStomp : Prop :=
  ∀ (s : State) (id : Nat) (k : Pkt) (p : Nat),
    let d := s.dev
    d.pkt id = some k → k.conf = false → k.ing = some p → d.lost = [] → d.emuRole p = 0 →
    let Gone (t : State) : Prop := Kept s t ∧ (∀ x ∈ t.dev.pkts, x.id ≠ id) ∧ (∀ q ∈ t.dev.queue, q.pid = id → q.begun = true ∧ q.stomped = true)
    let a := rp 0x10 (0x100 + 0x20 * k.arrived.hdr.vc.toNat) p
    (k.verd = true → k.pk.verdict = 0 → k.pk.crc = pktCrc k.arrived.hdr k.pk.payload → k.st = .hold → k.dues = [] → k.owed = none →
      k.sentOn = [] → d.caps = [] → p < 128 → Runs (.cellConfirm id) s fun t => Kept s t ∧
        t.dev.rd64 (a + 8) = (d.rd64 (a + 8) + 1) % 2 ^ 64 ∧ t.dev.rd64 a = (d.rd64 a + pktLen k.arrived.hdr) % 2 ^ 64 ∧
        t.dev.pkts = d.pkts.map (fun x => if x.id = id then { x with conf := true, dues := [], owed := none, sentOn := [] } else x) ∧
        t.dev.queue = d.queue.map (fun q => if q.pid = id then { q with conf := true } else q) ∧ RegsBut s t [a, a + 4, a + 8, a + 12]) ∧
    (k.verd = true → k.pk.verdict ≠ 0 → Runs (.cellConfirm id) s Gone) ∧
    (k.verd = true → k.pk.verdict = 0 → k.pk.crc ≠ pktCrc k.arrived.hdr k.pk.payload → Runs (.cellConfirm id) s Gone) ∧
    Runs (.cellStomp id) s Gone

/-- ADMISSION_ROUND accepts a packet that presents alone (R182, R183, R186). In a round in which one packet presents,
a confirmed unicast that is neither ordered, drained, parked behind others nor watched, and the keeper's test of R186
grants it at an output, it leaves its hold, joins that output's queue as its last entry, unbegun, on the VC of its
target and with its cell count, and those cells are drawn from the output's budget of its class for this frame or the
next, as the grant says. -/
def Obligations.AdmissionAcceptsPacket : Prop :=
  ∀ (s : State) (r : BitVec 4) (k : Pkt) (tg : Tgt) (o : Nat) (nx : Bool),
    let d := s.dev
    let c := k.pk.hdr.cls.toNat
    let n := cellsOfPkt k.pk.hdr
    d.pkts.filter d.presents = [k] → d.pkt k.id = some k → d.orderPort k = none → d.affected k = none → d.behindParked k = false →
    k.mcast = false → k.conf = true → k.use = .plain → isWatched k.pk.hdr = false → k.tgts = [tg] → c ≠ 1 →
    d.tryTgt r.toNat k tg = .ok o nx → d.lost = [] → (∀ e ∈ d.queue, e.key < d.nextId) →
    Runs (.admissionRound r) s fun t => Kept s t ∧ t.dev.pkts = d.pkts.filter (fun x => x.id != k.id) ∧
      (∃ q, t.dev.queue = d.queue ++ [q] ∧ q.pid = k.id ∧ q.out = o ∧ q.cls = c ∧ q.vc = tg.vc ∧ q.n = n ∧ q.begun = false ∧
        q.conf = true ∧ q.draw = d.now + (if nx then 1 else 0)) ∧
      t.dev.budOf o c = (if nx then ((d.budOf o c).1, (d.budOf o c).2 - n) else ((d.budOf o c).1 - n, (d.budOf o c).2))

/-- ORDER_PRESENT, ORDER_RELEASE and ORDER_TIMEOUT (R164, R166). A confirmed ORDER packet at the head of its hold,
bound for a tracked port and not drained or behind parked packets: when another of its pair is held or released it
leaves the device; when its tracker meets its count and its output grants it, it is accepted: it leaves its hold, its
entry waits unbegun in that output's queue, and its tracker begins its next epoch; when its tracker does not meet its
count it is held from this frame. A held packet whose tracker meets its count is released (the buffers and FC_XOFF of
the holds follow, and nothing else changes). A held packet whose count is not met for WAIT frames leaves the device,
and its tracker begins its next epoch with that epoch's count at 0. -/
def Obligations.OrderPacketsMeetTheirTracker : Prop :=
  ∀ (s : State) (id o : Nat) (k : Pkt),
    let d := s.dev
    let tr := mapGet {} d.trks (trkKey o k.pk.hdr.srcId)
    d.pkt id = some k → d.orderPort k = some o →
    (k.st = .hold → k.conf = true → d.isHead k = true → d.affected k = none → d.behindParked k = false →
      (d.orderBusy k o = true → Runs (.orderPresent id) s fun t => Kept s t ∧ ∀ x ∈ t.dev.pkts, x.id ≠ id) ∧
      (d.orderBusy k o = false → orderMet tr k.pk.hdr = true → isWatched k.pk.hdr = false → id < d.nextId →
        ∀ tg rest o1 nx, k.tgts = tg :: rest → d.tryTgt 0 k tg = .ok o1 nx → Runs (.orderPresent id) s fun t => Kept s t ∧
          (∀ x ∈ t.dev.pkts, x.id ≠ id) ∧ (∃ q ∈ t.dev.queue, q.pid = id ∧ q.out = o1 ∧ q.begun = false) ∧
          mapGet {} t.dev.trks (trkKey o k.pk.hdr.srcId) = (if tr.q then { tr with k1 := 0, q := false } else { tr with k0 := 0, q := true })) ∧
      (d.orderBusy k o = false → orderMet tr k.pk.hdr = false → Runs (.orderPresent id) s fun t => Kept s t ∧
        t.dev = ({ d with pkts := d.pkts.map (fun x => if x.id = id then { x with st := .ordHeld, since := d.now } else x) } : Dev).holdsMoved)) ∧
    (k.st = .ordHeld → orderMet tr k.pk.hdr = true → Runs (.orderRelease id) s fun t => Kept s t ∧
      t.dev = ({ d with pkts := d.pkts.map (fun x => if x.id = id then { x with st := .released } else x) } : Dev).holdsMoved) ∧
    (k.st = .ordHeld → orderMet tr k.pk.hdr = false → max 1 (d.fld (ra 4 4) 0 16) ≤ d.age k.since →
      Runs (.orderTimeout id) s fun t => Kept s t ∧ (∀ x ∈ t.dev.pkts, x.id ≠ id) ∧
        mapGet {} t.dev.trks (trkKey o k.pk.hdr.srcId) = (if tr.q then { tr with k1 := 0, q := false } else { tr with k0 := 0, q := true }))

/-- TRAIN_SELECT, TRAIN_COMPLETE and BOUND_MISS (R69, R74, R87, R125, R133, R182, R490). On a linked port that is not
idle, a link control block that waits, 63 block slots behind the last, enters the block stream before the next cell.
With none due, in UP and with room in the replay buffer: when the order of R133 picks a packet whose first cell is
read without error, its train begins: that cell enters the replay buffer with the next RSEQ and tag, and its eight
data blocks the stream, and its queue entry has begun; the next cell of a train in progress goes the same way. When
the last cell of the train of a confirmed packet is in the replay buffer, the train is complete: its entry leaves the
queue, the train is sent without stomp, and one packet and its bytes are counted on its VC. A queued packet, cells of
which are still to be sent, that can no longer leave within its bound is lost: FRM 05h is raised with the port and
class, and the entry leaves the queue, or, where its train has begun, completes it stomped. -/
def Obligations.TrainsBeginAndEnd : Prop :=
  ∀ (s : State) (p : BitVec 7),
    let n := p.toNat
    let d := s.dev
    let x := d.port n
    (∀ b rest u, linked x.st = true → d.txIdle n = false → x.ctlBlocks = b :: rest → 63 ≤ x.sinceCtl → Runs (.trainSelect p u) s fun t =>
      PortAnd s t n [] [.linkCtl n b] ∧
      t.dev.port n = { x with ctlBlocks := rest, stream := x.stream ++ [TxItem.blk (ctlBlk b)], sinceCtl := 0 }) ∧
    (x.st = .up → d.txIdle n = false → (x.ctlBlocks = [] ∨ x.sinceCtl < 63) → d.replayFull n = false → d.lost = [] →
      (∀ y q u, x.train = none → d.pickTrain n = (y, some q) → d.queue.find? (fun e => e.key == q.key) = some q → q.stomped = false →
        d.badRead q u = none → d.injs = [] → x.rxXoff = 0 → Runs (.trainSelect p u) s fun t => Kept s t ∧
          let z := t.dev.port n
          z.train = some q.key ∧ z.cellsSent = 1 ∧ z.sndRseq = y.sndRseq + 1 ∧ z.txTag = y.txTag + 1 ∧
          (∃ c, z.replay = y.replay ++ [c] ∧ c.rseq = y.sndRseq ∧ c.tag = y.txTag ∧ c.pid = q.pid ∧ c.idx = 0 ∧ c.bad = false ∧
            z.stream = y.stream ++ (cellBlocks c.pk 0).map TxItem.blk) ∧
          (∀ e ∈ t.dev.queue, e.key = q.key → e.begun = true) ∧ t.dev.queue.length = d.queue.length) ∧
      (∀ key q u, x.train = some key → d.queue.find? (fun e => e.key == key) = some q → x.cellsSent < q.n → q.stomped = false →
        d.badRead q u = none → Runs (.trainSelect p u) s fun t => Kept s t ∧ t.dev.queue = d.queue ∧
          let z := t.dev.port n
          z.train = some key ∧ z.cellsSent = x.cellsSent + 1 ∧ z.sndRseq = x.sndRseq + 1 ∧ z.txTag = x.txTag + 1 ∧
          ∃ c, z.replay = x.replay ++ [c] ∧ c.rseq = x.sndRseq ∧ c.tag = x.txTag ∧ c.pid = q.pid ∧ c.idx = x.cellsSent ∧ c.pk = q.pk ∧
            z.stream = x.stream ++ (cellBlocks q.pk x.cellsSent).map TxItem.blk)) ∧
    (∀ key q, x.train = some key → d.queue.find? (fun e => e.key == key) = some q → x.cellsSent = q.n → q.stomped = false → q.conf = true → q.use = .plain →
      d.caps = [] → q.pk.hdr.vc.toNat < 16 → Machine.fld (d.rd (rp 5 0x300 n)) 30 2 = 0 →
      let a := rp 0x10 (0x110 + 0x20 * q.pk.hdr.vc.toNat) n
      Runs (.trainComplete p) s fun t => Kept s t ∧ t.dev.queue = d.queue.filter (fun e => e.key != key) ∧
        t.dev.port n = { x with train := none } ∧ t.dev.out = .train n q.pk false :: d.out ∧
        t.dev.rd64 a = (d.rd64 a + pktLen q.pk.hdr) % 2 ^ 64 ∧ t.dev.rd64 (a + 8) = (d.rd64 (a + 8) + 1) % 2 ^ 64 ∧
        RegsBut s t [a, a + 4, a + 8, a + 12]) ∧
    (∀ id q, d.queue.find? (fun e => e.out == n && e.pid == id && ! e.stomped) = some q → d.late q = true → d.sentOf q < q.n → (d.queue.map (·.key)).Nodup →
      Runs (.boundMiss p id) s fun t => Kept s t ∧ condWord 1 5 (n * 256 + q.cls) ∈ t.dev.words ∧
        ∀ e ∈ t.dev.queue, e.key = q.key → q.begun = true ∧ e.stomped = true)

/-- SAMPLE_CONSUME and CORE_WMARK_CLR (R12, R192, R193). A write of a sample head that reaches its block and is below
the ring's SIZE becomes the head, keeps the register's other bits, and changes nothing else; one at or above SIZE
changes nothing. WMARK_CLR puts every watermark register of the CORE block at its reset value and changes no other
register and nothing else. -/
def Obligations.SampleRingAndWatermarks : Prop :=
  (∀ (s : State) (src : Src) (k : BitVec 2) (v : Word),
    let a := ra 5 (0x400F14 + 0x1000 * k.toNat)
    Reached s src a →
    (Machine.fld v 0 10 < s.dev.fld (ra 5 (0x4000A0 + 0x1000 * k.toNat)) 0 19 → Takes (.sampleConsume src k v) s fun t =>
      RegsOnly s t ∧ RegsBut s t [a] ∧ t.dev.fld a 0 10 = Machine.fld v 0 10 ∧ t.dev.fld a 10 22 = s.dev.fld a 10 22) ∧
    (s.dev.fld (ra 5 (0x4000A0 + 0x1000 * k.toNat)) 0 19 ≤ Machine.fld v 0 10 → Takes (.sampleConsume src k v) s fun t => t = s)) ∧
  (∀ (s : State) (src : Src), Reached s src (ra 5 0) → Takes (.coreWmarkClr src) s fun t => RegsOnly s t ∧
    ∀ a, t.dev.rd a = if isCoreWmark a then regRst a else s.dev.rd a)

/-- BRIDGE_UNCORR, PART_FAULT and PART_INIT_FAIL (R25, R27, R28, R42, R43). An uncorrectable word of a switched cell
on its output's lane bridge raises GLB 01h with bridge and receiving die and loses the packet at that output: its
entry leaves the queue, or completes stomped where its train has begun. On its ingress port's lane bridge it takes a
confirmed packet out of its hold. A bridge that carries no cell of the packet to that die changes nothing. One of a
Basin completion or write that the bridge carries raises GLB 01h and takes the data from the entries not begun. A part
that is UP and fails enters FAULT with its GLB condition, and with the data path in service a data-path reset is due
at the next boundary; a part in INIT that fails enters FAULT with its condition alone. No other part changes. -/
def Obligations.FaultsOfBridgesAndParts : Prop :=
  (∀ (s : State) (b : Fin 15) (die : Fin 12) (id : Nat) (out : BitVec 7) (q : QEnt),
    s.dev.queue.find? (fun e => e.pid == id && e.out == out.toNat) = some q → q.stomped = false →
    s.dev.viaOut b.val die.val out.toNat = true → s.dev.sentOf q < q.n → (s.dev.queue.map (·.key)).Nodup →
    Runs (.bridgeUncorr b die (.cell id out)) s fun t => Kept s t ∧ condWord 0 1 (b.val * 256 + die.val) ∈ t.dev.words ∧
      ∀ e ∈ t.dev.queue, e.key = q.key → q.begun = true ∧ e.stomped = true) ∧
  (∀ (s : State) (b : Fin 15) (die : Fin 12) (id : Nat) (out : BitVec 7) (k : Pkt) (p : Nat),
    s.dev.pkt id = some k → k.ing = some p → k.conf = true → inHold k = true → s.dev.viaIn b.val die.val p = true →
    Runs (.bridgeUncorr b die (.cell id out)) s fun t => Kept s t ∧ condWord 0 1 (b.val * 256 + die.val) ∈ t.dev.words ∧
      ∀ x ∈ t.dev.pkts, x.id ≠ id) ∧
  (∀ (s : State) (b : Fin 15) (die : Fin 12) (id : Nat) (out : BitVec 7), s.dev.loseCell b.val die.val id out.toNat = none →
    Runs (.bridgeUncorr b die (.cell id out)) s fun t => t = s) ∧
  (∀ (s : State) (b : Fin 15) (die : Fin 12) (id : Nat) (pk : Packet), s.dev.findPk id = some pk → (pk.hdr.op = 0x15 ∨ pk.hdr.op = 0x01) →
    s.dev.basCrosses b.val die.val ((s.dev.pkt id).bind (·.ing)) ((s.dev.queue.filter (fun q => q.pid == id)).map (·.out)) pk = true →
    Runs (.bridgeUncorr b die (.basin id)) s fun t => Kept s t ∧ condWord 0 1 (b.val * 256 + die.val) ∈ t.dev.words ∧
      t.dev.queue.length = s.dev.queue.length ∧
      (∀ e ∈ t.dev.queue, e.pid = id → e.begun = false → e.n = 1 ∧ e.pk.hdr.len = 0)) ∧
  (∀ (s : State) (pt : Part),
    let w := match pt with
      | .die i => condWord 0 2 i.val
      | .stack i => condWord 0 3 i.val
      | .bridge i => condWord 0 5 (i.val * 256)
    let Failed (t : State) : Prop := Kept s t ∧ w ∈ t.dev.words ∧ RegsBut s t (condRegs 0 0) ∧
      (t.dev.dies = match pt with | .die i => s.dev.dies.set i.val .fault | _ => s.dev.dies) ∧
      (t.dev.hbms = match pt with | .stack i => s.dev.hbms.set i.val .fault | _ => s.dev.hbms) ∧
      (t.dev.bridges = match pt with | .bridge i => s.dev.bridges.set i.val .fault | _ => s.dev.bridges)
    (s.dev.partSt pt = .up → Runs (.partFault pt) s fun t => Failed t ∧ t.dev.dpDue = s.dev.inService) ∧
    (s.dev.partSt pt = .init → Runs (.partInitFail pt) s fun t => Failed t ∧ t.dev.dpDue = s.dev.dpDue))


/-! ## Routing -/

/-- COORD_WRITE, ROUTE_ACT_GO, ROUTE_ACT_CANCEL and DRAIN_START (R198, R199, R222, R223, R226). Col's write of the
coordinate takes effect while the strap bit for it is 1b and no torus port is in CHECK, UP or QUAR, and changes
nothing else; a write that misses one of these raises ROUTE 02h with the level of its source. A GO in an aligned frame
with no activation armed, T beyond the drain and at most 2^20 frames ahead, a valid overlay where it names one, and a
staged and recorded amendment that fits where it names one, arms exactly that activation and changes no other register
than ROUTE_ACT_CTL. A CANCEL takes an armed activation away, or raises ROUTE 05h with reason 6 where nothing is armed,
or where the activation is due in this frame (the model's reading, log 96). From T less its drain the armed activation
drains, with ROUTE 06h. -/
def Obligations.RoutingActivationIsArmed : Prop :=
  (∀ (s : State) (src : Src) (v : Word), Reached s src (ra 6 0) →
    let busy := s.dev.validPorts.any (fun p => s.dev.isTorus p && [PortSt.check, .up, .quar].contains (s.dev.port p).st)
    (isCol src = true → Machine.bit s.dev.straps 15 = true → busy = false → Takes (.coordWrite src v) s fun t =>
      DevIs s t { s.dev with coord := BitVec.ofNat 12 (Machine.fld v 0 12), coordV := true }) ∧
    ((isCol src = false ∨ Machine.bit s.dev.straps 15 = false ∨ busy = true) → Takes (.coordWrite src v) s fun t =>
      OnlyRaises s t 6 2 (srcLevel src) 0)) ∧
  (∀ (s : State) (src : Src) (v : Word), Reached s src (ra 6 0x40) →
    let d := s.dev
    let c := v &&& 0x000F7F7F
    let t0 := d.rd64 (ra 6 0x44) % 2 ^ 48
    (Machine.bit v 31 = true → Machine.bit v 30 = false → d.aligned = true → d.fno + drainOf (Machine.fld c 0 6) < t0 →
      t0 ≤ d.fno + 2 ^ 20 → d.ract = none → d.plat.act = none → (Machine.bit c 18 = true → d.ovlOn (Machine.fld c 16 2) = true) →
      (Machine.bit c 19 = true → d.plat.load = .staged ∧ cKind s.nv.stage = 1 ∧
        s.nv.bootUsed + bootRoom s.nv.stage ≤ 0x1000000 ∧ d.plat.digest = sha256 s.nv.stage) →
      Takes (.routeActGo src v) s fun t => Kept s t ∧ RegsBut s t [ra 6 0x40] ∧ t.dev.rd (ra 6 0x40) = c ∧
        t.dev = { d with regs := t.dev.regs, ract := some { t := t0, drain := drainOf (Machine.fld c 0 6)
                                                            ovl := if Machine.bit c 18 then some (Machine.fld c 16 2) else none
                                                            amend := Machine.bit c 19, classes := Machine.fld c 8 7, park := Machine.bit c 6 } }) ∧
    (Machine.bit v 31 = false → Machine.bit v 30 = true →
      (d.ract ≠ none → d.ractDue = false → Takes (.routeActCancel src v) s fun t => Kept s t ∧ RegsBut s t [ra 6 0x40] ∧
        t.dev = { d with regs := t.dev.regs, ract := none }) ∧
      ((d.ract = none ∨ d.ractDue = true) → Takes (.routeActCancel src v) s fun t => Kept s t ∧ condWord 6 5 0x600 ∈ t.dev.words ∧
        RegsBut s t (ra 6 0x40 :: condRegs 6 0) ∧ t.dev.ract = d.ract))) ∧
  (∀ (s : State) (a : Act), s.dev.ract = some a → a.draining = false → a.t ≤ s.dev.fno + a.drain → s.dev.fno < a.t →
    Runs .drainStart s fun t => Kept s t ∧
      RaisedOn { s.dev with ract := some { a with draining := true } } t.dev 6 6 (a.ovl.getD 0) 0)

/-- ACTIVATED and PARKED_REPRESENT (R224, R225, R388). While no action on the stage waits for it: in frame T, aligned
and not held by the TAP, an armed activation ends, its overlay is the active one (the active overlay stays where it
names none), and ROUTE 07h is raised with it; without an amendment flash stays, with one whose base is the active
epoch and which breaks no rule for amendments, the container joins the boot partition, the floor and the active epoch
are its epoch and the stage is EMPTY. Basin stays. In a frame that is not aligned the activation ends with FRM 04h
instead. A parked packet that drains again stays parked (only buffers and FC_XOFF of holds follow). Else, within the
port's cells of the frame, it is looked up again and leaves Oxbow: for its engine, as a drop, or accepted at its
output, where it joins the queue. -/
def Obligations.RoutingChangesInFrameT : Prop :=
  (∀ (s : State) (a : Act), s.dev.ract = some a → a.t ≤ s.dev.fno → s.dev.tapHeld = false → s.dev.obvo.held = [] → s.dev.aligned = true →
    Runs .activated s fun t => t.pending = s.pending ∧ t.mem = s.mem ∧ t.dev.ract = none ∧
      t.dev.ovl = a.ovl.getD s.dev.ovl ∧ condWord 6 7 (a.ovl.getD s.dev.ovl) ∈ t.dev.words ∧
      (a.amend = false → t.nv = s.nv) ∧
      (a.amend = true → s.dev.plat.active = true → cBase s.nv.stage = s.dev.plat.epoch →
        ({ s.dev with ract := none } : Dev).ruleFour (({ s.dev with ract := none } : Dev).setRecs (cRecs s.nv.stage)) = none →
        t.nv = { s.nv with floor := cEpoch s.nv.stage, boot := s.nv.boot ++ [s.nv.stage], stage := [], stageOk := false, stageTrail := false } ∧
        t.dev.plat.epoch = cEpoch s.nv.stage ∧ t.dev.plat.load = .empty)) ∧
  (∀ (s : State) (a : Act), s.dev.ract = some a → a.t ≤ s.dev.fno → s.dev.tapHeld = false → s.dev.obvo.held = [] → s.dev.aligned = false →
    Runs .activated s fun t => Kept s t ∧ t.dev.ract = none ∧ t.dev.ovl = s.dev.ovl ∧ RegsBut s t (condRegs 1 0)) ∧
  (∀ (s : State) (p : BitVec 7) (k : Pkt),
    let d := s.dev
    let n := p.toNat
    let used := mapGet 0 d.reps n
    let r := (d.oxDraw (d.oxbow.findIdx (fun e => e.2 == k.id)) k).relook k
    let k1 := r.2
    let d0 : Dev := { r.1.onPkt k.id (fun _ => k1) with reps := mapSet 0 d.reps n (used + cellsOfPkt k.pk.hdr) }
    ((d.oxbow.map (·.2)).filterMap d.pkt).filter (fun x => x.st == .parked && x.ing == some n) = [k] → k.conf = true → d.lost = [] →
    (d.affected k ≠ none → Runs (.parkedRepresent p) s fun t => DevIs s t d.holdsMoved) ∧
    (d.affected k = none → (used = 0 ∨ used + cellsOfPkt k.pk.hdr ≤ d.cap n) →
      (k1.st = .engine → Runs (.parkedRepresent p) s fun t => Kept s t ∧ t.dev.oxbow = d.oxbow.filter (fun e => e.2 != k.id) ∧
        t.dev.queue = d.queue ∧ ∃ x ∈ t.dev.pkts, x.id = k.id ∧ x.st = .engine) ∧
      (∀ dr, k1.st = .dropped dr → Runs (.parkedRepresent p) s fun t => Gone s t k.id) ∧
      (∀ tg o nx, k1.st = .hold → k1.mcast = false → k1.dues = [] → k1.tgts = [tg] → d0.orderPort k1 = none → isWatched k1.pk.hdr = false →
        d0.tryTgt 0 k1 tg = .ok o nx → Runs (.parkedRepresent p) s fun t => Gone s t k.id ∧
          t.dev.queue.length = d.queue.length + 1 ∧ (∃ q ∈ t.dev.queue, q.pid = k.id ∧ q.out = o ∧ q.vc = tg.vc) ∧
          t.dev.oxbow = d.oxbow.filter (fun e => e.2 != k.id) ∧ t.dev.reps = mapSet 0 d.reps n (used + cellsOfPkt k.pk.hdr))))

/-- BYPASS_DETECT and BYPASS_MESSAGE (R227, R228, R229). In the frame that completes the dwell after every port to V
has left UP, with a Bypass overlay for V and no overlay active and nothing armed, ROUTE 09h is raised with V and that
overlay is armed for the frame number LEAD frames ahead, its drain cut to what is left, with the classes and parking
of ROUTE_BYP_CFG. A received proposal of overlay 1 to 3 for a frame to come arms that overlay for that frame under the
same conditions, and its packet leaves the device; of two proposals the earlier frame stands, then the lower overlay,
and ROUTE 0Ah names the other. No flash, no Basin and no active overlay changes. -/
def Obligations.BypassArmsItsOverlay : Prop :=
  let armed (d : Dev) (n t dr : Nat) : Act :=
    { t := t, drain := dr, ovl := some n, classes := Machine.fld (d.rd (ra 6 0x54)) 0 7
      park := Machine.bit (d.rd (ra 6 0x54)) 7, byBypass := true }
  let cut (d : Dev) (t : Nat) : Nat :=
    let dr := drainOf (d.fld (ra 6 0x50) 0 6)
    if t ≤ d.fno + dr then t - (d.fno + 1) else dr
  (∀ (s : State) (v : BitVec 12) (n : Nat),
    let d := s.dev
    let ps := d.portsTo v.toNat
    let t0 := (d.fno + Machine.fld (d.rd (ra 6 0x50)) 16 16) % 2 ^ 48
    ps ≠ [] → (∀ p ∈ ps, (d.port p).st ≠ .up) → (∃ p ∈ ps, (d.port p).wasUp = true) →
    (ps.map (fun p => (d.port p).tOut)).foldl max 0 + max 1 (Machine.fld (d.rd (ra 6 0x50)) 8 8) = d.now + 1 →
    [1, 2, 3].find? (fun k => d.ovlOn k && d.bit (ra 6 (0x10 + 4 * k)) 30 && d.ovlFor k == v.toNat) = some n →
    d.ovl = 0 → d.plat.act = none → d.ract = none → d.fno < t0 →
    Runs (.bypassDetect v) s fun t => Kept s t ∧ t.dev.ovl = d.ovl ∧ condWord 6 9 v.toNat ∈ t.dev.words ∧
      t.dev.ract = some (armed d n t0 (cut d t0))) ∧
  (∀ (s : State) (id : Nat) (k : Pkt),
    let d := s.dev
    let n := leAt k.pk.payload 2 1
    let t0 := leAt k.pk.payload 3 6
    d.pkt id = some k → k.st = .engine → k.conf = true → ctlMsg 6 k = true → leAt k.pk.payload 1 1 = 1 → id < d.nextId → 1 ≤ n → n ≤ 3 → d.ovl = 0 → d.plat.act = none →
    (d.ract = none → d.fno < t0 → Takes (.bypassMessage id) s fun t => Gone s t id ∧ t.dev.ovl = d.ovl ∧
      t.dev.ract = some (armed d n t0 (cut d t0))) ∧
    (∀ a m, d.ract = some a → a.byBypass = true → a.ovl = some m →
      ((t0 < a.t ∨ (t0 = a.t ∧ n < m)) → Takes (.bypassMessage id) s fun t => Gone s t id ∧ t.dev.ovl = d.ovl ∧
        condWord 6 0xA (m * 4096 + d.ovlFor m) ∈ t.dev.words ∧
        t.dev.ract = some { armed d n t0 (drainOf (d.fld (ra 6 0x50) 0 6)) with draining := a.draining }) ∧
      (¬ (t0 < a.t ∨ (t0 = a.t ∧ n < m)) → Takes (.bypassMessage id) s fun t => Gone s t id ∧ t.dev.ract = some a)))


/-! ## Catchment and the collectives -/

/-- CLUSTER_ADMIT, ACCUMULATE, CAT_CONTRIB, CAT_PARTIAL and RETRACT (R236, R240, R241, R244, R246, R255, R256, R260,
R275, R276). The first contender of its cluster in the order of R62, acceptable, of another class than CORR and for a
chunk in store, is taken when its core die has the engine-cycles of this frame, which it draws. Its finite values are
then added exactly, element by element, to their sums, unless escaped sums find no record; an uncorrectable read frees
nothing and fails the group's collective. Once confirmed and added, its flags join, and its contributor is marked with
the frame, a partial's when its last segment is there; the packet leaves. A confirmed packet that a check refuses
leaves, is retracted if it was added, and raises that check's condition; one beyond the window waits. The first
pending retraction of a cluster, in the order of the stomps, within the 96 cycles of the frame subtracts exactly what
it names. -/
def Obligations.ContributionsAreAccumulated : Prop :=
  ∀ (s : State) (id : Nat) (k : Pkt),
    let d := s.dev
    let g := d.refGroup k.pk
    let c := catChunk k.pk
    let e := d.gt g
    let kd := chunkDie g c
    let n := catCost k.pk
    let first := (d.packetElts k).1
    let es := (d.packetElts k).2.1
    let ChunksAnd (t : State) (regs : List Nat) : Prop := Kept s t ∧ RegsBut s t regs ∧
      t.dev = { d with chunks := t.dev.chunks, pkts := t.dev.pkts, units := t.dev.units, regs := t.dev.regs } ∧
      ∀ g1 c1, (g1 ≠ g ∨ c1 ≠ c) → t.dev.chunk g1 c1 = d.chunk g1 c1
    d.pkt id = some k → (k.pk.hdr.op = 0x20 ∨ k.pk.hdr.op = 0x21) →
    (∀ ch rest, d.tieOrder (d.pkts.filter (d.catHead kd)) = k :: rest → d.catCheck k = .ok → k.pk.hdr.cls ≠ 1 →
      (k.conf = true → d.bit (rp 5 0x300 (k.ing.getD 0)) 30 = false) → d.chunk g c = some ch → ch.spill = false →
      let room := 4000 - d.fld (ra 7 4) 0 12
      (d.drawn kd 0).1 + n ≤ min room (d.pwr.scale * room / 256) →
      Runs (.clusterAdmit id) s fun t => ChunksAnd t [ra 7 (0x400010 + 0x1000 * kd), ra 7 (0x400014 + 0x1000 * kd)] ∧
        t.dev.pkt id = some { k with st := .taken } ∧ t.dev.drawn kd 0 = ((d.drawn kd 0).1 + n, (d.drawn kd 0).2) ∧
        t.dev.chunk g c = some { ch with taken := ch.taken ++ [{ pid := id, who := d.who k, units := n, acc := d.now }] } ∧
        t.dev.rd64 (ra 7 (0x400010 + 0x1000 * kd)) = (d.rd64 (ra 7 (0x400010 + 0x1000 * kd)) + n) % 2 ^ 64) ∧
    (∀ ch, k.st = .taken → d.chunk g c = some ch → (∃ t ∈ ch.taken, t.pid = id ∧ t.added = false) →
      (∀ u, u = (addPacket e first es (d.packetElts k).2.2 ch) → k.conf = false →
        (ch.spill = true ∨ (u.accs.filter (·.esc)).length - (ch.accs.filter (·.esc)).length ≤ d.freeRecs kd) →
        Runs (.accumulate id false) s fun t =>
          ChunksAnd t [ra 7 (0x400020 + 0x1000 * kd), ra 7 (0x400024 + 0x1000 * kd)] ∧ t.dev.pkts = d.pkts ∧
          t.dev.chunk g c = some { u with taken := ch.taken.map (fun y => if y.pid = id then { y with added := true } else y) } ∧
          (e.op < 2 → ∀ i a, ch.accs[i]? = some a → ∃ b, u.accs[i]? = some b ∧
            b.v = a.v + (if first ≤ i then (es[i - first]?.map (·.fin)).getD 0 else 0))) ∧
      Runs (.accumulate id true) s fun t => Kept s t ∧ t.dev.chunk g c = some ch ∧
        (if ch.spill then condWord 7 0x17 g else condWord 7 0x18 (kd * 4096 + g)) ∈ t.dev.words) ∧
    (∀ (cmd : Instr), (k.st = .engine ∨ k.st = .taken) → k.conf = true → id < d.nextId →
      (cmd = .catContrib id ∧ k.pk.hdr.op = 0x20 ∨ cmd = .catPartial id ∧ k.pk.hdr.op = 0x21) →
      (∀ ch, d.catCheck k = .ok → d.chunk g c = some ch → (∃ t ∈ ch.taken, t.pid = id ∧ t.added = true) →
        Runs cmd s fun t => ChunksAnd t [] ∧ (∀ x ∈ t.dev.pkts, x.id ≠ id) ∧ ∃ ch1, t.dev.chunk g c = some ch1 ∧
          ch1.taken = ch.taken.filter (fun y => y.pid != id) ∧ ch1.accs = zipAccs (addConf e.fmt e.op) first es ch.accs ∧
          (k.pk.hdr.op = 0x20 → ch1.marks = ch.marks ++ [(k.ing.getD 0, d.frm.no.setWidth 16)] ∧ ch1.segs = ch.segs) ∧
          (k.pk.hdr.op = 0x21 → ch1.segs.length = ch.segs.length + 1 ∧
            ch1.marks = (if segsDone ch1.segs (d.dir (k.ing.getD 0)) then ch.marks ++ [(d.who k, d.frm.no.setWidth 16)] else ch.marks))) ∧
      (d.catCheck k = .stale → Runs cmd s fun t => Gone s t id ∧ condWord 7 2 g ∈ t.dev.words ∧
        t.dev.rd64 (ra 7 0x90) = (d.rd64 (ra 7 0x90) + 1) % 2 ^ 64) ∧
      (d.catCheck k = .off → Runs cmd s fun t => Gone s t id ∧ condWord 7 0x11 g ∈ t.dev.words) ∧
      (∀ r, d.catCheck k = .bad r → Runs cmd s fun t => Gone s t id ∧ condWord 7 0x12 (r * 4096 + g) ∈ t.dev.words) ∧
      (d.catCheck k = .range → Runs cmd s fun t => Gone s t id ∧ condWord 7 4 (k.ing.getD 0) ∈ t.dev.words) ∧
      (d.catCheck k = .dup → Runs cmd s fun t => Gone s t id ∧ condWord 7 0x13 g ∈ t.dev.words) ∧
      (d.catCheck k = .full → Runs cmd s fun t => t = s)) ∧
    (∀ (j : Nat) (ch : Chunk) (r : Retr) rest, j < 4 → d.retrs j = (ch, r) :: rest → d.chunk ch.g ch.c = some ch →
      (∀ i, i < 4 → i ≠ j → ∀ x, (d.retrs i).head? = some x → x.2.pid ≠ r.pid) → (d.drawn j 4).1 + r.units ≤ 96 →
      let u := subPacket (d.gt ch.g).fmt r.vals ch
      (ch.spill = true ∨ (u.accs.filter (·.esc)).length - (ch.accs.filter (·.esc)).length ≤ d.freeRecs j) →
      Runs (.retract r.pid) s fun t => Kept s t ∧ RegsBut s t [ra 7 (0x400020 + 0x1000 * j), ra 7 (0x400024 + 0x1000 * j)] ∧
        t.dev = { d with chunks := t.dev.chunks, units := t.dev.units, regs := t.dev.regs } ∧ t.dev.drawn j 4 = ((d.drawn j 4).1 + r.units, 0) ∧
        t.dev.chunk ch.g ch.c = some { ch with accs := u.accs, retr := ch.retr.filter (fun x => x != r) } ∧
        ∀ i a, ch.accs[i]? = some a → ∃ b, u.accs[i]? = some b ∧ b.v = a.v - ((r.vals.find? (fun e => e.1 == i)).map (·.2)).getD 0)

/-- CHUNK_COMPLETE, PARTIAL_EMIT and RESULT_HANDOVER (R258, R259, R275, R278, R279, R283). A chunk whose every member
and tree direction is marked, with nothing unconfirmed or to be retracted, becomes complete and nothing else changes.
While the launch is in RUN, a complete chunk of a device that is no root is split into its partial's segments once: no
further command sends it again. A root in RUN hands a complete chunk's result over: the chunk is freed, one more is
EMITTED and one more copy counted, the deadline becomes this frame plus the step timeout with no hold used, the flags
of the result join the launch's, and nothing but the one CAT_RESULT joins the packets. -/
def Obligations.ChunksCompleteAndLeave : Prop :=
  ∀ (s : State) (g : BitVec 12) (c : BitVec 32) (ch : Chunk),
    let d := s.dev
    let l := d.launch g.toNat
    d.chunk g.toNat c.toNat = some ch →
    let Others (t : State) : Prop := ∀ g1 c1, (g1 ≠ g.toNat ∨ c1 ≠ c.toNat) → t.dev.chunk g1 c1 = d.chunk g1 c1
    ((∀ p ∈ (d.gt g.toNat).members, ∃ m ∈ ch.marks, m.1 = p) → (∀ x ∈ (d.gt g.toNat).inDirs, ∃ m ∈ ch.marks, m.1 = 128 + x) →
      ch.taken = [] → ch.retr = [] → Runs (.chunkComplete g c) s fun t => Kept s t ∧ t.dev = { d with chunks := t.dev.chunks } ∧
        t.dev.chunk g.toNat c.toNat = some { ch with complete := true } ∧ Others t) ∧
    (ch.complete = true → l.st = .run → (d.gt g.toNat).outDir ≠ 0 →
      (ch.emitting = false → Runs (.partialEmit g c) s fun t => Kept s t ∧ t.dev.launches = d.launches ∧ Others t ∧
        ∃ n, t.dev.chunk g.toNat c.toNat = some { ch with emitting := true, left := n } ∧ (ch.accs ≠ [] → 0 < n)) ∧
      (ch.emitting = true → Runs (.partialEmit g c) s fun t => t = s)) ∧
    (ch.complete = true → l.st = .run → (d.gt g.toNat).outDir = 0 → Runs (.resultHandover g c) s fun t => Kept s t ∧ Others t ∧
      t.dev.chunk g.toNat c.toNat = none ∧ (∀ x ∈ t.dev.pkts, x ∈ d.pkts ∨ x.pk.hdr.op = 0x22) ∧ t.dev.pkts.length ≤ d.pkts.length + 1 ∧
      (∀ g1, g1 ≠ g.toNat → t.dev.launch g1 = d.launch g1) ∧ (let m := t.dev.launch g.toNat
        m.st = .run ∧ m.emitted = l.emitted + 1 ∧ m.copies = l.copies + 1 ∧ m.holdUsed = 0 ∧ m.deadline = d.fno + l.d.stepF ∧
        m.flags = l.flags ||| (resultOf (d.gt g.toNat) ch.accs).2 ∧ m.d = l.d ∧ l.low ≤ m.low))

/-- CAT_LAUNCH_GO, LAUNCH_START, LAUNCH_DONE and CAT_HOLD (R271, R272, R273, R282, R283, R284, R293). A GO over the
Obvo link whose descriptor breaks none of the rules for a launch arms that group's launch with that descriptor and its
counters at 0; no other launch and no register but CAT_LAUNCH_CTL changes. At START the launch runs, and its deadline,
at a root, is START plus the step timeout. A launch in RUN with every chunk EMITTED and, where results are expected,
every copy seen is DONE and posts its record. A valid hold moves a root's deadline while the ceiling allows, goes on
up the tree elsewhere, and one that is not valid is counted as stale. -/
def Obligations.LaunchesRunToTheirEnd : Prop :=
  (∀ (s : State) (v : Word),
    let d := s.dev
    let l := d.ldesc
    let cur := d.launch l.group
    Machine.bit v 31 = true → Machine.bit v 30 = false → d.writeRefusal .obvo (ra 7 0x58) = none → d.gtOn l.group = true →
    (cur.st = .idle ∨ cur.st = .done ∨ cur.st = .aborted) → (cur.d.nchunk = 0 ∨ cur.d.launch ≠ l.launch) → d.fno + 2 ≤ l.start → l.start ≤ d.fno + 2 ^ 20 →
    l.nchunk ≠ 0 → l.stepF ≠ 0 → 3 * l.treeSpan + 4 ≤ l.abortLead → d.resOk l = true → d.aligned = true →
    Takes (.catLaunchGo .obvo v) s fun t => Kept s t ∧ t.dev = { d with regs := t.dev.regs, launches := t.dev.launches } ∧
      RegsBut s t [ra 7 0x58] ∧ t.dev.rd (ra 7 0x58) = v &&& 0xFFF ∧ t.dev.launch l.group = { st := .armed, d := l } ∧
      ∀ g, g ≠ l.group → t.dev.launch g = d.launch g) ∧
  (∀ (s : State) (g : BitVec 12),
    let d := s.dev
    let n := g.toNat
    let l := d.launch n
    let Others (t : State) : Prop := Kept s t ∧ ∀ g1, g1 ≠ n → t.dev.launch g1 = d.launch g1
    (l.st = .armed → l.d.start ≤ d.fno → Runs (.launchStart g) s fun t => Others t ∧ t.dev = { d with launches := t.dev.launches } ∧
      t.dev.launch n = { l with st := .run, deadline := if (d.gt n).outDir = 0 then l.d.start + l.d.stepF else 0 }) ∧
    (l.st = .run → l.emitted = l.d.nchunk → (l.d.resExpect = true → l.copies = l.d.nchunk) → Runs (.launchDone g) s fun t => Others t ∧
      t.dev.launch n = { l with st := .done } ∧ t.dev.chunks = d.chunks ∧ t.dev.pkts = d.pkts ∧
      (d.obvo.lostSince = 0 → d.obvo.events.length < 4096 → ∃ r, t.dev.obvo.events = d.obvo.events ++ [r]))) ∧
  (∀ (s : State) (id : Nat) (k : Pkt),
    let d := s.dev
    let g := d.refGroup k.pk
    let e := d.gt g
    let l := d.launch g
    let ext := leAt k.pk.payload 4 2
    let rel := (leAt k.pk.payload 6 1).testBit 0
    let good := l.st = .run ∧ l.d.launch.toNat = leAt k.pk.payload 2 2 ∧ ext ≠ 0 ∧ (k.fromSw = false → k.ing.getD 0 ∈ e.members) ∧
      (rel = true → d.dir (k.ing.getD 0) ∈ e.inDirs) ∧ leAt k.pk.payload 0 2 % 0x1000 = g
    d.pkt id = some k → k.pk.hdr.op = 0x23 → k.st = .engine → k.conf = true → id < d.nextId →
    (good → e.outDir = 0 → l.holdUsed + ext ≤ l.d.holdCeil → Takes (.catHold id) s fun t => Gone s t id ∧
      t.dev = { d with pkts := t.dev.pkts, launches := t.dev.launches } ∧
      t.dev.launch g = { l with deadline := l.deadline + ext, holdUsed := l.holdUsed + ext, holds := l.holds + ext }) ∧
    (good → e.outDir = 0 → l.d.holdCeil < l.holdUsed + ext → Takes (.catHold id) s fun t => Gone s t id ∧ condWord 7 5 0 ∈ t.dev.words ∧
      (l.prop = none → (t.dev.launch g).st = .aborting)) ∧
    (good → e.outDir ≠ 0 → Takes (.catHold id) s fun t => Gone s t id ∧ t.dev.launches = d.launches ∧
      ∀ x ∈ t.dev.pkts, x ∈ d.pkts ∨ (x.pk.hdr.op = 0x23 ∧ x.tgts.map (·.dir) = [e.outDir])) ∧
    (¬ good → Takes (.catHold id) s fun t => Gone s t id ∧ t.dev.launches = d.launches ∧ condWord 7 2 g ∈ t.dev.words ∧
      t.dev.rd64 (ra 7 0x90) = (d.rd64 (ra 7 0x90) + 1) % 2 ^ 64))

/-- CAT_LAUNCH_ABORT, STEP_TIMEOUT, CAT_ABORT and ABORT_FRAME (R283, R286, R287, R288, R289, R290). An ABORT over the
Obvo link of a launch in ARMED or RUN, and a root in RUN at its deadline, raise their CAT condition and make the
launch ABORTING with a proposal ABORT_LEAD frames ahead under that condition's word. A received proposal of a held
launch that is lower than the one held, or the first, becomes the one held, with CAT 0Ah; a higher one changes
nothing, and one of no held launch is counted. In the abort frame every chunk of the group is freed, the launch is
ABORTED, and every member port not in UP keeps the abort word of R18 with its register's flag set. No other launch
changes. -/
def Obligations.LaunchesAbort : Prop :=
  (∀ (s : State) (v : Word),
    let d := s.dev
    let g := Machine.fld v 0 12
    let l := d.launch g
    Machine.bit v 31 = false → Machine.bit v 30 = true → d.writeRefusal .obvo (ra 7 0x58) = none → (l.st = .armed ∨ l.st = .run) → l.prop = none →
    Takes (.catLaunchAbort .obvo v) s fun t => Kept s t ∧ condWord 7 0xC 0 ∈ t.dev.words ∧
      t.dev.launch g = { l with st := .aborting, prop := some (d.fno + l.d.abortLead, condWord 7 0xC 0) } ∧
      t.dev.chunks = d.chunks ∧ ∀ g1, g1 ≠ g → t.dev.launch g1 = d.launch g1) ∧
  (∀ (s : State) (g : BitVec 12),
    let d := s.dev
    let n := g.toNat
    let l := d.launch n
    (l.st = .run → (d.gt n).outDir = 0 → l.deadline ≤ d.fno → l.prop = none → Runs (.stepTimeout g) s fun t => Kept s t ∧
      condWord 7 3 0 ∈ t.dev.words ∧
      t.dev.launch n = { l with st := .aborting, prop := some (d.fno + l.d.abortLead, condWord 7 3 0) } ∧
      ∀ g1, g1 ≠ n → t.dev.launch g1 = d.launch g1) ∧
    (∀ af w, l.st = .aborting → l.prop = some (af, w) → af ≤ d.fno → Runs (.abortFrame g) s fun t => Kept s t ∧
      t.dev.chunks = d.chunks.filter (fun c => c.g != n) ∧ t.dev.launch n = { l with st := .aborted } ∧
      (∀ g1, g1 ≠ n → t.dev.launch g1 = d.launch g1) ∧
      ∀ p ∈ (d.gt n).members, d.isUp p = false → t.dev.rd64 (rp 7 0x108 p) = abortWord w n af ∧ t.dev.bit (rp 7 0x100 p) 31 = true)) ∧
  (∀ (s : State) (id : Nat) (k : Pkt),
    let d := s.dev
    let g := d.refGroup k.pk
    let l := d.launch g
    let w : Word := BitVec.ofNat 32 (leAt k.pk.payload 4 4)
    let af := leAt k.pk.payload 8 6
    let held := (l.st = .armed ∨ l.st = .run ∨ l.st = .aborting ∨ l.st = .done) ∧ l.d.launch.toNat = leAt k.pk.payload 14 2 ∧
      leAt k.pk.payload 2 2 = g
    d.pkt id = some k → k.pk.hdr.op = 0x24 → k.st = .engine → k.conf = true → id < d.nextId →
    (held → (∀ a x, l.prop = some (a, x) → af < a ∨ (af = a ∧ w.toNat < x.toNat)) → Takes (.catAbort id) s fun t => Gone s t id ∧
      condWord 7 0xA g ∈ t.dev.words ∧ t.dev.launch g = { l with st := .aborting, prop := some (af, w) } ∧
      ∀ g1, g1 ≠ g → t.dev.launch g1 = d.launch g1) ∧
    (∀ a x, held → l.prop = some (a, x) → (a < af ∨ (a = af ∧ x.toNat ≤ w.toNat)) → Takes (.catAbort id) s fun t => Gone s t id ∧
      t.dev = { d with pkts := t.dev.pkts }) ∧
    (¬ held → Takes (.catAbort id) s fun t => Gone s t id ∧ t.dev.launches = d.launches ∧ RegsBut s t [ra 7 0x90, ra 7 0x94] ∧
      t.dev.rd64 (ra 7 0x90) = (d.rd64 (ra 7 0x90) + 1) % 2 ^ 64))

/-- CAT_RESULT, CAT_FENCE_WRITE and SCOREBOARD_SELECT (R12, R277, R280, R282, R291). A confirmed result copy seen for
the first time at a recipient of its running launch counts one copy and its flags; a device that is no root relays it
once, when it came as the tree's copy of another identifier than its own results go to. A copy of no launch here
changes no launch. Either way the copy is noted as seen, or leaves where its admission is over, and is not taken
twice. A write of a fence register sets its 32 ports, and one of CAT_SB_SEL or CAT_SB_CHUNK its writable bits, with
nothing else changed. -/
def Obligations.ResultsFencesAndSelection : Prop :=
  (∀ (s : State) (id : Nat) (k : Pkt),
    let d := s.dev
    let g := catGroup k.pk % 0x1000
    let l := d.launch g
    let e := d.dt k.pk.hdr.dstId.toNat
    let here := (k.mcast = true ∧ e.ty = 3) ∨ (e.ty = 1 ∧ e.coord = d.own)
    let ours := l.st ≠ .idle ∧ l.d.launch.toNat = catLaunch k.pk ∧ k.ing ≠ none
    let relay := l.st = .run ∧ (d.gt g).outDir ≠ 0 ∧ l.d.resId ≠ 0 ∧ k.pk.hdr.viaV = true ∧ k.pk.hdr.dstId.toNat ≠ l.d.resId ∧
      catChunk k.pk ∉ l.relayed
    d.pkt id = some k → k.pk.hdr.op = 0x22 → k.conf = true → id < d.nextId →
    (k.rank = 0 → Runs (.catResult id) s fun t => Kept s t ∧ (∀ g1, g1 ≠ g → t.dev.launch g1 = d.launch g1) ∧
      (k.st = .accepted → ∀ x ∈ t.dev.pkts, x.id ≠ id) ∧ (k.st ≠ .accepted → t.dev.pkt id = some { k with rank := 1 }) ∧
      (¬ ours → t.dev.launches = d.launches) ∧
      (ours → ¬ relay → here → t.dev.launch g = { l with copies := l.copies + 1, flags := l.flags ||| (leAt k.pk.payload 8 1 % 16) }) ∧
      (ours → ¬ relay → ¬ here → t.dev.launches = d.launches) ∧
      (ours → relay → (t.dev.launch g).relayed = catChunk k.pk :: l.relayed ∧ (here → (t.dev.launch g).copies = l.copies + 1))) ∧
    (k.rank ≠ 0 → Runs (.catResult id) s fun t => t = s)) ∧
  (∀ (s : State) (src : Src) (w : BitVec 2) (v : Word), Reached s src (ra 7 (0x80 + 4 * w.toNat)) →
    Takes (.catFenceWrite src w v) s fun t => RegsOnly s t ∧ RegsBut s t [ra 7 (0x80 + 4 * w.toNat)] ∧
      t.dev.rd (ra 7 (0x80 + 4 * w.toNat)) = v) ∧
  (∀ (s : State) (src : Src) (addr v : Word), Reached s src addr.toNat → (addr.toNat = ra 7 0x60 ∨ addr.toNat = ra 7 0x64) →
    Takes (.scoreboardSelect src addr v) s fun t => RegsOnly s t ∧ RegsBut s t [addr.toNat] ∧
      t.dev.rd addr.toNat = (s.dev.rd addr.toNat &&& ~~~ regRw addr.toNat) ||| (v &&& regRw addr.toNat))


/-! ## Fan -/

/-- FAN_ROUND_GO, ROUND_OPEN, ROUND_CLOSE, ROUND_DONE, ROUND_TIMEOUT and the aborts of rounds (R299, R300, R301, R323,
R324, R325, R326, R327). A GO over the Obvo link whose descriptor breaks no rule arms the lowest free slot with that
descriptor and its counters at 0. At START the slot is OPEN, at CLOSE it is CLOSED; CLOSED with no combine state, no
copy held and no copy before admission, two frames after RANK where it is ranked, it is DONE with its record. An ABORT
over the Obvo link and END reached in CLOSED abort a live round under their FAN condition, ABORT_LEAD frames ahead; a
received proposal that is first or lower is adopted with FAN 0Ah. In the abort frame the slot is ABORTED with no
combine state and no copy, no copy of it stays before admission, and each endpoint port of its slice that is not UP
keeps the abort word. No other slot changes. -/
def Obligations.RoundsRunToTheirEnd : Prop :=
  (∀ (s : State) (v : Word),
    let d := s.dev
    let x := d.rdesc
    let reg := d.rt x.qregion
    Machine.bit v 31 = true → Machine.bit v 30 = false → d.writeRefusal .obvo (ra 8 0x60) = none →
    d.slotOfRound x.round (fun c => rsLive c || c == .aborting) = none → d.fno + 2 ≤ x.start → x.start ≤ d.fno + 2 ^ 20 → x.round ≠ 0 →
    x.start < x.close → x.endLag ≠ 0 → (x.ranked = true → x.rankLag ≠ 0 ∧ x.rankLag < x.endLag) → x.units ≠ 0 → x.vfmt ≤ 4 →
    d.bit (ra 8 0) x.vfmt = true → x.devmask.testBit d.devIndex = true → 3 * (d.kx / 2 + d.ky / 2 + d.kz / 2) + 4 ≤ x.abortLead →
    reg.valid = true → reg.purpose = 0 → reg.slice = x.slice.toNat → x.slice ≠ 0 → d.sliceOn x.slice.toNat = true → d.aligned = true →
    ∀ r, (List.range 16).find? (fun i => ! (rsLive (d.rnd i).st || (d.rnd i).st == .aborting)) = some r →
    Takes (.fanRoundGo .obvo v) s fun t => Kept s t ∧ t.dev = { d with regs := t.dev.regs, rounds := t.dev.rounds } ∧
      RegsBut s t [ra 8 0x60] ∧ t.dev.rd (ra 8 0x60) = v &&& 0xFFFF ∧ t.dev.rnd r = { st := .armed, d := x } ∧
      ∀ i, i ≠ r → t.dev.rnd i = d.rnd i) ∧
  (∀ (s : State) (v : Word) (r : Nat),
    let x := s.dev.rnd r
    let id := Machine.fld v 0 16
    Machine.bit v 31 = false → Machine.bit v 30 = true → s.dev.writeRefusal .obvo (ra 8 0x60) = none → s.dev.slotOfRound id rsLive = some r →
    x.prop = none → Takes (.fanRoundAbort .obvo v) s fun t => Kept s t ∧ condWord 8 0xB id ∈ t.dev.words ∧
      t.dev.rnd r = { x with st := .aborting, prop := some (s.dev.fno + x.d.abortLead, condWord 8 0xB id) } ∧
      ∀ i, i ≠ r → t.dev.rnd i = s.dev.rnd i) ∧
  (∀ (s : State) (r : BitVec 4),
    let d := s.dev
    let n := r.toNat
    let x := d.rnd n
    let Others (t : State) : Prop := Kept s t ∧ ∀ i, i ≠ n → t.dev.rnd i = d.rnd i
    (x.st = .armed → x.d.start ≤ d.fno → Runs (.roundOpen r) s fun t => Others t ∧ t.dev = { d with rounds := t.dev.rounds } ∧
      t.dev.rnd n = { x with st := .open }) ∧
    (x.st = .open → x.d.close ≤ d.fno → Runs (.roundClose r) s fun t => Others t ∧ t.dev = { d with rounds := t.dev.rounds } ∧
      t.dev.rnd n = { x with st := .closed }) ∧
    (x.st = .closed → (x.d.ranked = true → rdRank x.d + 2 ≤ d.fno) → x.combos = [] → x.copies = [] →
      (∀ k ∈ d.pkts, ¬ (k.use = .copy n ∧ k.st = .hold)) → Runs (.roundDone r) s fun t => Others t ∧ t.dev.rnd n = { x with st := .done } ∧
        t.dev.pkts = d.pkts ∧
        (d.obvo.lostSince = 0 → d.obvo.events.length < 4096 → ∃ e, t.dev.obvo.events = d.obvo.events ++ [e])) ∧
    (x.st = .closed → rdEnd x.d ≤ d.fno → x.prop = none → Runs (.roundTimeout r) s fun t => Others t ∧
      condWord 8 3 x.d.round ∈ t.dev.words ∧
      t.dev.rnd n = { x with st := .aborting, prop := some (d.fno + x.d.abortLead, condWord 8 3 x.d.round) }) ∧
    (∀ af w, x.st = .aborting → x.prop = some (af, w) → af ≤ d.fno → Runs (.fanAbortFrame r) s fun t => Others t ∧
      t.dev.rnd n = { x with st := .aborted, combos := [], copies := [] } ∧ (∀ k ∈ t.dev.pkts, ¬ (k.use = .copy n ∧ k.st = .hold)) ∧
      ∀ p ∈ d.validPorts, d.dir p = 0 → d.sliceHas x.d.slice.toNat p = true → d.isUp p = false →
        t.dev.rd64 (rp 8 0x100 p) = abortWord w x.d.round af ∧ t.dev.bit (rp 8 0x108 p) 0 = true)) ∧
  (∀ (s : State) (id : Nat) (k : Pkt) (r : Nat),
    let x := s.dev.rnd r
    let w : Word := BitVec.ofNat 32 (leAt k.pk.payload 4 4)
    let af := leAt k.pk.payload 8 6
    s.dev.pkt id = some k → k.pk.hdr.op = 0x40 → k.st = .engine → k.conf = true → leAt k.pk.payload 0 1 = 8 →
    leAt k.pk.payload 1 1 = 1 → s.dev.slotOfRound (leAt k.pk.payload 2 2) (fun c => rsLive c || c == .aborting || c == .done) = some r →
    (∀ a y, x.prop = some (a, y) → af < a ∨ (af = a ∧ w.toNat < y.toNat)) →
    Takes (.fanAbortMessage id) s fun t => Gone s t id ∧ condWord 8 0xA x.d.round ∈ t.dev.words ∧
      t.dev.rnd r = { x with st := .aborting, prop := some (af, w) } ∧ ∀ i, i ≠ r → t.dev.rnd i = s.dev.rnd i)

/-- FAN_DISPATCH, DISPATCH_ADMIT and FAN_COPY (R304, R306, R307, R308, R310, R311, R312). A confirmed dispatch of no
open round is stale: counted, FAN 02h, and it leaves; one that fails a test of its round leaves with that test's
condition and aborts the round; one that passes stays. At the head of its hold, with the round's slots free on its
port's die and every expert on this device, it is accepted: it leaves, one more is DISPATCHED, and its combine state
waits for every position with all sums at 0; without the slots nothing changes. A confirmed copy of a valid expert in
an ARRIVAL round, the first of its contenders in the order of R62, is admitted while the expert is available and below
its capacity: one more token is counted and it goes, where it stands, to the expert's port. Beyond that it is dropped,
redirected once to its fallback, there admitted or dropped, or deferred, as the expert's policy says, and counted so.
In a RANKED round before RANK the copy is held. No other slot changes, but by a redirection. -/
def Obligations.DispatchesBecomeCopies : Prop :=
  ∀ (s : State) (id r : Nat) (k : Pkt),
    let d := s.dev
    let x := d.rnd r
    let rid := fanRound k.pk
    d.pkt id = some k → (k.st = .engine ∨ k.st = .taken) → k.conf = true → id < d.nextId →
    let Others (t : State) : Prop := Gone s t id ∧ ∀ i, i ≠ r → t.dev.rnd i = d.rnd i
    (k.pk.hdr.op = 0x30 →
      (d.dispCheck k = .stale → Runs (.fanDispatch id) s fun t => Gone s t id ∧ t.dev.rounds = d.rounds ∧ condWord 8 2 rid ∈ t.dev.words ∧
        t.dev.rd64 (ra 8 0x70) = (d.rd64 (ra 8 0x70) + 1) % 2 ^ 64) ∧
      (∀ n, d.dispCheck k = .bad r n → Runs (.fanDispatch id) s fun t => Others t ∧ condWord 8 4 (fanDet n rid) ∈ t.dev.words ∧
        (x.prop = none → (t.dev.rnd r).st = .aborting)) ∧
      (d.dispCheck k = .dup r → Runs (.fanDispatch id) s fun t => Others t ∧ condWord 8 6 rid ∈ t.dev.words ∧
        (x.prop = none → (t.dev.rnd r).st = .aborting)) ∧
      (d.dispCheck k = .ok r → Runs (.fanDispatch id) s fun t => t = s) ∧
      (d.dispCheck k = .ok r → d.isHead k = true → d.freeSlots (d.owner (k.ing.getD 0)) < x.d.units * perUnit x.d.vfmt →
        Runs (.dispatchAdmit id) s fun t => t = s) ∧
      (d.dispCheck k = .ok r → d.isHead k = true → d.kept k = false → x.d.units * perUnit x.d.vfmt ≤ d.freeSlots (d.owner (k.ing.getD 0)) →
        (∀ e ∈ dispExperts k.pk, d.xhere e = true) → Runs (.dispatchAdmit id) s fun t => Gone s t id ∧
          ((x.d.ranked = true ∨ ∀ e ∈ dispExperts k.pk, (d.et e).policy ≠ 1) → Others t) ∧ (t.dev.rnd r).dispatched = x.dispatched + 1 ∧ ∃ c, (t.dev.rnd r).combos = x.combos ++ [c] ∧ c.port = k.ing.getD 0 ∧
            c.token = fanToken k.pk ∧ c.src = k.pk.hdr.srcId ∧ c.experts = dispExperts k.pk ∧ c.gates = dispGates k.pk ∧
            c.pos = (dispExperts k.pk).map (fun _ => .waiting) ∧ c.accs = List.replicate (x.d.units * perUnit x.d.vfmt) ({} : Acc) ∧ c.sent = false)) ∧
    (k.pk.hdr.op = 0x31 →
      let e := fanExpert k.pk
      let f := (d.et e).fallback
      let Sent (t : State) (g : Nat) (redir : Bool) : Prop := Kept s t ∧ (∀ i, i ≠ r → t.dev.rnd i = d.rnd i) ∧
        d.xport g ∈ (t.dev.rnd r).admitted ∧ t.dev = { d with pkts := t.dev.pkts, rounds := t.dev.rounds, xcount := t.dev.xcount } ∧
        t.dev.pkt id = some { k with pk := d.copyPk k.pk g redir false, arr := some (k.arr.getD k.pk.hdr), tgts := d.copyTgt g,
                                     use := .copy r, st := .hold }
      (d.slotOfRound rid rsRun = none → Runs (.fanCopy id) s fun t => Gone s t id ∧ t.dev.rounds = d.rounds ∧
        t.dev.rd64 (ra 8 0x70) = (d.rd64 (ra 8 0x70) + 1) % 2 ^ 64) ∧
      (d.slotOfRound rid rsRun = some r → (d.et e).valid = true → (d.et e).epId = k.pk.hdr.dstId.toNat →
        ((d.copyConts e).head? = some k → d.xavail e = true → d.xcnt e < (d.et e).cap → Runs (.fanCopy id) s fun t =>
          Sent t e false ∧ t.dev.xcnt e = d.xcnt e + 1 ∧ ∀ g, g ≠ e → t.dev.xcnt g = d.xcnt g) ∧
        ((d.copyConts e).head? = some k → (d.xavail e = false ∨ (d.et e).cap ≤ d.xcnt e) →
          ((d.et e).policy ≠ 1 → (d.et e).policy ≠ 2 → Runs (.fanCopy id) s fun t => Others t ∧
            t.dev.rnd r = { x with dropped := x.dropped + 1 } ∧ t.dev.xcount = d.xcount) ∧
          ((d.et e).policy = 1 → (∀ j ∈ d.copyConts f, j.id = id) → d.xavail f = true → d.xcnt f < (d.et f).cap →
            Runs (.fanCopy id) s fun t => Sent t f true ∧ (t.dev.rnd r).redirected = x.redirected + 1 ∧ t.dev.xcnt f = d.xcnt f + 1) ∧
          ((d.et e).policy = 1 → (∀ j ∈ d.copyConts f, j.id = id) → (d.xavail f = false ∨ (d.et f).cap ≤ d.xcnt f) →
            Runs (.fanCopy id) s fun t => Others t ∧ t.dev.xcount = d.xcount ∧
              t.dev.rnd r = { x with redirected := x.redirected + 1, dropped := x.dropped + 1 }) ∧
          ((d.et e).policy = 2 → d.qFull x.d.qregion = false → d.qFails = false → Runs (.fanCopy id) s fun t => Others t ∧
            (t.dev.rnd r).deferred = x.deferred + 1 ∧ (t.dev.rnd r).copies.length = x.copies.length + 1 ∧ t.dev.xcount = d.xcount)) ∧
        (x.d.ranked = true → d.fno < rdRank x.d → d.qFull x.d.qregion = false → d.qFails = false →
          d.rankHeld (d.owner (d.xport e)) < 32768 → Runs (.fanCopy id) s fun t => Others t ∧
            t.dev.rnd r = { x with copies := x.copies ++ [copyOf k.pk (k.ing.getD 128)] })))

/-- RANK, RANK_FALLBACK and WINDOW_BOUNDARY (R311, R312, R313). In frame RANK a ranked round that is CLOSED is ranked,
once; where all its held copies are for one expert, the first of them in rank order up to its capacity, none where it
is not available, wait to be sent from the next frame on, and under the dropping policy the others are dropped and
counted. In frame RANK + 1 the copies redirected to one fallback are admitted in rank order up to the capacity its own
copies left, the others dropped. Combine states and other rounds stay. In a frame whose number is a multiple of W an
expert's count starts anew, once; after its deferred copies are let in it is at most the capacity, and with none
waiting it is 0 and nothing else changes. -/
def Obligations.RankAndWindowsAdmitUpToCapacity : Prop :=
  (∀ (s : State) (r : BitVec 4),
    let d := s.dev
    let n := r.toNat
    let x := d.rnd n
    let Others (t : State) : Prop := Kept s t ∧ (∀ i, i ≠ n → t.dev.rnd i = d.rnd i) ∧ (t.dev.rnd n).combos = x.combos ∧ (t.dev.rnd n).st = .closed
    x.st = .closed →
    (x.d.ranked = true → x.ranked = false → rdRank x.d ≤ d.fno → Runs (.rank r) s fun t => Others t ∧ (t.dev.rnd n).ranked = true ∧
      ∀ e, ((x.copies.filter (fun c => c.st == .held)).map (·.expert)).dedup = [e] → (∀ c ∈ x.copies, c.redirected = false) →
        (d.et e).policy ≠ 1 → (d.et e).policy ≠ 2 →
        let mine := rankSort (x.copies.filter (fun c => c.st == .held && c.expert == e && ! c.redirected))
        let m := if d.xavail e then min (d.et e).cap mine.length else 0
        (t.dev.rnd n).copies = x.copies.filter (fun c => ! (c.st == .held && c.expert == e && ! c.redirected)) ++
          (mine.take m).map (fun c => { c with st := .wait, from_ := d.now + 1 }) ∧
        (t.dev.rnd n).dropped = x.dropped + (mine.length - m) ∧ t.dev.xcnt e = d.xcnt e + m) ∧
    (x.ranked = true → x.fellBack = false → rdRank x.d + 1 ≤ d.fno → Runs (.rankFallback r) s fun t => Others t ∧ (t.dev.rnd n).fellBack = true ∧
      ∀ e, ((x.copies.filter (fun c => c.st == .held && c.redirected)).map (·.expert)).dedup = [e] →
        let mine := rankSort (x.copies.filter (fun c => c.st == .held && c.redirected && c.expert == e))
        let m := if d.xavail e then min ((d.et e).cap - mapGet 0 x.rankAdm e) mine.length else 0
        (t.dev.rnd n).copies = x.copies.filter (fun c => ! (c.st == .held && c.redirected && c.expert == e)) ++
          (mine.take m).map (fun c => { c with st := .wait, from_ := d.now + 1 }) ∧
        (t.dev.rnd n).dropped = x.dropped + (mine.length - m) ∧ t.dev.xcnt e = d.xcnt e + m)) ∧
  (∀ (s : State) (e : BitVec 14),
    let d := s.dev
    let n := e.toNat
    (d.et n).valid = true → (d.et n).w ≠ 0 → d.fno % (d.et n).w = 0 → mapGet 0 d.xwin n ≠ d.now + 1 →
    Runs (.windowBoundary e) s fun t => Kept s t ∧ mapGet 0 t.dev.xwin n = d.now + 1 ∧ t.dev.xcnt n ≤ (d.et n).cap ∧
      (∀ i, i ≠ n → t.dev.xcnt i = d.xcnt i ∧ mapGet 0 t.dev.xwin i = mapGet 0 d.xwin i) ∧
      ((d.xavail n = false ∨ ∀ r < 16, ∀ c ∈ (d.rnd r).copies, c.expert ≠ n) → t.dev.xcnt n = 0 ∧
        t.dev = { d with xwin := t.dev.xwin, xcount := t.dev.xcount }))

/-- FAN_OUT_FORWARD, FAN_OUT_COMBINE, FAN_RETRACT, FAN_NOTICE and COMBINE_SEND (R315, R316, R317, R318, R319, R320). A
confirmed output of a local expert of the round's set goes on to its token's source with this device as its source: as
an output of this device's own, or out toward the coordinate. At the source slice a good output is added exactly,
element by element, gate times value; once it is confirmed its position is done and it leaves. One stomped in an
earlier frame is subtracted exactly and counted. A confirmed notice that a copy was dropped settles its waiting
position. A state with every position settled and nothing unconfirmed is sent once as its combined token, and one more
is COMBINED. Outputs of no running round are counted as stale. -/
def Obligations.OutputsAreCombined : Prop :=
  (∀ (s : State) (id r : Nat) (k : Pkt),
    let d := s.dev
    let rid := fanRound k.pk
    let i := fanPos k.pk
    d.pkt id = some k → id < d.nextId →
    let Only (t : State) : Prop := Kept s t ∧ t.dev = { d with rounds := t.dev.rounds, pkts := t.dev.pkts, regs := t.dev.regs } ∧
      ∀ j, j ≠ r → t.dev.rnd j = d.rnd j
    (k.pk.hdr.op = 0x32 → (k.st = .engine ∨ k.st = .taken) →
      (k.conf = true → k.fromSw = false → k.rank = 0 → d.kept k = false →
        let e := fanExpert k.pk
        let a := d.dt (fanSrc k.pk).toNat
        let h := { k.pk.hdr with srcId := d.devId, viaV := true, via := BitVec.ofNat 12 a.coord }
        (d.slotOfRound rid rsRun = none → Runs (.fanOutForward id) s fun t => Gone s t id ∧ t.dev.rounds = d.rounds ∧
          t.dev.rd64 (ra 8 0x70) = (d.rd64 (ra 8 0x70) + 1) % 2 ^ 64) ∧
        (d.slotOfRound rid rsRun = some r → (d.et e).valid = true → (d.et e).set = (d.dt k.pk.hdr.dstId.toNat).ref → d.xhere e = true →
          k.ing = some (d.xport e) → a.ty = 1 →
          (a.coord = d.own → Runs (.fanOutForward id) s fun t => Kept s t ∧ t.dev = { d with pkts := t.dev.pkts } ∧
            t.dev.pkt id = some { k with pk := { k.pk with hdr := h, crc := pktCrc h k.pk.payload }, rank := 1 }) ∧
          (a.coord ≠ d.own → Runs (.fanOutForward id) s fun t => Gone s t id ∧ t.dev.rounds = d.rounds ∧
            ∀ x ∈ t.dev.pkts, x ∈ d.pkts ∨ (x.pk.hdr.op = 0x32 ∧ x.pk.hdr.srcId = d.devId ∧ x.pk.payload = k.pk.payload)))) ∧
      ((k.fromSw = true ∨ k.rank ≠ 0) →
        (∀ c, d.takenBy id = none → d.slotOfRound rid rsRun = some r → d.outCheck r k.pk = .ok c → k.conf = false →
          let ts := fanTerms (d.rnd r).d (c.gates.getD i 0) k.pk
          let accs := (List.zipWith addFin c.accs ts).map (fun a => { a with esc := a.esc || ! fanFits a.v })
          2 * ((accs.filter (·.esc)).length - (c.accs.filter (·.esc)).length) ≤ d.freeRecs (d.owner c.port) →
          Runs (.fanOutCombine id) s fun t => Only t ∧ t.dev.pkt id = some { k with st := .taken } ∧
            t.dev.combo r c.port c.token = some { c with accs := accs, taken := c.taken ++ [(id, i)] } ∧
            accs.map (·.v) = List.zipWith (fun (a : Acc) (b : Elt) => a.v + b.fin) c.accs ts) ∧
        (∀ c, d.takenBy id = some (r, c) → d.combo r c.port c.token = some c → k.conf = true → rsRun (d.rnd r).st = true →
          c.pos.getD i .done = .waiting → Runs (.fanOutCombine id) s fun t => Only t ∧ (∀ x ∈ t.dev.pkts, x.id ≠ id) ∧
            ∃ y, t.dev.combo r c.port c.token = some y ∧ y.pos = c.pos.set i .done ∧ y.taken = c.taken.filter (fun e => e.1 != id) ∧
              y.retr = c.retr ∧ y.redirected = (if fanFlag k.pk 1 then c.redirected ||| 2 ^ i else c.redirected)) ∧
        (d.takenBy id = none → d.slotOfRound rid rsRun = none → k.conf = true → Runs (.fanOutCombine id) s fun t => Gone s t id ∧
          t.dev.rounds = d.rounds ∧ t.dev.rd64 (ra 8 0x70) = (d.rd64 (ra 8 0x70) + 1) % 2 ^ 64))) ∧
    (k.pk.hdr.op = 0x34 → k.conf = true → k.rank = 0 →
      let a := d.dt k.pk.hdr.dstId.toNat
      let j := leAt k.pk.payload 7 1
      Runs (.fanNotice id) s fun t => Kept s t ∧ t.dev = { d with rounds := t.dev.rounds, pkts := t.dev.pkts } ∧
        (k.st = .accepted → ∀ x ∈ t.dev.pkts, x.id ≠ id) ∧ (k.st ≠ .accepted → t.dev.pkt id = some { k with rank := 1 }) ∧
        (∀ c, leAt k.pk.payload 6 1 = 1 → a.ty = 1 → a.coord = d.own → d.slotOfRound rid rsRun = some r →
          d.combo r (a.ref % 128) (fanToken k.pk) = some c → c.pos.getD j .done = .waiting →
          t.dev.combo r (a.ref % 128) (fanToken k.pk) = some { c with pos := c.pos.set j .dropped }))) ∧
  (∀ (s : State) (id r : Nat) (c : Combo), s.dev.combo r c.port c.token = some c →
    let Goes (t : Nat × Nat × List Int) : Bool := t.1 == id && decide (t.2.1 < s.dev.now)
    (s.dev.rounds.flatMap (fun e => e.2.combos.map (fun y => (e.1, y)))).find? (fun e => e.2.retr.any Goes) = some (r, c) →
    let die := s.dev.owner c.port
    let a := ra 8 (0x410008 + 0x1000 * die)
    let left := (c.retr.filter Goes).foldl (fun l t => List.zipWith (fun v (x : Acc) => { x with v := x.v - v }) t.2.2 l) c.accs
    let accs := left.map (fun x => { x with esc := x.esc || ! fanFits x.v })
    2 * ((accs.filter (·.esc)).length - (c.accs.filter (·.esc)).length) ≤ s.dev.freeRecs die →
    Runs (.fanRetract id) s fun t => Kept s t ∧ t.dev = { s.dev with rounds := t.dev.rounds, regs := t.dev.regs } ∧
      RegsBut s t [a, a + 4, a + 8, a + 12] ∧ t.dev.rd64 a = (s.dev.rd64 a + 1) % 2 ^ 64 ∧ accs.map (·.v) = left.map (·.v) ∧
      t.dev.combo r c.port c.token = some { c with accs := accs, retr := c.retr.filter (fun t => t.1 != id) }) ∧
  (∀ (s : State) (p : BitVec 7) (round : BitVec 16) (token : BitVec 32) (r : Nat) (c : Combo),
    s.dev.slotOfRound round.toNat rsRun = some r → s.dev.combo r p.toNat token.toNat = some c → (∀ x ∈ c.pos, x ≠ .waiting) →
    c.taken = [] → c.retr = [] → c.sent = false → Runs (.combineSend p round token) s fun t => Kept s t ∧
      t.dev.combo r p.toNat token.toNat = some { c with sent := true } ∧ (t.dev.rnd r).combined = (s.dev.rnd r).combined + 1 ∧
      (∀ j, j ≠ r → t.dev.rnd j = s.dev.rnd j) ∧ t.dev.pkts.length ≤ s.dev.pkts.length + 1)


/-! ## Basin -/

/-- BAS_READ, BAS_WRITE, BAS_MREAD, BAS_ADD, BAS_CAS and BASIN_ADMIT (R332, R338, R339, R341, R342, R344, R346, R348).
A confirmed request that passes the tests of R341 stays to be admitted and nothing else changes; one that fails leaves
the device, is counted in BAS_REFUSED, and raises its test's condition. A tested request, served first in the order of
R62 in a round of its die's engine, takes the lowest free slot of that die, with its operands; a write, once its stack
accesses of this frame or the next are reserved, is performed as it is accepted: the bytes from its address on are its
data, every other byte of Basin is as before, and it holds a slot only if it wants a completion. With no slot free, or
no accesses for a write, a request of another class than CORR stays where it is, and BAS 0Ah is raised, and a
confirmed one of class CORR leaves. Tests and waits change no byte of Basin. -/
def Obligations.BasinRequestsAreTestedAndAdmitted : Prop :=
  (∀ (s : State) (id : Nat) (k : Pkt) (cmd : Instr),
    let d := s.dev
    (cmd = .basRead id ∧ k.pk.hdr.op = 0x10 ∨ cmd = .basWrite id ∧ k.pk.hdr.op = 0x11 ∨ cmd = .basMread id ∧ k.pk.hdr.op = 0x12 ∨
      cmd = .basAdd id ∧ k.pk.hdr.op = 0x13 ∨ cmd = .basCas id ∧ k.pk.hdr.op = 0x14) →
    d.pkt id = some k → k.st = .engine → k.conf = true → k.rank = 0 → id < d.nextId →
    (d.basTest k = none → Runs cmd s fun t => Kept s t ∧ t.dev = { d with pkts := t.dev.pkts } ∧
      t.dev.pkt id = some { k with rank := 2 } ∧ ∀ i, i ≠ id → t.dev.pkt i = d.pkt i) ∧
    (∀ c det, d.basTest k = some (c, det) → Runs cmd s fun t => Gone s t id ∧ condWord 9 c det ∈ t.dev.words ∧ t.dev.reqs = d.reqs ∧
      t.dev.rd64 (ra 9 0x40) = (d.rd64 (ra 9 0x40) + 1) % 2 ^ 64)) ∧
  (∀ (s : State) (id : Nat) (k : Pkt) rest,
    let d := s.dev
    let die := d.owner (k.ing.getD 0)
    let corr := k.pk.hdr.cls == 1
    let free := 0 < d.plainFree die ∨ (corr = true ∧ 0 < d.corrFree die)
    let q := reqOf k (d.freeSlot die)
    let da := basDa k.pk
    let isW := k.pk.hdr.op = 0x11
    let room := ¬ isW ∨ (d.reserve da (basLen k.pk)).isSome = true
    let still := d.bit (rp 5 0x300 (k.ing.getD 0)) 30 = false
    d.pkt id = some k → id < d.nextId → d.basHead k = true → d.basTurns = k :: rest →
    (free → room → Runs (.basinAdmit id) s fun t => t.pending = s.pending ∧ t.nv = s.nv ∧ (∀ x ∈ t.dev.pkts, x.id ≠ id) ∧
      (¬ isW ∨ (leAt k.pk.payload 11 1).testBit 0 = false → q ∈ t.dev.reqs)) ∧
    (rest = [] →
      (¬ isW → free → Runs (.basinAdmit id) s fun t => Gone s t id ∧ t.dev.reqs = d.reqs ++ [q] ∧ t.dev.stackU = d.stackU ∧
        (still → t.dev = { d with pkts := t.dev.pkts, reqs := t.dev.reqs })) ∧
      (isW → free → room → Runs (.basinAdmit id) s fun t => MemBut s t da (basLen k.pk) ∧ (still → t.dev.regs = d.regs) ∧
        (∀ i b, (k.pk.payload.drop 64)[i]? = some b → mapGet memDefault t.mem (da + i) = b) ∧
        t.dev.reqs = (if (leAt k.pk.payload 11 1).testBit 0 then d.reqs else d.reqs ++ [q])) ∧
      (¬ free ∨ ¬ room → corr = false → Runs (.basinAdmit id) s fun t => Kept s t ∧ condWord 9 0xA (k.ing.getD 0) ∈ t.dev.words ∧
        t.dev.reqs = d.reqs ∧ t.dev.pkts = d.pkts) ∧
      (¬ free ∨ ¬ room → corr = true → k.conf = true → Runs (.basinAdmit id) s fun t => Gone s t id ∧ t.dev.reqs = d.reqs)))

/-- SEGMENT_GRANT and SCRUB_VISIT (R339, R343, R345, R346, R349, R350, R355, R356, R357). When output admission grants
the next segment of a read of readable words, the queue holds a completion with those bytes as Basin holds them, the
request goes on with the next segment or, after the last, its slot is free, and no byte of Basin changes. A granted
add or compare-and-swap of readable words puts the new value in its eight bytes, changes no other byte, frees its slot
and returns the old value; one that is not granted changes no byte and keeps its slot; one that is lost frees it with
BAS 09h. A scrub visit to a stack in service counts a corrected error, and notes an uncorrectable word with BAS 08h;
it repairs a row that is due with a spare row first, which Col records, or Narrows holds while Col is not READY. No
scrub changes a byte. -/
def Obligations.BasinAnswersAndScrubs : Prop :=
  (∀ (s : State) (q : Req),
    let d := s.dev
    let da := q.addr % 2 ^ 38
    let off := 64 * q.cplUnits * q.seg
    let n := min (64 * q.cplUnits) (q.len - off)
    let fin := decide (q.len ≤ off + n)
    let bytes := readBytes s.mem (da + off) n
    let old := leNat (readBytes s.mem da 8)
    let free (t : State) : Prop := ∀ r ∈ t.dev.reqs, r.slot ≠ q.slot
    d.reqs.find? (fun r => r.slot == q.slot) = some q →
    (∀ d1 x, q.op = 0x10 → q.last = false → d.reserve (da + off) n = some d1 → d.badIn ((da + off) / 256 * 256) (((da + off) % 256 + n + 255) / 256 * 256) = [] →
      d1.present q (d.cplPkt q 0 fin (q.addr + off) q.seg 0 bytes) = .done x →
      Runs (.segmentGrant q.slot) s fun t => Kept s t ∧
        t.dev.reqs = (if fin then d.reqs.filter (fun r => r.slot != q.slot) else d.reqs.map (fun r => if r.slot = q.slot then { q with seg := q.seg + 1 } else r)) ∧
        ((d.dt q.src.toNat).ty = 1 → ∃ e ∈ t.dev.queue, e.pk.hdr.op = 0x15 ∧ (e.pk.payload.drop 64).take n = bytes ∧ leAt e.pk.payload 0 4 = 0)) ∧
    (∀ x, q.op = 0x11 → d.present q (d.cplPkt q 0 true q.addr 0 0 []) = .done x → Runs (.segmentGrant q.slot) s fun t => Kept s t ∧ free t) ∧
    ((q.op = 0x13 ∨ q.op = 0x14) → d.badIn da 8 = [] → ∀ d1, d.reserve da 8 = some d1 →
      let g := d1.present q (d.cplPkt q 0 true q.addr 0 old [])
      (∀ x, g = .done x → Runs (.segmentGrant q.slot) s fun t => t.pending = s.pending ∧ t.nv = s.nv ∧ free t ∧ MemBut s t da 8 ∧
        leNat (readBytes t.mem da 8) = (if q.op = 0x13 then (old + q.operand) % 2 ^ 64 else if old = q.operand then q.swap % 2 ^ 64 else old) ∧
        ((d.dt q.src.toNat).ty = 1 → ∃ e ∈ t.dev.queue, e.pk.hdr.op = 0x15 ∧ leAt e.pk.payload 16 8 = old)) ∧
      (∀ x, g = .wait x → Runs (.segmentGrant q.slot) s fun t => Kept s t ∧ t.dev.reqs = d.reqs ∧ t.dev.stackU = d.stackU) ∧
      (∀ x p, g = .lost x p → Runs (.segmentGrant q.slot) s fun t => Kept s t ∧ free t ∧ condWord 9 9 p ∈ t.dev.words))) ∧
  (∀ (s : State) (da : BitVec 38),
    let d := s.dev
    let a := da.toNat
    let row := rowOf a
    let st := stackOf a
    d.fld (ra 9 4) 0 16 ≠ 0 → a < basTop → d.hbms.getD st .off = .up →
    (row ∉ d.dueRows →
      Runs (.scrubVisit da .clean) s (fun t => t = s) ∧
      Runs (.scrubVisit da .corrected) s (fun t => Kept s t ∧ t.dev.bad = d.bad ∧ mapGet 0 t.dev.weak row = d.age 0 / max 1 d.scrubFrames ∧
        t.dev.rd64 (ra 9 (0x100 + 0x20 * st)) = (d.rd64 (ra 9 (0x100 + 0x20 * st)) + 1) % 2 ^ 64 ∧
        RegsBut s t [ra 9 (0x100 + 0x20 * st), ra 9 (0x104 + 0x20 * st)]) ∧
      (a / 16 ∉ d.bad → stackOf (a / 16 * 16) = st ∧ Runs (.scrubVisit da .uncorr) s fun t => Kept s t ∧ t.dev.bad = d.bad ++ [a / 16] ∧
        condWord 9 8 st ∈ t.dev.words ∧ row ∈ t.dev.dueRows)) ∧
    (row ∈ d.dueRows → spareLeft s.nv st ≠ 0 → Runs (.scrubVisit da .clean) s fun t => t.pending = s.pending ∧ t.mem = s.mem ∧
      row ∉ t.dev.dueRows ∧ mapGet 0 t.nv.sparesUsed st = mapGet 0 s.nv.sparesUsed st + 1 ∧ condWord 9 0xC st ∈ t.dev.words ∧
      t.dev.hbms = d.hbms ∧ (d.col.st = .ready → t.nv.repairs = s.nv.repairs ++ [row] ∧ t.dev.col = d.col) ∧
      (d.col.st ≠ .ready → d.col.heldRepairs.length < 64 → t.nv.repairs = s.nv.repairs ∧
        t.dev.col.heldRepairs = d.col.heldRepairs ++ [row])))


/-! ## The plat -/

/-- PLAT_LOAD_START, PLAT_LOAD_CLEAR, PLAT_LOAD_INSTALL and PLAT_VERIFY (R371, R372, R373, R374, R375). While no
activation holds the stage and, for a source other than the trail port, no trail load runs and no trail stage waits,
CLEAR empties the stage, and START begins a load of PLAT_LOAD_LEN bytes for its source on an empty stage; a load over
the Obvo link that the trail port so abandons raises PLAT 03h. Otherwise START and CLEAR raise PLAT 03h with the
source's level and change no stage. INSTALL of a staged FULL container makes it the whole boot partition. In VERIFYING
a container that passes every test is STAGED and Narrows records its SHA-256 digest; one that fails is REFUSED with
the condition of the first test it fails. Nothing else of flash, no fuse and no byte of Basin changes. -/
def Obligations.PlatIsLoadedAndVerified : Prop :=
  (∀ (s : State) (src : Src), Reached s src (ra 0xA 4) →
    let d := s.dev
    let n := d.fld (ra 0xA 8) 0 24
    let mine := isTrail src = true ∨ (¬ (loading d.plat.load = true ∧ d.plat.trail = true) ∧ s.nv.stageTrail = false)
    let Abandons := isTrail src = true ∧ loading d.plat.load = true ∧ d.plat.trail = false
    let Empty (t : State) (nv : Nv) (p : Plat) : Prop := t.pending = s.pending ∧ t.mem = s.mem ∧ t.nv = nv ∧ t.dev.plat = p ∧
      (¬ Abandons → t.dev = { d with plat := p }) ∧ (Abandons → RaisedOn { d with plat := p } t.dev 0xA 3 0x203 0)
    let p0 : Plat := { d.plat with load := .empty, trail := false, len := 0, got := 0, digest := [] }
    let nv0 : Nv := { s.nv with stage := [], stageOk := false, stageTrail := false }
    (d.stageLocked = false → mine →
      Takes (.platLoadClear src) s (fun t => Empty t nv0 p0) ∧
      Takes (.platLoadStart src) s fun t => Empty t { nv0 with stageTrail := isTrail src }
        { p0 with load := if n = 0 then .verifying else .receiving, trail := isTrail src, len := n }) ∧
    (d.stageLocked = true → Takes (.platLoadStart src) s (fun t => OnlyRaises s t 0xA 3 (srcLevel src) 0) ∧
      Takes (.platLoadClear src) s fun t => OnlyRaises s t 0xA 3 (srcLevel src) 0) ∧
    (d.stageLocked = false → ¬ mine → Takes (.platLoadStart src) s fun t => OnlyRaises s t 0xA 3 (0x200 + srcLevel src) 0) ∧
    (d.plat.load = .staged → cKind s.nv.stage = 0 → Takes (.platLoadInstall src) s fun t =>
      t = { s with nv := { s.nv with boot := [s.nv.stage] } })) ∧
  (∀ s : State, s.dev.plat.load = .verifying →
    (s.dev.platTests s.nv s.nv.stage = none → Runs .platVerify s fun t =>
      t = { s with nv := { s.nv with stageOk := true }
                   dev := { s.dev with plat := { s.dev.plat with load := .staged, digest := sha256 s.nv.stage } } }) ∧
    (∀ c det fails, s.dev.platTests s.nv s.nv.stage = some (c, det, fails) → Runs .platVerify s fun t => Kept s t ∧
      condWord 0xA c det ∈ t.dev.words ∧ t.dev.plat = { s.dev.plat with load := .refused } ∧
      t.dev = { s.dev with plat := t.dev.plat, regs := t.dev.regs, raised := t.dev.raised, words := t.dev.words, obvo := t.dev.obvo }))

/-- PLAT_ACT_GO, PLAT_ACT_CANCEL, PLAT_DRAIN_START, PLAT_ACTIVATE, BOOT_RESTORE and DATA_PATH_UP (R21, R376, R380,
R381, R382, R384, R386, R387, R469, R521). A GO of a staged FULL container whose digest Narrows recorded, with nothing
armed, arms the first activation for the next frame while no plat is active, and else, in an aligned frame, the
activation at T beyond its drain and at most 2^20 frames ahead. A CANCEL before T takes an armed activation away. From
T less the drain the device drains with ROUTE 06h. In its frame, not held by the TAP, with no action on the stage that
waits for it, an activation that is not structural and breaks no rule at T makes the container active: its epoch is
the floor and the active epoch, it is the boot partition, the stage is EMPTY, CFG_LOCK is due and PLAT 09h is raised;
one whose epoch is not above the floor ends with PLAT 08h. A restore that is due arms one activation of the partition,
or raises PLAT 0Fh. When every part of the data path is UP it enters service and a restore is due, or the plat of a
structural activation is active. Basin stays. -/
def Obligations.PlatTakesEffectInItsFrame : Prop :=
  (∀ (s : State) (src : Src) (v : Word), Reached s src (ra 0xA 0x40) →
    let d := s.dev
    let c := v &&& 0x7F
    let t0 := d.rd64 (ra 0xA 0x44) % 2 ^ 48
    let dr := drainOf (Machine.fld c 0 6)
    let st := structural s.nv.active s.nv.stage
    let Armed (t : State) (a : Option Act) : Prop := Kept s t ∧ RegsBut s t [ra 0xA 0x40] ∧ t.dev.rd (ra 0xA 0x40) = c ∧
      t.dev = { d with regs := t.dev.regs, plat := { d.plat with act := a } }
    (Machine.bit v 31 = true → Machine.bit v 30 = false → d.plat.load = .staged → cKind s.nv.stage = 0 → d.plat.act = none → d.ract = none →
      d.plat.digest = sha256 s.nv.stage →
      (d.plat.active = false → Takes (.platActGo src v) s fun t => Armed t (some { t := d.now + 1, drain := 0, first := true })) ∧
      (d.plat.active = true → d.aligned = true → d.fno + dr < t0 → t0 ≤ d.fno + 2 ^ 20 → Takes (.platActGo src v) s fun t =>
        Armed t (some { t := t0, drain := dr, classes := 0x7C, structural := st, park := ! st && Machine.bit c 6 }))) ∧
    (Machine.bit v 31 = false → Machine.bit v 30 = true → d.plat.act ≠ none → d.actDue = false → Takes (.platActCancel src v) s fun t => Armed t none)) ∧
  (∀ (s : State) (a : Act), s.dev.plat.act = some a →
    (a.first = false → a.draining = false → a.t ≤ s.dev.fno + a.drain → s.dev.fno < a.t → Runs .platDrainStart s fun t => Kept s t ∧
      RaisedOn { s.dev with plat := { s.dev.plat with act := some { a with draining := true } } } t.dev 6 6 0 0) ∧
    (s.dev.tapHeld = true → s.dev.obvo.held = [] → Runs .platActivate s fun t => t = s) ∧
    (s.dev.tapHeld = false → s.dev.obvo.held = [] → a.restore = false → a.structural = false → (if a.first then a.t ≤ s.dev.now else a.t ≤ s.dev.fno ∧ s.dev.aligned = true) →
      let b := s.nv.stage
      let nw := s.dev.withPlat b
      (s.nv.floor < cEpoch b → nw.inShape s.dev.own = true → s.dev.ruleFour nw = none → Runs .platActivate s fun t =>
        t.pending = s.pending ∧ t.mem = s.mem ∧
        t.nv = { s.nv with floor := cEpoch b, boot := [b], active := b, stage := [], stageOk := false, stageTrail := false } ∧
        t.dev.plat.active = true ∧ t.dev.plat.epoch = cEpoch b ∧ t.dev.plat.fabric = cFabric b ∧ t.dev.plat.act = none ∧
        t.dev.plat.load = .empty ∧ t.dev.col.lockDue = true ∧ t.dev.col.m4 = sha256 (zeros 32 ++ sha256 b) ∧
        condWord 0xA 9 (cEpoch b % 65536) ∈ t.dev.words) ∧
      (cEpoch b ≤ s.nv.floor → Runs .platActivate s fun t => Kept s t ∧
        RaisedOn { s.dev with plat := { s.dev.plat with act := none } } t.dev 0xA 8 0x700 0))) ∧
  (∀ s : State, s.dev.col.restoreDue = true → s.dev.col.st = .ready → s.dev.inService = true → s.dev.plat.active = false → s.dev.plat.act = none →
    s.dev.tapHeld = false →
    let e : Dev := { s.dev with col := { s.dev.col with restoreDue := false } }
    (bootOk s.dev s.nv = true → Runs .bootRestore s fun t =>
      DevIs s t { e with plat := { s.dev.plat with act := some { t := s.dev.now + 1, drain := 0, first := true, restore := true } } }) ∧
    (bootOk s.dev s.nv = false → Runs .bootRestore s fun t => Kept s t ∧ RaisedOn e t.dev 0xA 0xF 0 0)) ∧
  (∀ s : State, (∀ x ∈ s.dev.dies ++ s.dev.hbms ++ s.dev.bridges, x = .up) → s.dev.inService = false → s.dev.rails = true →
    s.dev.pwr.trip = false → s.dev.obvo.held = [] → Runs .dataPathUp s fun t => t.pending = s.pending ∧ t.mem = s.mem ∧
      t.dev.inService = true ∧ t.dev.dies = s.dev.dies ∧ t.dev.hbms = s.dev.hbms ∧ t.dev.bridges = s.dev.bridges ∧ t.dev.dpBusy = false ∧
      t.dev.pwr.pAllow = 800 * s.dev.pwr.pEst ∧
      (s.dev.plat.apply = none → t.nv = s.nv ∧ t.dev.col.restoreDue = true ∧ t.dev.plat = s.dev.plat ∧ ∀ w ∈ t.dev.lfsr, w ≠ 0) ∧
      (∀ b, s.dev.plat.apply = some b → t.nv.boot = [b] ∧ t.nv.floor = cEpoch b ∧ t.dev.plat.active = true ∧ t.dev.plat.epoch = cEpoch b))


/-! ## The Obvo link and the trail port -/

/-- OBVO_RD, OBVO_WR, OBVO_WRM, DMA_WR, DMA_RD and undefined commands (R399, R403, R404, R405, R406, R417). A command
that arrives on a port in UP waits for the boundary and changes nothing else. Sampled there, one whose tag no kept
command has and before which fewer than 32 stand unanswered is kept. A read or write of 1 to 1,024 registers of dies
that are UP is one read, or one control action for each register, in ascending order, with the value and mask given; a
DMA write or read within the lengths of the packet is one action; no register changes yet. As it takes effect, a DMA
write within Basin's rules puts its data at the address and changes no other byte, one to the stage in RECEIVING joins
it where it goes on, and a DMA read of readable words gives the bytes Basin holds. An undefined TYPE is answered with
OBVO 04h. A command with a kept and answered tag is counted, gets the same answer again, and does nothing else. A
command all of whose actions are done is answered with the first condition word that refused one of them, its refusal
map and its data, the answer is kept for its tag, and the command stands no more. -/
def Obligations.ObvoCommandsAreTaken : Prop :=
  (∀ (s : State) (side : Side) (tag : BitVec 16),
    let d := s.dev
    let o := d.obvo
    let kept := o.kept.drop (o.kept.length - 63) ++ [(tag.toNat, none)]
    let resp (cond : Word) (data : List Byte) : Out := .resp (.obvo side) tag.toNat { cond := cond, frame := d.frame32, data := data }
    let cmd (n left : Nat) : Cmd := { id := o.nextCmd, path := .obvo side, tag := tag.toNat, count := n, left := left }
    let Gives (c : Instr) (n : Nat) (ops : List ActOp) : Prop := Sampled c s fun t => DevIs s t { d with obvo := { o with
      kept := kept, cmds := o.cmds ++ [cmd n ops.length], nextCmd := o.nextCmd + 1,
      acts := o.acts ++ (List.range ops.length).map (fun i =>
        { who := .sw .obvo, op := ops.getD i .recovRun, cmd := o.nextCmd, idx := i, deferred := false }) } }
    d.sideUp side = true →
    (∀ (r : Resp) (addr : Word) (count : BitVec 16), o.kept.find? (fun e => e.1 == tag.toNat) = some (tag.toNat, some r) →
      Sampled (.obvoRd side tag addr count) s fun t => Kept s t ∧ t.dev = { d with regs := t.dev.regs, out := .resp (.obvo side) tag.toNat r :: d.out } ∧
        RegsBut s t [ra 0xB 0x48] ∧ t.dev.rd (ra 0xB 0x48) = sat32 ((d.rd (ra 0xB 0x48)).toNat + 1)) ∧
    (o.kept.find? (fun e => e.1 == tag.toNat) = none → d.outstanding < 32 →
      (∀ (addr : Word) (count : BitVec 16), 1 ≤ count.toNat → count.toNat ≤ 1024 → addr.toNat % 4 = 0 → d.regTests addr.toNat count.toNat 0xB 3 = none →
        Sampled (.obvoRd side tag addr count) s fun t => DevIs s t { d with obvo := { o with
          kept := kept, cmds := o.cmds ++ [cmd 0 0], nextCmd := o.nextCmd + 1,
          reads := o.reads ++ [{ src := .obvo, kind := .regs addr.toNat count.toNat, cmd := o.nextCmd }] } }) ∧
      (∀ (addr : Word) (vals : List Word), 1 ≤ vals.length → vals.length ≤ 1024 → addr.toNat % 4 = 0 → d.regTests addr.toNat vals.length 0xB 3 = none →
        Gives (.obvoWr side tag addr vals) vals.length ((List.range vals.length).map (fun i => .write (addr.toNat + 4 * i) fullMask (vals.getD i 0)))) ∧
      (∀ addr mask v : Word, addr.toNat % 4 = 0 → d.regTests addr.toNat 1 0xB 3 = none →
        Gives (.obvoWrm side tag addr mask v) 0 [.write addr.toNat mask v]) ∧
      (∀ (target : Byte) (off : BitVec 40) (data : List Byte), 1 ≤ data.length → data.length ≤ 4096 → data.length % 4 = 0 →
        Gives (.dmaWr side tag target off data) 0 [.dmaWr target off.toNat data]) ∧
      (∀ (target : Byte) (off : BitVec 40) (n : BitVec 16), 4 ≤ n.toNat → n.toNat ≤ 4096 →
        Gives (.dmaRd side tag target off n) 0 [.dmaRd target off.toNat n.toNat]) ∧
      (∀ ty : Byte, Sampled (.obvoCmdUndefined side tag ty) s fun t => Kept s t ∧ t.dev.out = resp (condWord 0xB 4 ty.toNat) [] :: d.out ∧
        condWord 0xB 4 ty.toNat ∈ t.dev.words ∧ RegsBut s t (condRegs 0xB 0) ∧ t.dev.obvo.cmds = o.cmds ∧ t.dev.obvo.acts = o.acts))) ∧
  (∀ (s : State) (who : Who) (off : Nat) (data : List Byte),
    let d := s.dev
    (off % 64 = 0 → data.length % 64 = 0 → off + data.length ≤ basTop → Does s who (.dmaWr 0 off data) fun w b t =>
      w = none ∧ b = [] ∧ t.pending = s.pending ∧ t.nv = s.nv ∧ MemBut s t off data.length ∧
      (∀ i b, data[i]? = some b → mapGet memDefault t.mem (off + i) = b) ∧ t.dev.regs = d.regs ∧ t.dev.words = d.words) ∧
    (data.length % 8 = 0 → 1 ≤ data.length → d.plat.load = .receiving → d.plat.trail = false → off = d.plat.got →
      d.plat.got + data.length ≤ d.plat.len → Does s who (.dmaWr 1 off data) fun w b t => w = none ∧ b = [] ∧ t.pending = s.pending ∧
        t.mem = s.mem ∧ t.nv = { s.nv with stage := s.nv.stage ++ data } ∧ t.dev.plat.got = d.plat.got + data.length ∧
        t.dev.plat.load = (if d.plat.got + data.length = d.plat.len then .verifying else .receiving)) ∧
    (∀ n, off % 64 = 0 → n % 64 = 0 → off + n ≤ basTop → d.bad = [] → Does s who (.dmaRd 0 off n) fun w b t =>
      w = none ∧ b = readBytes s.mem off n ∧ Kept s t ∧ t.dev.regs = d.regs ∧ t.dev.words = d.words)) ∧
  (∀ (d : Dev) (c : Cmd) (side : Side), d.obvo.cmds = [c] → c.path = .obvo side → c.left = 0 → c.dups = [] → d.obvo.reads = [] →
    d.sideUp side = true →
    let r : Resp := { cond := c.cond, frame := d.frame32, data := refusalMap c ++ c.data }
    d.answerWrites = { d with
      out := .resp (.obvo side) c.tag r :: d.out
      obvo := { d.obvo with cmds := [], kept := d.obvo.kept.map (fun e => if e.1 = c.tag then (e.1, some r) else e) } })

/-- BEACON, OBVO_FORWARD, OBVO_PORT_UP, OBVO_PORT_DOWN, BEACON_TIMEOUT and EVENT_SEND (R395, R397, R400, R401, R402,
R407). A beacon on a port in UP sets that side's position, its valid flag and its time, and goes out of the other
port, when that is UP, with one more device passed. A packet with a bad CRC is counted and raises OBVO 02h and goes
nowhere; one bound for the host goes on as it is, another with its hop count one lower, and one whose hop count is 0
does not. With the main domain powered and no data-path reset under way, the loss of its lanes, and, with RACKCLK
there, their lock, is due at the next boundary: it makes a port DOWN with OBVO 01h and without its valid flag, or UP.
A valid flag falls too when its port is not UP or 4,096 frames have passed since its beacon. The oldest event records
that fit one packet of 4,096 bytes leave in order on the side in use. -/
def Obligations.ObvoChainAndEvents : Prop :=
  ∀ (s : State) (side : Side),
    let d := s.dev
    let other := otherSide side
    (d.sideUp side = true →
      (∀ (n : BitVec 3) (fromB : Bool), Runs (.beacon side n fromB) s fun t => Kept s t ∧ t.dev.ports = d.ports ∧ t.dev.pkts = d.pkts ∧
        (side = .obIn → t.dev.obvo.posA = n ∧ t.dev.obvo.validA = true ∧ t.dev.obvo.tA = d.now ∧ t.dev.obvo.validB = d.obvo.validB ∧
          t.dev.obvo.evSide = 1) ∧
        (side = .obOut → t.dev.obvo.posB = n ∧ t.dev.obvo.validB = true ∧ t.dev.obvo.tB = d.now ∧ t.dev.obvo.validA = d.obvo.validA) ∧
        (d.sideUp other = true → t.dev.out = .obvo other {
          ty := 0x20, inbound := false, hop := 0, tag := 0, arg := BitVec.ofNat 64 (n.toNat + 1 + 256 * b2n fromB), body := [], crcOk := true } :: d.out) ∧
        (d.sideUp other = false → t.dev.out = d.out)) ∧
      (∀ pk : ObvoPkt,
        (pk.crcOk = false → Runs (.obvoForward side pk) s fun t => Kept s t ∧ t.dev.out = d.out ∧ condWord 0xB 2 (sideBit side) ∈ t.dev.words ∧
          t.dev.rd64 (ra 0xB 0x40) = (d.rd64 (ra 0xB 0x40) + 1) % 2 ^ 64) ∧
        (pk.crcOk = true → d.sideUp other = true → pk.inbound = true → Runs (.obvoForward side pk) s fun t =>
          DevIs s t { d with out := .obvo other pk :: d.out }) ∧
        (pk.crcOk = true → d.sideUp other = true → pk.inbound = false → pk.ty ≠ 0x20 → pk.hop ≠ 0 → Runs (.obvoForward side pk) s fun t =>
          DevIs s t { d with out := .obvo other { pk with hop := pk.hop - 1 } :: d.out }) ∧
        (pk.crcOk = true → pk.inbound = false → pk.ty ≠ 0x20 → pk.hop = 0 → Runs (.obvoForward side pk) s fun t => t = s))) ∧
    (d.dies.getD 0 .off ≠ .off → d.dpBusy = false →
      Runs (.obvoPortDown side) s (fun t => DevIs s t { d with obvo := { d.obvo with due := d.obvo.due ++ [(side, .down)] } }) ∧
      (d.frm.st ≠ .lost → Runs (.obvoPortUp side) s fun t => DevIs s t { d with obvo := { d.obvo with due := d.obvo.due ++ [(side, .up)] } })) ∧
    (∀ v, d.obvo.due = [(side, v)] → let e := d.obvoTick
      e.obvo.due = [] ∧ e.sideUp other = d.sideUp other ∧ (v = .up → e.sideUp side = true) ∧
      (v = .down → e.sideUp side = false ∧ (match side with | .obIn => e.obvo.validA | .obOut => e.obvo.validB) = false ∧
        (d.sideUp side = true → condWord 0xB 1 (sideBit side) ∈ e.words))) ∧
    ((d.sideUp side = false ∨ 4096 ≤ d.age (match side with | .obIn => d.obvo.tA | .obOut => d.obvo.tB)) →
      Runs (.beaconTimeout side) s fun t => Kept s t ∧ (match side with | .obIn => t.dev.obvo.validA | .obOut => t.dev.obvo.validB) = false ∧
        (match side with | .obIn => t.dev.obvo.validB | .obOut => t.dev.obvo.validA) =
          (match side with | .obIn => d.obvo.validB | .obOut => d.obvo.validA) ∧ t.dev.out = d.out ∧ t.dev.lanes = d.lanes) ∧
    (∀ r rest, d.obvo.evSide = sideBit side + 1 → d.sideUp side = true → d.obvo.events = r :: rest → r.length ≤ 4096 →
      Runs .eventSend s fun t => Kept s t ∧ t.dev = { d with obvo := { d.obvo with events := t.dev.obvo.events }, out := t.dev.out } ∧
        ∃ a, a ≠ [] ∧ t.dev.out = .event side a :: d.out ∧ a ++ t.dev.obvo.events = d.obvo.events ∧ (a.map List.length).sum ≤ 4096)

/-- ALERT_N (R415). When a condition of any block sets a PENDING flag that was 0b while the block's bit in
TRAIL_ALERT_EN is set, ALERT_N is asserted, whatever it was before: after a release too; while Col is not READY its
level is kept (R435), and READY asserts what is due (log 97). While the bit is clear, or PENDING stands already,
raising leaves ALERT_N as it is. While ALERT_N is asserted and the SMBus address is served, ALERT_RESPONSE answers
with the device's own address, releases ALERT_N and changes nothing else. A Col restart keeps an asserted ALERT_N, and
one that is not asserted but for what COL's own condition then does. -/
def Obligations.AlertFollowsPending : Prop :=
  (∀ (d : Dev) (b c det idx : Nat), b ≤ 0x11 → idx < 512 → (b = 3 → idx < 128) → (condAddr b idx, condWord b c det) ∉ d.raised →
    let en := Machine.bit (d.rd (ra 0xC 8)) b
    let pend := Machine.bit (d.rd (condAddr b idx + 4)) 0
    (en = true → pend = false → d.col.st = .ready → (d.raiseAt b c det idx).obvo.alert = true) ∧
    (en = true → pend = false → d.col.st ≠ .ready → (d.raiseAt b c det idx).obvo.alert = d.obvo.alert ∧ (d.raiseAt b c det idx).obvo.alertDue = true) ∧
    ((en = false ∨ pend = true) → (d.raiseAt b c det idx).obvo.alert = d.obvo.alert ∧
      (d.raiseAt b c det idx).obvo.alertDue = d.obvo.alertDue)) ∧
  (∀ s : State, s.dev.service ≠ .none → s.dev.obvo.alert = true → Runs .alertResponse s fun t =>
    DevIs s t { s.dev with obvo := { s.dev.obvo with alert := false }, out := .alert (BitVec.ofNat 8 (0x68 + s.dev.trayPos)) :: s.dev.out }) ∧
  (∀ (s : State) (core : Bool), s.dev.writeRefusal (.col core) (ra 0xD 4) = none → (s.dev.col.st = .fwStart ∨ s.dev.col.st = .ready) →
    Takes (.colReady (.col core)) s fun t => t.dev.obvo.alert = (s.dev.obvo.alert || s.dev.obvo.alertDue)) ∧
  (∀ (s : State) (src : Src), Reached s src (ra 0xD 4) → Takes (.colRestart src) s fun t =>
    (s.dev.obvo.alert = true → t.dev.obvo.alert = true) ∧
    (Machine.bit (s.dev.rd (ra 0xC 8)) 0xD = false → t.dev.obvo.alert = s.dev.obvo.alert))

/-- The trail port: MCTP control, SPDM and Paltia trail commands (R373, R405, R410, R411, R412, R413, R426, R430,
R431, R448, R451, R489). While the port serves, a bad PEC is counted with TRAIL 01h and an unsupported type counted,
and nothing is answered; each MCTP control message is answered, Set Endpoint ID with the ID it assigns. In full
service with an ID, each SPDM request gets its one answer, an error where there is no valid certificate or for another
request. Every other request waits for the boundary that samples it and changes nothing else; sampled, STATUS and
REG_READ are one read, REG_WRITE one control action for each register, and CAP_SET, HOLDOFF_SET, HOLDOFF_CLEAR,
LOCATE, PLAT_START, PLAT_DATA, PLAT_CLEAR, PLAT_INSTALL, RECOV_START, and in the loader RECOV_DATA and RECOV_RUN,
actions. An undefined CMD is answered with TRAIL 03h. As the actions take effect: A trail cap within the ceiling
becomes PWR_CAP_TRAIL and changes no other register; hold-off orders set and clear the trail port's own order alone;
LOCATE sets the trail's field of GLB_LOCATE alone; PLAT_DATA that goes on where the stage in RECEIVING ends joins it.
RECOV_START from READY resets Col for the load; in the loader it begins the load, RECOV_DATA joins it in order, and
RECOV_RUN of a good load begins to write it; each answers with COL_RECOV_STAT. The commands of a PLAT_START,
PLAT_CLEAR or PLAT_INSTALL are writes of PLAT_LOAD_LEN and PLAT_LOAD_CTL (PlatIsLoadedAndVerified). A trail command
all of whose actions are done is answered on its path, with the first condition word that refused one. -/
def Obligations.TrailPortAnswers : Prop :=
  (∀ (s : State) (eid inst : Byte),
    let d := s.dev
    let o := d.obvo
    let path (cmd : Nat) : Path := .trail eid inst (BitVec.ofNat 8 (cmd + 0x80))
    let ans (cmd : Nat) (cond : Word) (data : List Byte) : List Out := .resp (path cmd) 0 { cond := cond, frame := d.frame32, data := data } :: d.out
    let cmd (c n left : Nat) : Cmd := { id := o.nextCmd, path := path c, tag := 0, count := n, left := left }
    let Gives (i : Instr) (c n : Nat) (ops : List ActOp) : Prop := Sampled i s fun t => DevIs s t { d with obvo := { o with
      cmds := o.cmds ++ [cmd c n ops.length], nextCmd := o.nextCmd + 1
      acts := o.acts ++ (List.range ops.length).map (fun j =>
        { who := .sw (.trail eid), op := ops.getD j .recovRun, cmd := o.nextCmd, idx := j, deferred := false }) } }
    let GivesRead (i : Instr) (c : Nat) (k : RdKind) : Prop := Sampled i s fun t => DevIs s t { d with obvo := { o with
      cmds := o.cmds ++ [cmd c 0 0], nextCmd := o.nextCmd + 1, reads := o.reads ++ [{ src := .trail eid, kind := k, cmd := o.nextCmd }] } }
    let Mctp (t : State) (kind : Nat) (b : List Byte) (obvo : Obvo) : Prop := DevIs s t { d with
      draws := d.draws + 1, obvo := obvo, out := .mctp kind b :: d.out }
    (d.service ≠ .none →
      Runs .pecBad s (fun t => Kept s t ∧ RaisedOn (d.addSat (ra 0xC 0x40) 1) t.dev 0xC 1 0 0) ∧
      Runs .unsupportedMessageType s (fun t => DevIs s t (d.addSat (ra 0xC 0x44) 1)) ∧
      Runs (.setEndpointId eid) s (fun t => Mctp t 1 (Config.mctpBody d.draws ++ [eid]) { o with eid := eid }) ∧
      Runs .getEndpointId s (fun t => Mctp t 2 (Config.mctpBody d.draws ++ [o.eid]) o) ∧
      Runs .getMctpVersionSupport s (fun t => Mctp t 4 (Config.mctpBody d.draws) o) ∧
      Runs .getMessageTypeSupport s (fun t => Mctp t 5 (Config.mctpBody d.draws ++ [0, 5, 0x7E]) o)) ∧
    (d.service = .full → o.eid ≠ 0 →
      let err (t : State) : Prop := DevIs s t { d with out := .mctp 0x7F [7] :: d.out }
      Runs .getVersion s (fun t => ∃ b, Mctp t 0x84 b o) ∧ Runs .getCapabilities s (fun t => ∃ b, Mctp t 0xE1 b o) ∧
      Runs .negotiateAlgorithms s (fun t => ∃ b, Mctp t 0xE3 b o) ∧
      Runs .getDigests s (fun t => ∃ b, Mctp t 0x81 b o ∧ b.head? = some (if d.col.certValid then 1 else 0)) ∧
      Runs .getMeasurements s (fun t => ∃ b, Mctp t 0xE0 (b ++ [1, 2, 3, 4, 5, 6].flatMap s.measure ++
        Config.identSign (b ++ [1, 2, 3, 4, 5, 6].flatMap s.measure)) o) ∧
      (d.col.certValid = true → Runs .getCertificate s (fun t => ∃ b, Mctp t 0x82 (b ++ s.nv.ident) o) ∧
        Runs .challenge s fun t => ∃ b, Mctp t 0x83 (b ++ Config.identSign b) o) ∧
      (d.col.certValid = false → Runs .getCertificate s err ∧ Runs .challenge s err) ∧
      Runs .spdmUnsupportedRequest s err ∧
      GivesRead (.status eid inst) 1 .status ∧
      (∀ (addr : Word) (n : BitVec 16), 1 ≤ n.toNat → n.toNat ≤ 64 → addr.toNat % 4 = 0 → d.regTests addr.toNat n.toNat 0xC 2 = none →
        GivesRead (.regRead eid inst addr n) 2 (.regs addr.toNat n.toNat)) ∧
      (∀ (addr : Word) (vals : List Word), 1 ≤ vals.length → vals.length ≤ 32 → addr.toNat % 4 = 0 → d.regTests addr.toNat vals.length 0xC 2 = none →
        Gives (.regWrite eid inst addr vals) 3 vals.length ((List.range vals.length).map (fun i => .write (addr.toNat + 4 * i) fullMask (vals.getD i 0)))) ∧
      (∀ w : BitVec 16, Gives (.capSet eid inst w) 0x10 0 [.write (ra 0xF 0xC) fullMask (w.setWidth 32)]) ∧
      Gives (.holdoffSet eid inst) 0x11 0 [.write (ra 0xF 0x14) fullMask 0x80000000] ∧
      Gives (.holdoffClear eid inst) 0x12 0 [.write (ra 0xF 0x14) fullMask 0x40000000] ∧
      (∀ st : Byte, st.toNat ≤ 2 → Gives (.locate eid inst st) 0x20 0 [.locate st.toNat]) ∧
      (∀ len : Word, Gives (.platStart eid inst len) 0x30 0 [.write (ra 0xA 8) fullMask len, .write (ra 0xA 4) fullMask 0x80000000]) ∧
      Gives (.platClear eid inst) 0x32 0 [.write (ra 0xA 4) fullMask 0x40000000] ∧
      Gives (.platInstall eid inst) 0x33 0 [.write (ra 0xA 4) fullMask 0x20000000] ∧
      (∀ (off : Word) (data : List Byte), 8 ≤ data.length → data.length ≤ 1024 → data.length % 8 = 0 →
        Gives (.platData eid inst off data) 0x31 0 [.platData off.toNat data]) ∧
      (∀ (kind : Byte) (len : Word), Gives (.recovStart eid inst kind len) 0x40 0 [.recovStart kind.toNat len.toNat]) ∧
      (∀ c : Byte, Sampled (.trailCmdUndefined eid inst c) s fun t => Kept s t ∧
        RaisedOn { d with out := ans c.toNat (condWord 0xC 3 c.toNat) [] } t.dev 0xC 3 c.toNat 0)) ∧
    (d.service = .loader → o.eid ≠ 0 →
      (∀ (kind : Byte) (len : Word), Gives (.recovStart eid inst kind len) 0x40 0 [.recovStart kind.toNat len.toNat]) ∧
      (∀ (off : Word) (data : List Byte), 8 ≤ data.length → data.length ≤ 1024 → data.length % 8 = 0 →
        Gives (.recovData eid inst off data) 0x41 0 [.recovData off.toNat data]) ∧
      Gives (.recovRun eid inst) 0x42 0 [.recovRun])) ∧
  (∀ (s : State) (eid : Byte),
    let d := s.dev
    let who : Who := .sw (.trail eid)
    (∀ w : BitVec 16, w.toNat ≤ d.ceilW → Does s who (.write (ra 0xF 0xC) fullMask (w.setWidth 32)) fun r _ t => r = none ∧ RegsOnly s t ∧
      RegsBut s t [ra 0xF 0xC] ∧ t.dev.rd (ra 0xF 0xC) = w.setWidth 32) ∧
    Does s who (.write (ra 0xF 0x14) fullMask 0x80000000) (fun r _ t => r = none ∧ DevIs s t { d with pwr := { d.pwr with holdTrail := true } }) ∧
    Does s who (.write (ra 0xF 0x14) fullMask 0x40000000) (fun r _ t => r = none ∧ DevIs s t { d with pwr := { d.pwr with holdTrail := false } }) ∧
    (∀ st, st ≤ 2 → Does s who (.locate st) fun r _ t => r = none ∧ RegsOnly s t ∧
      RegsBut s t [ra 0 0x74] ∧ t.dev.fld (ra 0 0x74) 8 2 = st ∧ t.dev.fld (ra 0 0x74) 0 2 = d.fld (ra 0 0x74) 0 2) ∧
    (∀ (off : Nat) (data : List Byte), 8 ≤ data.length → data.length ≤ 1024 → data.length % 8 = 0 → d.plat.load = .receiving → d.plat.trail = true →
      off = d.plat.got → d.plat.got + data.length ≤ d.plat.len → Does s who (.platData off data) fun r _ t => r = none ∧
        t.pending = s.pending ∧ t.mem = s.mem ∧ t.nv = { s.nv with stage := s.nv.stage ++ data } ∧ t.dev.out = d.out ∧
        t.dev.plat.got = d.plat.got + data.length ∧ t.dev.regs = d.regs) ∧
    (∀ kind len, recovLenOk kind len = true → d.col.st = .ready → Does s who (.recovStart kind len) fun r b t => r = none ∧
      Kept s t ∧ t.dev.col.st = .rom ∧ t.dev.col.recovReq = some (kind, len, true) ∧ condWord 0xD 2 3 ∈ t.dev.words ∧
      b = leBytes 4 t.dev.recovStat.toNat) ∧
    (d.col.st = .recovery → let x := d.col
      (∀ kind len, recovLenOk kind len = true → Does s who (.recovStart kind len) fun r b t => r = none ∧ Kept s t ∧
        t.dev.col = { x with lst := .receiving, lkind := kind, llen := len, lbuf := [], lsrc := 1 } ∧ t.dev.regs = d.regs ∧
        b = leBytes 4 t.dev.recovStat.toNat) ∧
      (∀ (off : Nat) (data : List Byte), 8 ≤ data.length → data.length ≤ 1024 → data.length % 8 = 0 → (x.lst = .receiving ∨ x.lst = .loaded) → x.lsrc = 1 →
        off = x.lbuf.length → x.lbuf.length + data.length ≤ x.llen → Does s who (.recovData off data) fun r b t => r = none ∧ Kept s t ∧
          t.dev.col.lbuf = x.lbuf ++ data ∧ t.dev.col.lst = (if x.lbuf.length + data.length = x.llen then .loaded else .receiving) ∧
          t.dev.regs = d.regs ∧ b = leBytes 4 t.dev.recovStat.toNat) ∧
      (x.lst = .loaded → x.lsrc = 1 → recovBad s.nv x = none → Does s who .recovRun fun r b t => r = none ∧ Kept s t ∧
        t.dev.col = { x with lst := .writing } ∧ t.dev.regs = d.regs ∧ b = leBytes 4 t.dev.recovStat.toNat))) ∧
  (∀ (d : Dev) (c : Cmd) (eid inst b : Byte), d.obvo.cmds = [c] → c.path = .trail eid inst b → c.left = 0 → d.obvo.reads = [] →
    d.answerWrites = { d with
      out := .resp (.trail eid inst b) c.tag { cond := c.cond, frame := d.frame32, data := refusalMap c ++ c.data } :: d.out
      obvo := { d.obvo with cmds := [] } })


/-! ## Col and Narrows -/

/-- Col, its boot ROM, watchdog, recovery loader, flash and messages, CFG_LOCK and quarantine tokens (R419, R421,
R425, R426, R428, R429, R430, R431, R434, R439, R441, R442). From ROM a good image starts firmware with its SVN burnt,
FUSE_LOCK engaged and the watchdog running; a bad one enters the loader with its reason, a failed self-test is a
FAULT. READY from Col in FW_START makes Col READY; a restart, and a watchdog not kicked in its period, return it to
ROM with COL 02h (both in one frame are the watchdog's), and Col writes not yet sampled are lost; a kick with its key
restarts the period. CFG_LOCK from the trail port or the host is due. A token check ends with the token held and NAR
08h or with NAR 07h and its reason, and a token past its last frame is dropped. A packet of Col that breaks R439
raises NAR 04h and goes nowhere. A message for READY firmware is delivered, else counted. Flash writes reach FWDATA
alone. START and RUN act on the loader, and a commit stores the image or programs an owner slot or the final mark and
boots again. Basin and the queue stay. -/
def Obligations.ColBootsRecoversAndIsGuarded : Prop :=
  ∀ s : State,
    let d := s.dev
    let x := d.col
    let Still (t : State) : Prop := t.pending = s.pending ∧ t.mem = s.mem ∧ t.dev.ports = d.ports ∧ t.dev.queue = d.queue ∧ t.dev.plat = d.plat
    (x.st = .rom → x.recovReq = none → x.bootFails ≠ 3 →
      (imgBad s.nv.image s.nv.svn true = none → Runs (.bootRom true true) s fun t => Still t ∧
        t.nv = { s.nv with svn := max s.nv.svn (leAt s.nv.image 12 1) } ∧ t.dev.col.st = .fwStart ∧ t.dev.col.fuseLock = true ∧
        t.dev.col.wdogOn = true ∧ t.dev.col.wdogAt = d.now ∧ t.dev.col.fwVer = BitVec.ofNat 32 (leAt s.nv.image 8 4) ∧ t.dev.regs = d.regs) ∧
      (∀ (r : Nat) (ok : Bool), imgBad s.nv.image s.nv.svn ok = some r → Runs (.bootRom true ok) s fun t => Still t ∧ t.nv = s.nv ∧
        t.dev.col.st = .recovery ∧ t.dev.col.rcause = 1 ∧ t.dev.col.imgReason = r ∧ condWord 0xD 1 (r * 256) ∈ t.dev.words)) ∧
    (x.st = .rom → ∀ ok, Runs (.bootRom false ok) s fun t => Still t ∧ t.nv = s.nv ∧ t.dev.col.st = .fault ∧ condWord 0 2 12 ∈ t.dev.words) ∧
    (∀ core, d.writeRefusal (.col core) (ra 0xD 4) = none → (x.st = .fwStart ∨ x.st = .ready) → Takes (.colReady (.col core)) s fun t => Still t ∧
      t.nv = { s.nv with repairs := s.nv.repairs ++ x.heldRepairs } ∧
      t.dev = { d with col := { x with st := .ready, bootFails := 0, heldRepairs := [] }
                       obvo := { d.obvo with alert := d.obvo.alert || d.obvo.alertDue, alertDue := false } }) ∧
    (∀ src, Reached s src (ra 0xD 4) → x.st ≠ .reset → d.wdogDue = false → Takes (.colRestart src) s fun t => Still t ∧ t.nv = s.nv ∧ t.dev.col.st = .rom ∧
      t.dev.col.fuseLock = false ∧ t.dev.col.wdogOn = false ∧ t.dev.col.cfgLock = x.cfgLock ∧ t.dev.col.tokens = x.tokens ∧
      condWord 0xD 2 2 ∈ t.dev.words ∧ t.dev.inputs = d.inputs.filter (fun c => ! colWrite c) ∧
      RegsBut s t (ra 0xD 0x20 :: condRegs 0xD 0)) ∧
    (∀ src, Reached s src (ra 0xD 4) → x.st ≠ .reset → d.wdogDue = true → Takes (.colRestart src) s fun t => Still t ∧ t.nv = s.nv ∧
      t.dev = d.wdogFires ∧ t.dev.col.st = .rom ∧ t.dev.col.bootFails = min 3 (x.bootFails + 1)) ∧
    (∀ core v, d.writeRefusal (.col core) (ra 0xE 0x10) = none → Machine.fld v 0 16 = 0x5AC3 → x.wdogOn = true → Takes (.wdogKick (.col core) v) s fun t =>
      DevIs s t { d with col := { x with wdogAt := d.now } }) ∧
    (x.wdogOn = true → d.wdogFrames ≤ d.age x.wdogAt → Runs .wdogExpire s fun t => Still t ∧ t.nv = s.nv ∧ t.dev.col.st = .rom ∧
      t.dev.col.bootFails = min 3 (x.bootFails + 1) ∧ condWord 0xD 2 1 ∈ t.dev.words ∧ condWord 0xE 6 (min 3 (x.bootFails + 1)) ∈ t.dev.words) ∧
    (∀ src v, isCol src = false → Reached s src (ra 0xE 4) → Machine.bit v 0 = true → Takes (.cfgLock src v) s fun t =>
      DevIs s t { d with col := { x with lockDue := true } }) ∧
    (∀ src v, Reached s src (ra 0xE 0x20) → Machine.bit v 31 = true → x.checking = false → Takes (.tokenCheck src v) s fun t =>
      DevIs s t { d with col := { x with checking := true } }) ∧
    (x.checking = true → let b := d.tokenBytes
      (tokenRefusal d s.nv b = none → Runs .tokenCheckDone s fun t => Still t ∧ t.nv = s.nv ∧ condWord 0xE 8 (leAt b 5 1) ∈ t.dev.words ∧
        t.dev.col.tokens = x.tokens.filter (fun e => e.1 != leAt b 5 1) ++ [(leAt b 5 1, leAt b 6 1, leAt b 24 6, d.fno)] ∧
        t.dev.col.checking = false ∧ t.dev.col.nonce ≠ 0) ∧
      (∀ r, tokenRefusal d s.nv b = some r → Runs .tokenCheckDone s fun t => Still t ∧ t.nv = s.nv ∧ condWord 0xE 7 (r * 256) ∈ t.dev.words ∧
        t.dev.col.tokens = x.tokens ∧ t.dev.col.checking = false ∧ t.dev.col.nonce ≠ 0)) ∧
    (∀ (p : BitVec 7) (c l f : Nat), (p.toNat, c, l, f) ∈ x.tokens → l < d.fno → Runs (.tokenExpire p) s fun t =>
      DevIs s t { d with col := { x with tokens := x.tokens.filter (fun e => e.1 != p.toNat) } }) ∧
    (∀ pk : Packet,
      (∀ i, d.colPkBad pk.hdr = some i → Runs (.colPacketSend pk) s fun t => OnlyRaises s t 0xE 4 i 0) ∧
      (d.colPkBad pk.hdr = none → d.colQueued + cellsOfPkt pk.hdr ≤ 64 → Runs (.colPacketSend pk) s fun t => Still t ∧ t.nv = s.nv ∧
        ∀ k ∈ t.dev.pkts, k ∈ d.pkts ∨ (k.fromCol = true ∧ k.pk.payload = pk.payload ∧ k.pk.hdr.op = pk.hdr.op))) ∧
    (∀ id k, d.pkt id = some k → ctlMsg 0xD k = true →
      (x.st = .ready → Takes (.colMessage id) s fun t => Gone s t id ∧ t.dev.col = { x with inbox := x.inbox ++ [k.pk] } ∧ t.dev.regs = d.regs) ∧
      (x.st ≠ .ready → Takes (.colMessage id) s fun t => Gone s t id ∧ t.dev.col = x ∧
        t.dev.rd (ra 0xD 0x28) = sat32 ((d.rd (ra 0xD 0x28)).toNat + 1))) ∧
    (∀ (off : Word) (data : List Byte),
      (0x01C20000 ≤ off.toNat → off.toNat + data.length ≤ 0x04000000 → Runs (.colFlashWrite off data) s fun t => Still t ∧ t.dev = d ∧
        t.nv = { s.nv with fwdata := t.nv.fwdata } ∧ (∀ i b, data[i]? = some b → mapGet 0xFF t.nv.fwdata (off.toNat + i) = b) ∧
        ∀ a, a < off.toNat ∨ off.toNat + data.length ≤ a → mapGet 0xFF t.nv.fwdata a = mapGet 0xFF s.nv.fwdata a) ∧
      ((off.toNat < 0x01C20000 ∨ 0x04000000 < off.toNat + data.length) → Runs (.colFlashWrite off data) s fun t => Still t ∧ t.nv = s.nv ∧
        RaisedOn (d.addSat (ra 0xE 0x14) 1) t.dev 0xE 0xA 0 0)) ∧
    (∀ src v, Reached s src (ra 0xD 8) → x.st = .recovery →
      (Machine.bit v 31 = true → Machine.bit v 30 = false → (isTrail src = true ∨ trailLoads x = false) →
        recovLenOk (Machine.fld v 0 8) (d.fld (ra 0xD 0xC) 0 22) = true → Takes (.colRecovStart src v) s fun t => Still t ∧ t.nv = s.nv ∧
          t.dev.col = { x with lst := .receiving, lkind := Machine.fld v 0 8, llen := d.fld (ra 0xD 0xC) 0 22, lbuf := [], lsrc := if isTrail src then 1 else 2 } ∧
          RegsBut s t [ra 0xD 8]) ∧
      (Machine.bit v 31 = false → Machine.bit v 30 = true → x.lst = .loaded → (x.lsrc = 1 ↔ isTrail src = true) → recovBad s.nv x = none →
        Takes (.colRecovRun src v) s fun t => Still t ∧ t.nv = s.nv ∧ t.dev.col = { x with lst := .writing } ∧ RegsBut s t [ra 0xD 8])) ∧
    (x.st = .recovery → x.lst = .writing →
      (x.lkind ≠ 1 → ∀ ok, Runs (.loaderCommit ok) s fun t => Still t ∧ t.dev.col.st = .rom ∧ t.dev.col.bootFails = 0 ∧ condWord 0xD 5 x.lkind ∈ t.dev.words ∧
        t.nv = (if x.lkind = 2 then { s.nv with owners := s.nv.owners ++ [sha256 ((x.lbuf.drop 16).take 388)]
                                                moduli := s.nv.moduli ++ [(x.lbuf.drop 16).take 384] } else { s.nv with ownerFinal := true })) ∧
      (x.lkind = 1 → Runs (.loaderCommit true) s (fun t => Still t ∧ t.dev.col.st = .rom ∧ condWord 0xD 5 1 ∈ t.dev.words ∧
          t.nv = { s.nv with image := x.lbuf }) ∧
        Runs (.loaderCommit false) s fun t => Still t ∧ t.dev.col.st = .recovery ∧ t.dev.col.lst = .refused ∧ condWord 0xD 4 0x900 ∈ t.dev.words))


/-! ## Power and thermal control -/

/-- AVS, brake, excess, throttle, trip, leak, caps and hold-offs (R437, R446, R447, R448, R449, R451, R453, R454,
R455, R456, R459, R461). At a boundary the permitted draw is the least of the limit and its last value, raised by the
slew rate only while no hold-off is in force, and the scale is within the ceiling of the highest stage requested. An
AVS fault is held until its bus recovers; a step obeys its limits. A change of BRAKE_N is sampled at the next boundary
with PWR 04h, and while it is low the stage is at least 1. An excess in its 400th frame is a violation with PWR 02h.
Faulted diodes stay faulted, and the hottest die sets Tj and, at 100 C, the next throttle stage with PWR 05h; 800 good
frames take a stage back. A comparator trips: every die is OFF. Trip, leak and diode clears act over the trail port
alone, a trip clear with nothing hot and the rails up beginning a data-path reset. A leak loop changes state when two
measurements agree. A cap and a hold-off are their own source's alone. -/
def Obligations.PowerAndHeatAreHeldDown : Prop :=
  ∀ s : State,
    let d := s.dev
    let x := d.pwr
    (∀ n : Nat, let y := d.powerTick n
      y.pwr.pAllow = min (800 * d.limit) (x.pAllow + (if x.holdTrail || x.holdHost then 0 else d.slew)) ∧ y.pwr.pEst = n ∧
      y.pwr.scale ≤ stageCeil y.powerStage) ∧
    (∀ k : BitVec 2,
      (x.avsFault.getD k.toNat false = false → Runs (.avsFault k) s fun t => Kept s t ∧
        RaisedOn { d with pwr := { x with avsFault := x.avsFault.set k.toNat true } } t.dev 0xF 0xB k.toNat 0) ∧
      Runs (.avsRecover k) s (fun t => DevIs s t { d with pwr := { x with avsFault := x.avsFault.set k.toNat false } }) ∧
      ∀ v : BitVec 10, x.avsFault.getD k.toNat false = false → 700 ≤ v.toNat → v.toNat ≤ 850 → v.toNat ≤ d.avsNow k.toNat + 10 →
        d.avsNow k.toNat ≤ v.toNat + 10 → (x.avsTarget.getD k.toNat 0 ≠ 0 → 800 ≤ d.age (x.avsAt.getD k.toNat 0)) → (∃ p ∈ d.dies, p ≠ .off) →
        Runs (.avsStep k v) s fun t => DevIs s t { d with
          pwr := { x with avsTarget := x.avsTarget.set k.toNat v.toNat, avsAt := x.avsAt.set k.toNat d.now }, out := .avs k.toNat v.toNat :: d.out }) ∧
    (∀ f n, x.excess = some (f, n) → x.viol = false → 399 ≤ d.age f → Runs .capViolation400 s fun t => Kept s t ∧
      RaisedOn { d with pwr := { x with viol := true } } t.dev 0xF 2 0 0) ∧
    (0 < x.stageBrake → 800 < x.okRun → Runs .brakeStepDown s fun t =>
      DevIs s t { d with pwr := { x with stageBrake := x.stageBrake - 1, okRun := 1 } }) ∧
    (∀ low, Runs (.brake low) s fun t => DevIs s t { d with pwr := { x with brakePin := low } }) ∧
    (x.brakePin ≠ x.brakeLow → RaisedOn { d with pwr := { x with brakeLow := x.brakePin } } d.brakeTick 0xF 4 (b2n (! x.brakePin)) 0) ∧
    (x.brakeLow = true → 1 ≤ d.powerStage) ∧
    (∀ (temps : List Int) (flat : List Nat), Runs (.diodeRead temps flat) s fun t => Kept s t ∧ t.dev.pwr.temps = temps ∧ t.dev.ports = d.ports ∧
      let fs := t.dev.pwr.dfault
      (∀ i < 80, (x.dfault.getD i 0 ≠ 0 → fs.getD i 0 = x.dfault.getD i 0) ∧
        (x.dfault.getD i 0 = 0 → (temps.getD i 0 < -160 ∨ 600 < temps.getD i 0) → fs.getD i 0 = 1 ∧
          condWord 0xF 7 (diodeDie i * 256 + 16 + diodeIx i) ∈ t.dev.words)) ∧
      ∀ k T, hottest ((List.range 12).filterMap (fun j => (dieTj j temps fs).map (fun v => (j, v)))) = some (k, T) →
        t.dev.pwr.tj = T ∧ t.dev.pwr.tjDie = k ∧ (T < 400 → t.dev.pwr.stageTherm = x.stageTherm) ∧
        (400 ≤ T → t.dev.pwr.stageTherm = min 3 (x.stageTherm + 1) ∧ condWord 0xF 5 (k * 256 + min 3 (x.stageTherm + 1)) ∈ t.dev.words)) ∧
    (∀ f, x.coolAt = some f → 0 < x.stageTherm → 800 ≤ d.age f → Runs .thermStepDown s fun t =>
      DevIs s t { d with pwr := { x with stageTherm := x.stageTherm - 1, coolAt := some d.now } }) ∧
    (∀ i : Fin 80, Runs (.thermTrip i) s fun t => Kept s t ∧ t.dev.pwr = { x with trip := true, hot := true } ∧ t.dev.level1 = d.level1 ++ [.trip] ∧ t.dev.dies = List.replicate 12 .off ∧
      t.dev.hbms = List.replicate 8 .off ∧ t.dev.bridges = List.replicate 15 .off ∧ t.dev.ports = [] ∧ t.dev.lanes = [] ∧ t.dev.queue = [] ∧ condWord 0xF 6 (diodeDie i.val * 256 + diodeIx i.val) ∈ t.dev.words) ∧
    (∀ (src : Src) (v : Word), Reached s src (ra 0xF 0x20) → isTrail src = true →
      (Machine.bit v 31 = true → Machine.bit v 30 = false → Machine.bit v 29 = false → x.trip = true → x.hot = false → .trip ∉ d.level1 →
        (∀ i < 80, x.dfault.getD i 0 = 0 → x.temps.getD i 0 < 360) →
        (d.rails = false → Takes (.tripClr src v false) s fun t => DevIs s t { d with pwr := { x with trip := false } }) ∧
        (d.rails = true → Takes (.tripClr src v false) s fun t => t.pending = s.pending ∧ t.nv = s.nv ∧
          t.dev.pwr = { x with trip := false, powerAt := d.now } ∧ t.dev.dies = List.replicate 12 .init ∧ t.dev.dpBusy = true ∧
          t.dev.fld (ra 0 0x44) 24 8 = 6)) ∧
      (Machine.bit v 31 = true → Machine.bit v 30 = false → Machine.bit v 29 = false → (x.hot = true ∨ .trip ∈ d.level1) → Takes (.tripClr src v false) s fun t =>
        OnlyRaises s t 0xF 0xD 0 0) ∧
      Sampled (.tripClr src v true) s (fun t => t.dev.pwr.hot = true) ∧
      (Machine.bit v 31 = false → Machine.bit v 30 = true → Machine.bit v 29 = false →
        (x.leakA = .dry → x.leakB = .dry → Takes (.leakClr src v) s fun t => DevIs s t { d with pwr := { x with wetA := false, wetB := false } }) ∧
        (¬ (x.leakA = .dry ∧ x.leakB = .dry) → Takes (.leakClr src v) s fun t => OnlyRaises s t 0xF 0xD 1 0)) ∧
      (Machine.bit v 31 = false → Machine.bit v 30 = false → Machine.bit v 29 = true → Takes (.diodeRetry src v) s fun t =>
        DevIs s t { d with pwr := { x with dfault := List.replicate 80 0 } })) ∧
    (∀ a b : Nat, Runs (.leakMeasure a b) s fun t => Kept s t ∧ t.dev.pwr.lastA = leakOf a ∧ t.dev.pwr.lastB = leakOf b ∧
      t.dev.pwr.leakA = (if leakOf a = x.lastA then leakOf a else x.leakA) ∧ t.dev.pwr.leakB = (if leakOf b = x.lastB then leakOf b else x.leakB) ∧
      t.dev.pwr.wetA = (x.wetA || (decide (leakOf a = x.lastA ∧ leakOf a = .wet ∧ x.leakA ≠ .wet))) ∧
      t.dev.pwr.wetB = (x.wetB || (decide (leakOf b = x.lastB ∧ leakOf b = .wet ∧ x.leakB ≠ .wet))) ∧
      (leakOf a = x.lastA → leakOf a = .wet → x.leakA ≠ .wet → condWord 0xF 9 0 ∈ t.dev.words) ∧
      (leakOf a = x.lastA → leakOf a ≠ x.leakA → (leakOf a = .short ∨ leakOf a = .open) → condWord 0xF 0xA (2 * leakCode (leakOf a)) ∈ t.dev.words)) ∧
    (∀ v : Word, d.writeRefusal .obvo (ra 0xF 0x10) = none → Takes (.pwrCapHost .obvo v) s fun t => Kept s t ∧
      t.dev.rd (ra 0xF 0x10) = at32 0 16 (v.toNat % 65536) ∧ RegsBut s t (ra 0xF 0x10 :: condRegs 0xE 0) ∧ t.dev.pwr = x ∧
      (d.ceilW < v.toNat % 65536 → condWord 0xE 1 0 ∈ t.dev.words) ∧ (v.toNat % 65536 ≤ d.ceilW → t.dev.words = d.words)) ∧
    (∀ (src : Src) (v : Word), Reached s src (ra 0xF 0x14) →
      (Machine.bit v 31 = true → Machine.bit v 30 = false → Takes (.pwrHoldSet src v) s fun t => DevIs s t { d with pwr := { x with
        holdTrail := x.holdTrail || isTrail src, holdHost := x.holdHost || decide (src = .obvo) } }) ∧
      (Machine.bit v 31 = false → Machine.bit v 30 = true → Takes (.pwrHoldClr src v) s fun t => DevIs s t { d with pwr := { x with
        holdTrail := x.holdTrail && ! isTrail src, holdHost := x.holdHost && ! decide (src = .obvo) } }))


/-! ## Resets, rails and parts -/

/-- COLD_RESET, RESET_N, STBY_LOSS, the rails, DP_RESET and parts whose time has passed (R40, R198, R466, R467, R468,
R469, R470, R473, R474, R475, R476). A cold reset leaves nothing of the device but its inputs and its TAP: flash and
fuses and the waiting commands stand, Basin is empty, every register reads its reset value, the straps are sampled,
Col's ROM runs with a non-zero nonce, and parts are in INIT where the main rails are up, else OFF. RESET_N holds the
device in that state, and a cold reset that meets it too; its release samples the straps, with the cold reset, if
there was one, or RESET_N as the recorded cause. Without VDD_STBY its level alone changes. Loss of VDD_STBY leaves the
device unpowered. The main rails begin INIT; their loss holds dies OFF and clears the data path, the management
registers kept; their return begins a data-path reset of cause 7, unless tripped. DP_RESET, from a source other than
Col with the rails up, no trip and none in progress, begins one of cause 3: every part in INIT, the data path's lists
empty, the kept registers as before, Basin as before unless a stack was in FAULT. At the end of its time every part
still in INIT is in FAULT under its condition, and no other part changes. -/
def Obligations.ResetsLeaveTheirState : Prop :=
  ∀ s : State,
    let d := s.dev
    let Bare (t : State) : Prop := t.pending = s.pending ∧ t.mem = [] ∧ t.nv = s.nv ∧ t.dev.frm = {} ∧
      t.dev.lanes = [] ∧ t.dev.ports = [] ∧ t.dev.pkts = [] ∧ t.dev.queue = [] ∧ t.dev.launches = [] ∧ t.dev.rounds = [] ∧ t.dev.reqs = [] ∧
      t.dev.caps = [] ∧ t.dev.pats = [] ∧ t.dev.plat.active = false ∧ t.dev.obvo = {} ∧ t.dev.pwr.trip = false ∧ t.dev.dpBusy = false ∧
      t.dev.ir = d.ir ∧ t.dev.tapHeld = d.tapHeld
    let Sampled (st : Straps) (t : State) : Prop := t.dev.stby = true ∧ t.dev.resetLow = false ∧ t.dev.rails = d.rails ∧
      t.dev.straps = strapWord st ∧ t.dev.coordV = (! st.coordSrc) ∧ t.dev.pwr.strap = st.pwrCeil ∧ t.dev.col.st = .rom ∧ t.dev.col.nonce ≠ 0 ∧
      t.dev.dies = List.replicate 12 (if d.rails then .init else .off) ∧ t.dev.hbms = List.replicate 8 (if d.rails then .init else .off) ∧
      t.dev.bridges = List.replicate 15 (if d.rails then .init else .off)
    let Cleared (t : State) (as : List Nat) : Prop := t.pending = s.pending ∧ t.nv = s.nv ∧ t.dev.lanes = [] ∧ t.dev.ports = [] ∧
      t.dev.pkts = [] ∧ t.dev.queue = [] ∧ t.dev.launches = [] ∧ t.dev.rounds = [] ∧ t.dev.reqs = [] ∧ t.dev.plat.active = false ∧
      t.dev.frm = d.frm ∧ ∀ a, dpKeeps a = true → a ∉ as → t.dev.rd a = d.rd a
    let Begun (t : State) (c : Nat) : Prop := Cleared t [ra 0 0x44, ra 0 0x48] ∧ t.dev.dpBusy = true ∧ t.dev.dpAt = d.now ∧
      t.dev.rd (ra 0 0x44) = at32 24 8 c ||| at32 0 16 (d.fno % 65536) ∧ t.dev.rd (ra 0 0x48) = sat32 ((d.rd (ra 0 0x48)).toNat + 1) ∧
      t.dev.dies = List.replicate 12 .init ∧ t.dev.hbms = List.replicate 8 .init ∧ t.dev.bridges = List.replicate 15 .init ∧
      t.mem = (if PartSt.fault ∈ d.hbms then [] else s.mem)
    (d.resetLow = false → ∀ st, Runs (.coldReset st) s fun t => Bare t ∧ Sampled st t ∧ t.dev.regs = []) ∧
    (d.resetLow = true → ∀ st, Runs (.coldReset st) s fun t => Bare t ∧ t.dev.resetLow = true ∧ t.dev.coldHeld = true ∧ t.dev.regs = [] ∧
      t.dev.col.st = .reset ∧ t.dev.dies = List.replicate 12 .off) ∧
    (d.stby = true → Runs .resetNAssert s fun t => Bare t ∧ t.dev.resetLow = true ∧ t.dev.coldHeld = d.coldHeld ∧
      t.dev.level1 = [.resetN] ∧ t.dev.regs = [] ∧ t.dev.col.st = .reset ∧ t.dev.dies = List.replicate 12 .off) ∧
    (d.stby = false → Runs .resetNAssert s fun t => DevIs s t { d with resetLow := true }) ∧
    (∀ st, d.stby = true → d.resetLow = true → Runs (.resetNRelease st) s fun t => Bare t ∧ Sampled st t ∧
      t.dev.rd (ra 0 0x44) = at32 24 8 (if d.coldHeld then 1 else 2) ∧ ∀ a, a ≠ ra 0 0x44 → t.dev.rd a = regRst a) ∧
    (∀ st, d.stby = false ∨ d.resetLow = false → Runs (.resetNRelease st) s fun t => DevIs s t { d with resetLow := false }) ∧
    Runs .stbyLoss s (fun t => Bare t ∧ t.dev.resetLow = d.resetLow ∧ t.dev.stby = false ∧ t.dev.rails = false ∧ t.dev.regs = [] ∧ t.dev.dies = List.replicate 12 .off) ∧
    (d.rails = true → Runs .mainRailsUp s fun t => t = s) ∧
    (d.rails = false → d.stby = true → d.resetLow = false → d.pwr.trip = false → Runs .mainRailsUp s fun t => DevIs s t { d with
      rails := true, dies := List.replicate 12 .init, hbms := List.replicate 8 .init, bridges := List.replicate 15 .init
      pwr := { d.pwr with powerAt := d.now } }) ∧
    (d.rails = false → (d.stby = false ∨ d.resetLow = true ∨ d.pwr.trip = true) → Runs .mainRailsUp s fun t => DevIs s t { d with rails := true }) ∧
    Runs .railLoss s (fun t => Cleared t [] ∧ t.mem = s.mem ∧ t.dev.rails = false ∧ t.dev.dpBusy = false ∧ t.dev.dies = List.replicate 12 .off ∧
      t.dev.hbms = List.replicate 8 .off ∧ t.dev.bridges = List.replicate 15 .off ∧ t.dev.level1 = d.level1 ++ [.railLoss] ∧ t.dev.pwr = d.pwr) ∧
    (d.rails = false → d.stby = true → d.resetLow = false →
      (d.pwr.trip = false → Runs .railReturn s fun t => Begun t 7 ∧ t.dev.rails = true ∧ t.dev.pwr = { d.pwr with powerAt := d.now }) ∧
      (d.pwr.trip = true → Runs .railReturn s fun t => DevIs s t { d with rails := true, pwr := { d.pwr with powerAt := d.now } })) ∧
    (d.resetLow = true → Runs .railReturn s fun t => DevIs s t { d with rails := true }) ∧
    (d.resetLow = false → (d.rails = true ∨ d.stby = false) → Runs .railReturn s fun t => t = s) ∧
    (∀ src v, Reached s src (ra 0 0x40) →
      (Machine.bit v 31 = true → isCol src = false → d.rails = true → d.dpBusy = false → d.pwr.trip = false →
        Takes (.dpReset src v) s fun t => Begun t 3 ∧ t.dev.rails = true ∧ t.dev.pwr = d.pwr) ∧
      (Machine.bit v 31 = false ∨ isCol src = true ∨ d.rails = false ∨ d.dpBusy = true ∨ d.pwr.trip = true →
        Takes (.dpReset src v) s fun t => DevIs s t d)) ∧
    (let start := if d.dpBusy then d.dpAt else d.pwr.powerAt
     let lim := if d.dpBusy && ! d.stackLost then 320000 else 4000000
     (d.age start < lim → Runs .partInitTimeout s fun t => DevIs s t d) ∧
     (lim ≤ d.age start → Runs .partInitTimeout s fun t => Kept s t ∧ RegsBut s t (condRegs 0 0) ∧
       (∀ pt, t.dev.partSt pt = if d.partSt pt = .init then .fault else d.partSt pt) ∧
       (∀ i : Fin 12, d.partSt (.die i) = .init → condWord 0 2 i.val ∈ t.dev.words) ∧
       (∀ i : Fin 8, d.partSt (.stack i) = .init → condWord 0 3 i.val ∈ t.dev.words) ∧
       ∀ i : Fin 15, d.partSt (.bridge i) = .init → condWord 0 5 (i.val * 256) ∈ t.dev.words))


/-! ## Counters -/

/-- Snapshots, watermarks, windows, views and CNT_READ (R492, R495, R496, R497, R498, R500, R501). Writes of CNT_CTL
and of views wait for the boundary and take effect there. SNAP copies every per-port counter to its shadow and the
frame number to CNT_SNAP_FRAME, and nothing else changes. WMARK_CLR sets each watermark of a valid port to its depth.
A new WIN takes the place of the old and clears VALID; the same WIN changes nothing. At the end of a window of the WIN
in effect each valid port's byte counts become its bandwidth registers, the end's frame number is held with VALID, and
the counts start again; with another WIN, or no whole window begun, a window only begins; in another frame nothing
happens. A view write takes the writable bits, from Col it only raises CNT 03h. A CNT_READ waits for the boundary, is
marked there for service at the end of the frame, and the 17th of a frame waits for the next. Served at the end of the
frame, one outside its SETs, ports or zero fields is refused with CNT 02h, one outside its slice's view with CNT 01h,
each counted; else its registers go back. Either way it leaves. -/
def Obligations.CountersSnapAndAnswer : Prop :=
  ∀ s : State,
    let d := s.dev
    (∀ (src : Src) (v : Word), Reached s src (ra 0x10 0) →
      (Machine.bit v 31 = true → Machine.bit v 30 = false → Machine.fld v 0 5 = d.fld (ra 0x10 0) 0 5 →
        Takes (.cntSnap src v) s fun t => Kept s t ∧ t.dev = { d with regs := t.dev.regs, snapDue := true } ∧
          (∀ a, isLive a = true → t.dev.rd (a + 0x2000) = d.rd a) ∧ t.dev.rd64 (ra 0x10 4) = d.fno ∧
          ∀ a, isShadow a = false → a ∉ [ra 0x10 0, ra 0x10 4, ra 0x10 8] → t.dev.rd a = d.rd a) ∧
      (Machine.bit v 31 = false → Machine.bit v 30 = true → Machine.fld v 0 5 = d.fld (ra 0x10 0) 0 5 →
        Takes (.cntWmarkClr src v) s fun t => Kept s t ∧ t.dev = { d with regs := t.dev.regs, wmarkDue := true } ∧
          (∀ p ∈ d.validPorts, ∀ c < 16, let q := min (d.qDepth p c) 0xFFFF
            let h := min (d.holdOcc p c) 0xFFFF
            t.dev.rd (rp 0x10 (0x400 + 4 * c) p) = at32 0 16 q ||| at32 16 16 q ∧ t.dev.rd (rp 0x10 (0x440 + 4 * c) p) = at32 0 16 h ||| at32 16 16 h) ∧
          ∀ a, a ≠ ra 0x10 0 → (∀ p ∈ d.validPorts, ∀ c < 16, a ≠ rp 0x10 (0x400 + 4 * c) p ∧ a ≠ rp 0x10 (0x440 + 4 * c) p) →
            t.dev.rd a = d.rd a) ∧
      (Machine.bit v 31 = false → Machine.bit v 30 = false → Takes (.cntWinWrite src v) s fun t => RegsOnly s t ∧
        t.dev.fld (ra 0x10 0) 0 5 = Machine.fld v 0 5 ∧ RegsBut s t [ra 0x10 0, ra 0x10 0x10] ∧
        t.dev.bit (ra 0x10 0x10) 31 = (d.bit (ra 0x10 0x10) 31 && decide (Machine.fld v 0 5 = d.fld (ra 0x10 0) 0 5)) ∧
        t.dev.fld (ra 0x10 0x10) 0 31 = d.fld (ra 0x10 0x10) 0 31)) ∧
    (let win := min 20 (d.fld (ra 0x10 0) 0 5)
     (d.fno % 2 ^ win ≠ 0 → Runs .bwWindowEnd s fun t => DevIs s t d) ∧
     (d.fno % 2 ^ win = 0 → d.bwAt ≠ some d.now →
       (d.bwWin ≠ win ∨ d.bwAt = none → Runs .bwWindowEnd s fun t => DevIs s t { d with bwWin := win, bwin := [], bwAt := some d.now }) ∧
       (d.bwWin = win → d.bwAt ≠ none → Runs .bwWindowEnd s fun t => Kept s t ∧
         t.dev = { d with regs := t.dev.regs, bwin := [], bwAt := some d.now } ∧ t.dev.rd (ra 0x10 0xC) = BitVec.ofNat 32 d.fno ∧
         t.dev.rd (ra 0x10 0x10) = at32 31 1 1 ||| at32 0 16 (d.fno / 2 ^ 32) ∧
         (∀ p ∈ d.validPorts, t.dev.rd64 (rp 0x10 0x480 p) = mapGet 0 d.bwin (p * 2) % 2 ^ 64 ∧
           t.dev.rd64 (rp 0x10 0x488 p) = mapGet 0 d.bwin (p * 2 + 1) % 2 ^ 64) ∧
         ∀ a, a ∉ [ra 0x10 0xC, ra 0x10 0x10] → (∀ p ∈ d.validPorts, ∀ o < 4, a ≠ rp 0x10 (0x480 + 4 * o) p) → t.dev.rd a = d.rd a))) ∧
    (∀ (src : Src) (addr v : Word), isView addr.toNat = true → Reached s src addr.toNat →
      (isCol src = false → Takes (.cntViewWrite src addr v) s fun t => RegsOnly s t ∧ RegsBut s t [addr.toNat] ∧
        t.dev.rd addr.toNat = (d.rd addr.toNat &&& ~~~ (regRw addr.toNat)) ||| (v &&& regRw addr.toNat)) ∧
      (isCol src = true → Takes (.cntViewWrite src addr v) s fun t => OnlyRaises s t 0x10 3 5 0)) ∧
    (∀ (id : Nat) (k : Pkt), d.pkt id = some k → k.pk.hdr.op = 0x41 → k.st = .engine → k.conf = true →
      let pl := k.pk.payload
      let p := leAt pl 0 1
      let set := leAt pl 1 1
      let sl := k.pk.hdr.slice.toNat
      let Answered (w : Word) (data : List Byte) : Prop := (id < d.nextId → ∀ x ∈ d.cntTick.pkts, x.id ≠ id) ∧ d.cntTick.queue = d.queue ∧
        ∀ x ∈ d.cntTick.pkts, x ∈ d.pkts ∨ (x.pk.hdr.op = 0x42 ∧ x.pk.hdr.dstId = k.pk.hdr.srcId ∧ x.conf = true ∧
          x.pk.payload.take (64 + data.length) = d.cntUnit w pl d.fno ++ data)
      let Refused (c det : Nat) : Prop := Answered (condWord 0x10 c det) [] ∧ condWord 0x10 c det ∈ d.cntTick.words ∧
        d.cntTick.rd (ra 0x10 0x14) = sat32 ((d.rd (ra 0x10 0x14)).toNat + 1)
      (16 ≤ d.cntServed → Takes (.cntRead id) s fun t => DevIs s t { d with inputs := d.inputs ++ [.cntRead id] }) ∧
      (d.cntServed < 16 → k.rank = 0 → Takes (.cntRead id) s fun t => DevIs s t { d with
        cntServed := d.cntServed + 1, pkts := d.pkts.map (fun x => if x.id = id then { x with rank := 1 } else x) }) ∧
      let listed := d.bit (ra 0x10 (0x400000 + 0x20 * sl)) 0 && d.bit (ra 0x10 (0x400004 + 0x20 * sl + 4 * (p / 32))) (p % 32)
      (d.pkts.filter (fun x => x.pk.hdr.op == 0x41 && x.st == .engine && x.rank == 1) = [k] →
        (set = 0 ∨ 4 < set ∨ 128 ≤ p ∨ zeroAt pl 4 60 = false ∨ k.pk.hdr.len ≠ 0 → Refused 2 (k.ing.getD 0)) ∧
        (1 ≤ set → set ≤ 4 → p < 128 → zeroAt pl 4 60 = true → k.pk.hdr.len = 0 →
          (listed = false → Refused 1 (sl * 256 + p)) ∧
          (listed = true → Answered 0 ((List.range (cntSet set).2).flatMap fun i =>
            leBytes 4 (d.rd (rp 0x10 ((cntSet set).1 + 4 * i) p)).toNat)))))


/-! ## Witness functions -/

/-- Pattern sources, capture channels and injection above the lane (R508, R509, R510, R511, R514, R515, R517, R518). A
GO that no reason refuses arms its source or channel for its frame, or the next; a refused one only raises WIT 08h
with the reason. STOP stops it, and a packet presented and not accepted is withdrawn. At T a source runs, or pauses
while its port is not UP, and resumes when it is. A bad entry puts its source in ERROR under WIT 04h; a good one whose
delay has passed is presented at its port as the region holds it, and waits. The oldest staged record is written at
HEAD, the rest of the region untouched, and LIMIT ends the channel; past the end without WRAP the channel is FULL
under WIT 02h, with it a PAD record fills the end and the record goes to the base. An act of a refused GO does not
begin (WIT 05h); one that runs by units is held with its count; the acts done once send once and count once; LAYER
000b ends a continuous act. -/
def Obligations.WitnessSourcesAndCaptures : Prop :=
  ∀ s : State,
    let d := s.dev
    (∀ (src : Src) (i : BitVec 3) (v : Word), let n := i.toNat
      let x := d.pat_ n
      let t0 := d.rd64 (patReg 0x10 n) % 2 ^ 48
      let live := x.st == .armed || x.st == .run || x.st == .paused
      let why := d.goRefusal (d.fld (patReg 4 n) 0 12) 5 (Machine.fld v 0 7) t0 live
      Reached s src (patReg 0 n) →
      (Machine.bit v 31 = true → Machine.bit v 30 = false →
        (why = none → Takes (.witPatGo src i v) s fun t => Kept s t ∧ t.dev = { d with regs := t.dev.regs, pats := t.dev.pats } ∧
          t.dev.pat_ n = { st := .armed, t := if t0 = 0 then d.fno + 1 else t0 } ∧ (∀ j, j ≠ n → t.dev.pat_ j = d.pat_ j) ∧
          t.dev.rd (patReg 0 n) = v &&& 0x00C0007F ∧ RegsBut s t [patReg 0 n]) ∧
        (∀ r, why = some r → Takes (.witPatGo src i v) s fun t => Kept s t ∧
          RaisedOn (d.wr (patReg 0 n) (v &&& 0x00C0007F)) t.dev 0x11 8 (r * 256 + 8 + n) 0)) ∧
      (Machine.bit v 31 = false → Machine.bit v 30 = true → Takes (.witPatStop src i v) s fun t => Kept s t ∧ RegsBut s t [patReg 0 n] ∧
        (live = true → t.dev = { d with regs := t.dev.regs, pats := t.dev.pats, pkts := t.dev.pkts } ∧
          t.dev.pkts = d.pkts.filter (fun k => ! (k.use == .pat n && k.st == .hold)) ∧
          t.dev.pat_ n = { x with st := .stopped, cur := none } ∧ ∀ j, j ≠ n → t.dev.pat_ j = d.pat_ j) ∧
        (live = false → RegsOnly s t))) ∧
    (∀ i : BitVec 3, let n := i.toNat
      let x := d.pat_ n
      let p := d.fld (patReg 0 n) 0 7
      let r := d.rt (d.fld (patReg 4 n) 0 12)
      let a := r.base + x.off
      let b := readBytes s.mem a 32
      let Others (t : State) : Prop := Kept s t ∧ ∀ j, j ≠ n → t.dev.pat_ j = d.pat_ j
      (x.st = .armed → x.t ≤ d.fno → Runs (.patStart i) s fun t => Others t ∧ t.dev = { d with pats := t.dev.pats } ∧
        t.dev.pat_ n = { x with st := if d.isUp p then .run else .paused, since := d.now }) ∧
      (x.st = .paused → d.isUp p = true → Runs (.patResume i) s fun t => Others t ∧ t.dev = { d with pats := t.dev.pats } ∧
        t.dev.pat_ n = { x with st := .run, since := d.now }) ∧
      (x.st = .run → x.cur = none → d.isUp p = true → d.badIn a (16 + leAt b 0 2) = [] → d.badIn a 16 = [] →
        (∀ why, entryBad b x.off r.size = some why → Runs (.patPresent i) s fun t => Others t ∧
          t.dev.pat_ n = { x with st := .error, reason := why } ∧ condWord 0x11 4 (why * 256 + n) ∈ t.dev.words ∧ t.dev.pkts = d.pkts) ∧
        (entryBad b x.off r.size = none → d.age x.since < leAt b 4 4 / 256 → Runs (.patPresent i) s fun t => Others t ∧
          t.dev = { d with pats := t.dev.pats } ∧ t.dev.pat_ n = x) ∧
        (entryBad b x.off r.size = none → leAt b 4 4 / 256 ≤ d.age x.since → d.bit (patReg 0 n) 22 = false →
          (d.reserve a (16 + leAt b 0 2)).isSome = true → (∀ k ∈ d.pkts, k.id < d.nextId) → Runs (.patPresent i) s fun t => Others t ∧
            t.dev.regs = d.regs ∧ t.dev.nextId = d.nextId + 1 ∧ (t.dev.pat_ n).cur = some d.nextId ∧ (t.dev.pat_ n).st = .run ∧
            ∃ k, t.dev.pkts = d.pkts ++ [k] ∧ k.id = d.nextId ∧ k.use = .pat n ∧ k.st = .hold ∧ k.conf = true ∧ k.tgts.map (·.port) = [some p] ∧
              k.pk.payload = (pktOf (readBytes s.mem (a + 16) (leAt b 0 2))).payload))) ∧
    (∀ (src : Src) (c : BitVec 3) (v : Word), let n := c.toNat
      let x := d.cap_ n
      let t0 := d.rd64 (capReg 0x10 n) % 2 ^ 48
      let live := x.st == .armed || x.st == .run
      let why := d.goRefusal (d.fld (capReg 4 n) 0 12) 4 (Machine.fld v 0 7) t0 live
      Reached s src (capReg 0 n) →
      (Machine.bit v 31 = true → Machine.bit v 30 = false →
        (why = none → Takes (.witCapGo src c v) s fun t => Kept s t ∧ t.dev = { d with regs := t.dev.regs, caps := t.dev.caps } ∧
          t.dev.cap_ n = { st := .armed, t := if t0 = 0 then d.fno + 1 else t0 } ∧ (∀ j, j ≠ n → t.dev.cap_ j = d.cap_ j) ∧
          t.dev.rd (capReg 0 n) = v &&& 0x03E7F07F ∧ t.dev.rd (capReg 0xC n) = 0 ∧ RegsBut s t [capReg 0 n, capReg 0xC n]) ∧
        (∀ r, why = some r → Takes (.witCapGo src c v) s fun t => Kept s t ∧
          RaisedOn (d.wr (capReg 0 n) (v &&& 0x03E7F07F)) t.dev 0x11 8 (r * 256 + n) 0)) ∧
      (Machine.bit v 31 = false → Machine.bit v 30 = true → live = true → Takes (.witCapStop src c v) s fun t => Kept s t ∧
        t.dev = { d with regs := t.dev.regs, caps := t.dev.caps } ∧ t.dev.cap_ n = { x with st := .stopped } ∧
        (∀ j, j ≠ n → t.dev.cap_ j = d.cap_ j) ∧ RegsBut s t [capReg 0 n])) ∧
    (∀ c : BitVec 3, let n := c.toNat
      let x := d.cap_ n
      let g := d.rt (d.fld (capReg 4 n) 0 12)
      let head := (d.rd (capReg 0xC n)).toNat
      let lim := (d.rd (capReg 0x18 n)).toNat
      let Others (t : State) : Prop := t.pending = s.pending ∧ t.nv = s.nv ∧ ∀ j, j ≠ n → t.dev.cap_ j = d.cap_ j
      (x.st = .armed → x.t ≤ d.fno → Runs (.capStart c) s fun t => Others t ∧ t.mem = s.mem ∧ t.dev = { d with caps := t.dev.caps } ∧
        t.dev.cap_ n = { x with st := .run }) ∧
      (∀ r rest, x.staged = r :: rest → (x.st = .run ∨ x.st = .stopped) →
        let u := r.length / 64
        let Stored (t : State) (h : Nat) : Prop := Others t ∧ t.dev.cap_ n = (if lim ≠ 0 ∧ lim ≤ leAt r 16 4 + 1 then { x with staged := [], st := .done }
            else { x with staged := rest }) ∧ t.dev.rd (capReg 0xC n) = BitVec.ofNat 32 (h + u) ∧
          t.dev.rd64 (capReg 0x20 n) = (d.rd64 (capReg 0x20 n) + 1) % 2 ^ 64 ∧ RegsBut s t [capReg 0xC n, capReg 0x20 n, capReg 0x24 n] ∧
          ∀ i e, r[i]? = some e → mapGet memDefault t.mem (g.base + 64 * h + i) = e
        (head + u ≤ g.size / 64 → (d.reserve (g.base + 64 * head) r.length).isSome = true → Runs (.captureWrite c) s fun t => Stored t head ∧
          MemBut s t (g.base + 64 * head) r.length) ∧
        (g.size / 64 < head + u → d.bit (capReg 0 n) 22 = false → Runs (.captureWrite c) s fun t => Others t ∧ t.mem = s.mem ∧
          t.dev.cap_ n = { x with st := .full, staged := [] } ∧ condWord 0x11 2 n ∈ t.dev.words ∧ RegsBut s t (condRegs 0x11 0)) ∧
        (g.size / 64 < head + u → d.bit (capReg 0 n) 22 = true → head ≤ g.size / 64 → (d.reserve g.base r.length).isSome = true →
          Runs (.captureWrite c) s fun t => Stored t 0 ∧ ∀ y, (y < g.base ∨ g.base + r.length ≤ y) →
            (y < g.base + 64 * head ∨ g.base + 64 * (g.size / 64) ≤ y) → mapGet memDefault t.mem y = mapGet memDefault s.mem y))) ∧
    (∀ (src : Src) (p : BitVec 7) (v : Word), let n := p.toNat
      let layer := Machine.fld v 24 3
      let mode := Machine.fld v 12 4
      let rep := Machine.fld v 16 8
      let param := Machine.fld v 0 12
      let cont := match mapGet none d.injs n with | some i => i.left.isNone | none => false
      let Others (t : State) : Prop := Kept s t ∧ ∀ q, q ≠ n → mapGet none t.dev.injs q = mapGet none d.injs q
      Reached s src (rp 0x11 0x110 n) →
      (Machine.bit v 31 = false → Takes (.witInjGo src p v) s fun t => Others t ∧ t.dev = { d with regs := t.dev.regs, injs := t.dev.injs } ∧
        RegsBut s t [rp 0x11 0x110 n] ∧ mapGet none t.dev.injs n = (if layer = 0 ∧ cont = true then none else mapGet none d.injs n)) ∧
      (Machine.bit v 31 = true →
        (∀ r, d.injRefusal n layer mode = some r → Takes (.witInjGo src p v) s fun t => Others t ∧ condWord 0x11 5 (r * 256 + n) ∈ t.dev.words ∧
          t.dev.ports = d.ports ∧ t.dev.out = d.out) ∧
        (d.injRefusal n layer mode = none →
          let Once (t : State) (o : Out) : Prop := Others t ∧ mapGet none t.dev.injs n = none ∧ t.dev.rd (rp 0x11 0x114 n) = 1 ∧ o ∈ t.dev.out
          let Port (t : State) (x : Port) : Prop := t.dev.port n = x ∧ ∀ q, q ≠ n → t.dev.port q = d.port q
          ((layer = 1 ∨ layer = 3 ∨ (layer = 2 ∧ mode ≤ 2) ∨ (layer = 4 ∧ mode = 1)) → Takes (.witInjGo src p v) s fun t => Others t ∧
            t.dev.rd (rp 0x11 0x114 n) = 0 ∧
            mapGet none t.dev.injs n = some { layer := layer, mode := mode, param := param, left := if rep = 0 then none else some rep }) ∧
          (layer = 2 → mode = 3 → Takes (.witInjGo src p v) s fun t => Once t (.verdBad n (BitVec.ofNat 12 param)) ∧
            t.dev.out.tail = d.out ∧ Port t { d.port n with badTags := BitVec.ofNat 12 param :: (d.port n).badTags }) ∧
          (layer = 4 → mode = 2 → Takes (.witInjGo src p v) s fun t => Once t (.req n (d.port n).ackRseq ((d.port n).reqId + 1)) ∧
            (t.dev.port n).reqOpen = true) ∧
          (layer = 4 → mode = 3 → Takes (.witInjGo src p v) s fun t => Once t (.req n (BitVec.ofNat 12 param) ((d.port n).reqId + 1)) ∧
            (t.dev.port n).reqOpen = true) ∧
          (layer = 4 → mode = 4 → Takes (.witInjGo src p v) s fun t => Once t (.start n ((d.port n).served.getD 0 + 1) []) ∧
            t.dev.out.tail = d.out ∧ Port t { d.port n with stream := (d.port n).stream ++ [.start ((d.port n).served.getD 0 + 1)] }))))


/-! ## Service and boundary scan -/

/-- PER_PORT_RESET, LED_REFRESH, LOCATE_HOST and the TAP instructions (R435, R471, R487, R488, R489, R520, R521). A
per-port reset of one valid port takes it DOWN where it was neither DOWN nor DISABLED, and each of its lanes not in
OFF or TEST begins ADAPT with its timeouts at 0; a port that is not valid is not touched. LED_REFRESH repeats the last
bits while Col is not READY; else, unless the LEDs are overridden, it writes each octet's code, and sends the bits the
codes light in this frame. GLB_LOCATE.HOST is written from the Obvo link alone. IDCODE shifts out 0946_49ADh below its
stepping; SAMPLE/PRELOAD fills the boundary register; BYPASS shifts a 0; EXTEST, EXTEST_PULSE, EXTEST_TRAIN, CLAMP and
HIGHZ take hold while CFG_LOCK is 0b and act as BYPASS otherwise; Test-Logic-Reset ends the hold. Without VDD_STBY the
TAP does nothing. -/
def Obligations.ServiceAndTheTestPort : Prop :=
  ∀ s : State,
    let d := s.dev
    (∀ (src : Src) (w : BitVec 2) (v : Word), Reached s src (ra 0 (0x50 + 4 * w.toNat)) →
      ((∀ i < 32, Machine.bit v i = true → d.pvalid (32 * w.toNat + i) = false) → Takes (.perPortReset src w v) s fun t => DevIs s t d) ∧
      (∀ i < 32, v.toNat = 2 ^ i → let p := 32 * w.toNat + i
        d.pvalid p = true → Takes (.perPortReset src w v) s fun t => Kept s t ∧
          ((d.port p).st ≠ .down → (d.port p).st ≠ .disabled → (t.dev.port p).st = .down) ∧
          ∀ l ∈ t.dev.lanesOf p, (t.dev.lane l).st ≠ .off → (t.dev.lane l).st ≠ .test → (t.dev.lane l).st = .adapt ∧ (t.dev.lane l).timeouts = 0)) ∧
    (let lit (code : Nat → Nat) : List Nat := (List.range 64).reverse.map fun o => ledLit (code o) d.fno
     (d.col.st ≠ .ready → Runs .ledRefresh s fun t => DevIs s t { d with out := .led d.ledLast :: d.out }) ∧
     (d.col.st = .ready → d.bit (ra 0 0x70) 0 = true → Runs .ledRefresh s fun t =>
       DevIs s t { d with ledLast := lit d.ledCode, out := .led (lit d.ledCode) :: d.out }) ∧
     (d.col.st = .ready → d.bit (ra 0 0x70) 0 = false → Runs .ledRefresh s fun t => Kept s t ∧
       t.dev = { d with regs := t.dev.regs, ledLast := lit d.octetCode, out := .led (lit d.octetCode) :: d.out } ∧
       RegsBut s t [ra 0 0x60, ra 0 0x64, ra 0 0x68, ra 0 0x6C] ∧ ∀ o < 64, t.dev.ledCode o = d.octetCode o)) ∧
    (∀ (src : Src) (v : Word), Reached s src (ra 0 0x74) →
      (src = .obvo → Takes (.locateHost src v) s fun t => RegsOnly s t ∧ RegsBut s t [ra 0 0x74] ∧
        t.dev.fld (ra 0 0x74) 0 2 = Machine.fld v 0 2 ∧ t.dev.fld (ra 0 0x74) 2 30 = d.fld (ra 0 0x74) 2 30) ∧
      (src ≠ .obvo → Takes (.locateHost src v) s fun t => DevIs s t d)) ∧
    (d.stby = true →
      Runs .idcode s (fun t => ∃ bits, DevIs s t { d with ir := .idcode, out := .tdo bits :: d.out } ∧ bits.length = 32 ∧
        ∀ i < 28, bits.getD i false = (0x094649AD : Nat).testBit i) ∧
      (∀ bits, Runs (.samplePreload bits) s fun t => DevIs s t { d with ir := .samplePreload, bsr := bits.take Config.bsrLen }) ∧
      Runs .bypass s (fun t => DevIs s t { d with ir := .bypass, out := .tdo [false] :: d.out }) ∧
      Runs .testLogicReset s (fun t => DevIs s t { d with ir := .idcode, tapHeld := false }) ∧
      ∀ e ∈ [(Instr.extest, TapIr.extest), (.extestPulse, .extestPulse), (.extestTrain, .extestTrain), (.clamp, .clamp), (.highz, .highz)],
        (d.col.cfgLock = false → Runs e.1 s fun t => DevIs s t { d with ir := e.2, tapHeld := true }) ∧
        (d.col.cfgLock = true → Runs e.1 s fun t => DevIs s t { d with ir := .bypass, out := .tdo [false] :: d.out })) ∧
    (d.stby = false → ∀ c ∈ [Instr.extest, .idcode, .extestPulse, .extestTrain, .clamp, .highz, .bypass, .testLogicReset],
      Runs c s fun t => DevIs s t d) ∧
    (d.stby = false → ∀ bits, Runs (.samplePreload bits) s fun t => DevIs s t d)
end

