-- ==== Sys2Proof/Laws/SMap.lean ====
section
/-! SUPPORT. The laws of canonical maps: a read after a write gives the value written, a write leaves every other key
alone, and a write keeps the canonical form. -/

namespace Sys2Proof.Machine

theorem mapGet_erase_ne {α : Type} (d : α) (m : List (Nat × α)) {k j : Nat} (h : j ≠ k) :
    mapGet d (mapErase m k) j = mapGet d m j := by
  induction m with
  | nil => rfl
  | cons e m ih =>
    obtain ⟨a, v⟩ := e
    simp only [mapErase]
    split
    · next hk => subst hk; simp [mapGet, h.symm, ih]
    · simp only [mapGet]; split <;> simp [ih]

theorem mapGet_put_self {α : Type} (d : α) (m : List (Nat × α)) (k : Nat) (v : α) :
    mapGet d (mapPut m k v) k = v := by
  induction m with
  | nil => simp [mapPut, mapGet]
  | cons e m ih =>
    obtain ⟨a, w⟩ := e
    simp only [mapPut]
    split
    · simp [mapGet]
    · split
      · simp [mapGet]
      · next h => simp [mapGet, h, ih]

theorem mapGet_put_ne {α : Type} (d : α) (m : List (Nat × α)) {k j : Nat} (v : α) (h : j ≠ k) :
    mapGet d (mapPut m k v) j = mapGet d m j := by
  induction m with
  | nil => simp [mapPut, mapGet, h.symm]
  | cons e m ih =>
    obtain ⟨a, w⟩ := e
    simp only [mapPut]
    split
    · simp [mapGet, h.symm]
    · split
      · next hk => subst hk; simp [mapGet, h.symm]
      · simp only [mapGet]; split <;> simp [ih]

theorem mapGet_erase_self {α : Type} (d : α) (m : List (Nat × α)) (k : Nat) :
    mapGet d (mapErase m k) k = d := by
  induction m with
  | nil => rfl
  | cons e m ih =>
    obtain ⟨a, v⟩ := e
    simp only [mapErase]
    split
    · exact ih
    · next hk => simp [mapGet, hk, ih]

/-- Reading another key after a write. -/
@[simp] theorem mapGet_set_ne {α : Type} [DecidableEq α] (d e : α) (m : List (Nat × α)) {k j : Nat} (v : α)
    (h : j ≠ k) : mapGet d (mapSet e m k v) j = mapGet d m j := by
  unfold mapSet; split
  · exact mapGet_erase_ne d m h
  · exact mapGet_put_ne d m v h

/-- Reading a key after writing it. -/
@[simp] theorem mapGet_set_self {α : Type} [DecidableEq α] (d : α) (m : List (Nat × α)) (k : Nat) (v : α) :
    mapGet d (mapSet d m k v) k = v := by
  unfold mapSet; split
  · next h => subst h; exact mapGet_erase_self _ m k
  · exact mapGet_put_self d m k v

/-- Reading after a write, either way. -/
theorem mapGet_set {α : Type} [DecidableEq α] (d : α) (m : List (Nat × α)) (k j : Nat) (v : α) :
    mapGet d (mapSet d m k v) j = if j = k then v else mapGet d m j := by
  split
  · next h => subst h; simp
  · next h => simp [h]

theorem risingFrom_mono {α : Type} {b c : Nat} (m : List (Nat × α)) (h : b ≤ c)
    (hr : risingFrom c m = true) : risingFrom b m = true := by
  cases m with
  | nil => rfl
  | cons e m =>
    simp only [risingFrom, Bool.and_eq_true, decide_eq_true_eq] at *
    exact ⟨by omega, hr.2⟩

theorem risingFrom_erase {α : Type} {b : Nat} (m : List (Nat × α)) (k : Nat)
    (hr : risingFrom b m = true) : risingFrom b (mapErase m k) = true := by
  induction m generalizing b with
  | nil => rfl
  | cons e m ih =>
    obtain ⟨a, v⟩ := e
    simp only [risingFrom, Bool.and_eq_true, decide_eq_true_eq] at hr
    simp only [mapErase]
    split
    · exact ih (risingFrom_mono m (by omega) hr.2)
    · simp [risingFrom, hr.1, ih hr.2]

theorem risingFrom_put {α : Type} {b : Nat} (m : List (Nat × α)) (k : Nat) (v : α) (hb : b ≤ k)
    (hr : risingFrom b m = true) : risingFrom b (mapPut m k v) = true := by
  induction m generalizing b with
  | nil => simp [mapPut, risingFrom, hb]
  | cons e m ih =>
    obtain ⟨a, w⟩ := e
    simp only [risingFrom, Bool.and_eq_true, decide_eq_true_eq] at hr
    simp only [mapPut]
    split
    · simp only [risingFrom, Bool.and_eq_true, decide_eq_true_eq]; exact ⟨hb, by omega, hr.2⟩
    · split
      · next hk => subst hk; simp [risingFrom, hr.1, hr.2]
      · simp only [risingFrom, Bool.and_eq_true, decide_eq_true_eq]; exact ⟨hr.1, ih (by omega) hr.2⟩

theorem all_erase {α : Type} (p : Nat × α → Bool) (m : List (Nat × α)) (k : Nat)
    (h : m.all p = true) : (mapErase m k).all p = true := by
  induction m with
  | nil => rfl
  | cons e m ih =>
    obtain ⟨a, v⟩ := e
    simp only [List.all_cons, Bool.and_eq_true] at h
    simp only [mapErase]
    split
    · exact ih h.2
    · simp [h.1, ih h.2]

theorem all_put {α : Type} (p : Nat × α → Bool) (m : List (Nat × α)) (k : Nat) (v : α)
    (hv : p (k, v) = true) (h : m.all p = true) : (mapPut m k v).all p = true := by
  induction m with
  | nil => simp [mapPut, hv]
  | cons e m ih =>
    obtain ⟨a, w⟩ := e
    simp only [List.all_cons, Bool.and_eq_true] at h
    simp only [mapPut]
    split
    · simp [hv, h.1, h.2]
    · split
      · simp [hv, h.2]
      · simp [h.1, ih h.2]

/-- A write keeps the canonical form. -/
theorem mapWf_set {α : Type} [DecidableEq α] (d : α) (m : List (Nat × α)) (k : Nat) (v : α)
    (h : mapWf d m = true) : mapWf d (mapSet d m k v) = true := by
  simp only [mapWf, Bool.and_eq_true] at *
  unfold mapSet; split
  · exact ⟨risingFrom_erase m k h.1, all_erase _ m k h.2⟩
  · next hv => exact ⟨risingFrom_put m k v (Nat.zero_le k) h.1, all_put _ m k v (by simpa using hv) h.2⟩

end Sys2Proof.Machine
end

