-- ==== Sys2Proof/Laws/Memory.lean ====
section
/-! SUPPORT. The laws of Basin's bytes (R332): reads after writes, and that every operation that changes them keeps the canonical
form. -/

namespace Sys2Proof.Machine

@[simp] theorem readByte_writeByte_self (m : List Host.Cell) (a : Nat) (v : Byte) : readByte (writeByte m a v) a = v := by
  simp [readByte, writeByte]

theorem readByte_writeByte_ne (m : List Host.Cell) {a x : Nat} (v : Byte) (h : x ≠ a) : readByte (writeByte m a v) x = readByte m x := by
  simp [readByte, writeByte, h]

/-- A write leaves every byte outside it alone. -/
theorem readByte_writeBytes_out (m : List Host.Cell) (a : Nat) (bs : List Byte) (x : Nat) (h : x < a ∨ a + bs.length ≤ x) :
    readByte (writeBytes m a bs) x = readByte m x := by
  induction bs generalizing m a with
  | nil => rfl
  | cons b bs ih =>
    rw [List.length_cons] at h
    rw [writeBytes, ih _ _ (by omega), readByte_writeByte_ne _ _ (by omega)]

/-- A byte written is the byte read. -/
theorem readByte_writeBytes_in (m : List Host.Cell) (a : Nat) (bs : List Byte) (i : Nat) (b : Byte) (h : bs[i]? = some b) :
    readByte (writeBytes m a bs) (a + i) = b := by
  induction bs generalizing m a i with
  | nil => simp at h
  | cons c bs ih =>
    cases i with
    | zero =>
      obtain rfl : c = b := by simpa using h
      rw [writeBytes, readByte_writeBytes_out _ _ _ _ (by omega)]
      simp
    | succ i =>
      rw [writeBytes, show a + (i + 1) = a + 1 + i by omega]
      exact ih _ _ _ (by simpa using h)

theorem writeByte_wf (m : List Host.Cell) (a : Nat) (v : Byte) (h : Memory.wf m = true) : Memory.wf (writeByte m a v) = true :=
  mapWf_set memDefault m a v h

theorem writeBytes_wf (m : List Host.Cell) (a : Nat) (bs : List Byte) (h : Memory.wf m = true) : Memory.wf (writeBytes m a bs) = true := by
  induction bs generalizing m a with
  | nil => exact h
  | cons b bs ih => exact ih _ _ (writeByte_wf m a b h)

/-- Nothing listed is in canonical form: what reset and a data-path reset after a stack FAULT leave. -/
theorem empty_wf : Memory.wf [] = true := rfl

theorem reset_wf : MemOk State.reset := rfl

/-- Writes in a row. -/
theorem foldl_writeBytes_wf (l : List Pkt) (f : Pkt → Nat) (g : Pkt → List Byte) (m : List Host.Cell) (h : Memory.wf m = true) :
    Memory.wf (l.foldl (fun m k => writeBytes m (f k) (g k)) m) = true := by
  induction l generalizing m with
  | nil => exact h
  | cons k l ih => exact ih _ (writeBytes_wf _ _ _ h)

/-- A round of a Basin engine (R346, R349). -/
theorem basRound_memOk (s : State) (h : MemOk s) : MemOk (basRound s) := foldl_writeBytes_wf _ _ _ _ h

/-- A segment or an atomic at its grant (R339, R350). -/
theorem segGrant_memOk (s : State) (q : Req) (h : MemOk s) : MemOk (segGrant s q) := by
  unfold segGrant MemOk
  dsimp only
  split_ifs <;> (try split) <;> (try split) <;> first | exact h | exact writeBytes_wf _ _ _ h

/-- A DMA_WR as it takes effect (R405). -/
theorem dmaWrite_memOk (s : State) (tgt : Byte) (off : Nat) (data : List Byte) (h : MemOk s) : MemOk (s.dmaWrite tgt off data).2 := by
  unfold State.dmaWrite MemOk
  dsimp only
  split_ifs <;> (try split) <;> first | exact h | exact writeBytes_wf _ _ _ h

/-- A record of a capture channel (R514). -/
theorem captureWrite_memOk (s : State) (c : Nat) (h : MemOk s) : MemOk (s.captureWrite c) := by
  unfold State.captureWrite MemOk
  dsimp only
  split
  · exact h
  · split_ifs <;> (try split) <;> first | exact h | exact writeBytes_wf _ _ _ (by first | exact h | exact writeBytes_wf _ _ _ h)

/-- The start of a data-path reset (R469, R358). -/
theorem dpBegin_memOk (s : State) (cause : Nat) (h : MemOk s) : MemOk (s.dpBegin cause) := by
  unfold State.dpBegin MemOk
  dsimp only
  split_ifs
  · rfl
  · exact h

/-- A reset of the standby domain. -/
theorem wipe_memOk (s : State) (low : Bool) : MemOk (s.wipe low) := rfl

end Sys2Proof.Machine
end

