-- ==== Sys2Proof/Laws/State.lean ====
section
/-! SUPPORT. The laws of updates of the state: one lemma for each field and update, so that no proof unfolds a record update. -/

namespace Sys2Proof.Machine

@[simp] theorem Dev.wr_regs (d : Dev) (a : Nat) (v : Word) : (d.wr a v).regs = mapSet (regRst a) d.regs a v := rfl
@[simp] theorem Dev.wr_frm (d : Dev) (a : Nat) (v : Word) : (d.wr a v).frm = d.frm := rfl
@[simp] theorem Dev.wr_raised (d : Dev) (a : Nat) (v : Word) : (d.wr a v).raised = d.raised := rfl
@[simp] theorem Dev.wr_words (d : Dev) (a : Nat) (v : Word) : (d.wr a v).words = d.words := rfl
@[simp] theorem Dev.wr_latches (d : Dev) (a : Nat) (v : Word) : (d.wr a v).latches = d.latches := rfl
@[simp] theorem Dev.wr_dies (d : Dev) (a : Nat) (v : Word) : (d.wr a v).dies = d.dies := rfl
@[simp] theorem Dev.wr_hbms (d : Dev) (a : Nat) (v : Word) : (d.wr a v).hbms = d.hbms := rfl
@[simp] theorem Dev.wr_bridges (d : Dev) (a : Nat) (v : Word) : (d.wr a v).bridges = d.bridges := rfl
@[simp] theorem Dev.wr_lanes (d : Dev) (a : Nat) (v : Word) : (d.wr a v).lanes = d.lanes := rfl
@[simp] theorem Dev.wr_ports (d : Dev) (a : Nat) (v : Word) : (d.wr a v).ports = d.ports := rfl
@[simp] theorem Dev.wr_pkts (d : Dev) (a : Nat) (v : Word) : (d.wr a v).pkts = d.pkts := rfl
@[simp] theorem Dev.wr_nextId (d : Dev) (a : Nat) (v : Word) : (d.wr a v).nextId = d.nextId := rfl
@[simp] theorem Dev.wr_queue (d : Dev) (a : Nat) (v : Word) : (d.wr a v).queue = d.queue := rfl
@[simp] theorem Dev.wr_bufs (d : Dev) (a : Nat) (v : Word) : (d.wr a v).bufs = d.bufs := rfl
@[simp] theorem Dev.wr_quarBufs (d : Dev) (a : Nat) (v : Word) : (d.wr a v).quarBufs = d.quarBufs := rfl
@[simp] theorem Dev.wr_bud (d : Dev) (a : Nat) (v : Word) : (d.wr a v).bud = d.bud := rfl
@[simp] theorem Dev.wr_corr (d : Dev) (a : Nat) (v : Word) : (d.wr a v).corr = d.corr := rfl
@[simp] theorem Dev.wr_stages (d : Dev) (a : Nat) (v : Word) : (d.wr a v).stages = d.stages := rfl
@[simp] theorem Dev.wr_trks (d : Dev) (a : Nat) (v : Word) : (d.wr a v).trks = d.trks := rfl
@[simp] theorem Dev.wr_samp (d : Dev) (a : Nat) (v : Word) : (d.wr a v).samp = d.samp := rfl
@[simp] theorem Dev.wr_samples (d : Dev) (a : Nat) (v : Word) : (d.wr a v).samples = d.samples := rfl
@[simp] theorem Dev.wr_coordV (d : Dev) (a : Nat) (v : Word) : (d.wr a v).coordV = d.coordV := rfl
@[simp] theorem Dev.wr_coord (d : Dev) (a : Nat) (v : Word) : (d.wr a v).coord = d.coord := rfl
@[simp] theorem Dev.wr_ract (d : Dev) (a : Nat) (v : Word) : (d.wr a v).ract = d.ract := rfl
@[simp] theorem Dev.wr_ovl (d : Dev) (a : Nat) (v : Word) : (d.wr a v).ovl = d.ovl := rfl
@[simp] theorem Dev.wr_lfsr (d : Dev) (a : Nat) (v : Word) : (d.wr a v).lfsr = d.lfsr := rfl
@[simp] theorem Dev.wr_inj (d : Dev) (a : Nat) (v : Word) : (d.wr a v).inj = d.inj := rfl
@[simp] theorem Dev.wr_injAll (d : Dev) (a : Nat) (v : Word) : (d.wr a v).injAll = d.injAll := rfl
@[simp] theorem Dev.wr_oxbow (d : Dev) (a : Nat) (v : Word) : (d.wr a v).oxbow = d.oxbow := rfl
@[simp] theorem Dev.wr_reps (d : Dev) (a : Nat) (v : Word) : (d.wr a v).reps = d.reps := rfl
@[simp] theorem Dev.wr_chunks (d : Dev) (a : Nat) (v : Word) : (d.wr a v).chunks = d.chunks := rfl
@[simp] theorem Dev.wr_launches (d : Dev) (a : Nat) (v : Word) : (d.wr a v).launches = d.launches := rfl
@[simp] theorem Dev.wr_units (d : Dev) (a : Nat) (v : Word) : (d.wr a v).units = d.units := rfl
@[simp] theorem Dev.wr_rounds (d : Dev) (a : Nat) (v : Word) : (d.wr a v).rounds = d.rounds := rfl
@[simp] theorem Dev.wr_xcount (d : Dev) (a : Nat) (v : Word) : (d.wr a v).xcount = d.xcount := rfl
@[simp] theorem Dev.wr_xwin (d : Dev) (a : Nat) (v : Word) : (d.wr a v).xwin = d.xwin := rfl
@[simp] theorem Dev.wr_pend (d : Dev) (a : Nat) (v : Word) : (d.wr a v).pend = d.pend := rfl
@[simp] theorem Dev.wr_reqs (d : Dev) (a : Nat) (v : Word) : (d.wr a v).reqs = d.reqs := rfl
@[simp] theorem Dev.wr_stackU (d : Dev) (a : Nat) (v : Word) : (d.wr a v).stackU = d.stackU := rfl
@[simp] theorem Dev.wr_bad (d : Dev) (a : Nat) (v : Word) : (d.wr a v).bad = d.bad := rfl
@[simp] theorem Dev.wr_weak (d : Dev) (a : Nat) (v : Word) : (d.wr a v).weak = d.weak := rfl
@[simp] theorem Dev.wr_dueRows (d : Dev) (a : Nat) (v : Word) : (d.wr a v).dueRows = d.dueRows := rfl
@[simp] theorem Dev.wr_plat (d : Dev) (a : Nat) (v : Word) : (d.wr a v).plat = d.plat := rfl
@[simp] theorem Dev.wr_inputs (d : Dev) (a : Nat) (v : Word) : (d.wr a v).inputs = d.inputs := rfl
@[simp] theorem Dev.wr_level1 (d : Dev) (a : Nat) (v : Word) : (d.wr a v).level1 = d.level1 := rfl
@[simp] theorem Dev.wr_obvo (d : Dev) (a : Nat) (v : Word) : (d.wr a v).obvo = d.obvo := rfl
@[simp] theorem Dev.wr_col (d : Dev) (a : Nat) (v : Word) : (d.wr a v).col = d.col := rfl
@[simp] theorem Dev.wr_pwr (d : Dev) (a : Nat) (v : Word) : (d.wr a v).pwr = d.pwr := rfl
@[simp] theorem Dev.wr_inService (d : Dev) (a : Nat) (v : Word) : (d.wr a v).inService = d.inService := rfl
@[simp] theorem Dev.wr_dpBusy (d : Dev) (a : Nat) (v : Word) : (d.wr a v).dpBusy = d.dpBusy := rfl
@[simp] theorem Dev.wr_dpDue (d : Dev) (a : Nat) (v : Word) : (d.wr a v).dpDue = d.dpDue := rfl
@[simp] theorem Dev.wr_dpAt (d : Dev) (a : Nat) (v : Word) : (d.wr a v).dpAt = d.dpAt := rfl
@[simp] theorem Dev.wr_stackLost (d : Dev) (a : Nat) (v : Word) : (d.wr a v).stackLost = d.stackLost := rfl
@[simp] theorem Dev.wr_stby (d : Dev) (a : Nat) (v : Word) : (d.wr a v).stby = d.stby := rfl
@[simp] theorem Dev.wr_resetLow (d : Dev) (a : Nat) (v : Word) : (d.wr a v).resetLow = d.resetLow := rfl
@[simp] theorem Dev.wr_coldHeld (d : Dev) (a : Nat) (v : Word) : (d.wr a v).coldHeld = d.coldHeld := rfl
@[simp] theorem Dev.wr_rails (d : Dev) (a : Nat) (v : Word) : (d.wr a v).rails = d.rails := rfl
@[simp] theorem Dev.wr_straps (d : Dev) (a : Nat) (v : Word) : (d.wr a v).straps = d.straps := rfl
@[simp] theorem Dev.wr_evDiscarded (d : Dev) (a : Nat) (v : Word) : (d.wr a v).evDiscarded = d.evDiscarded := rfl
@[simp] theorem Dev.wr_cntServed (d : Dev) (a : Nat) (v : Word) : (d.wr a v).cntServed = d.cntServed := rfl
@[simp] theorem Dev.wr_bwin (d : Dev) (a : Nat) (v : Word) : (d.wr a v).bwin = d.bwin := rfl
@[simp] theorem Dev.wr_bwWin (d : Dev) (a : Nat) (v : Word) : (d.wr a v).bwWin = d.bwWin := rfl
@[simp] theorem Dev.wr_bwAt (d : Dev) (a : Nat) (v : Word) : (d.wr a v).bwAt = d.bwAt := rfl
@[simp] theorem Dev.wr_snapDue (d : Dev) (a : Nat) (v : Word) : (d.wr a v).snapDue = d.snapDue := rfl
@[simp] theorem Dev.wr_wmarkDue (d : Dev) (a : Nat) (v : Word) : (d.wr a v).wmarkDue = d.wmarkDue := rfl
@[simp] theorem Dev.wr_ledLast (d : Dev) (a : Nat) (v : Word) : (d.wr a v).ledLast = d.ledLast := rfl
@[simp] theorem Dev.wr_ir (d : Dev) (a : Nat) (v : Word) : (d.wr a v).ir = d.ir := rfl
@[simp] theorem Dev.wr_bsr (d : Dev) (a : Nat) (v : Word) : (d.wr a v).bsr = d.bsr := rfl
@[simp] theorem Dev.wr_tapHeld (d : Dev) (a : Nat) (v : Word) : (d.wr a v).tapHeld = d.tapHeld := rfl
@[simp] theorem Dev.wr_caps (d : Dev) (a : Nat) (v : Word) : (d.wr a v).caps = d.caps := rfl
@[simp] theorem Dev.wr_pats (d : Dev) (a : Nat) (v : Word) : (d.wr a v).pats = d.pats := rfl
@[simp] theorem Dev.wr_injs (d : Dev) (a : Nat) (v : Word) : (d.wr a v).injs = d.injs := rfl
@[simp] theorem Dev.wr_clkDead (d : Dev) (a : Nat) (v : Word) : (d.wr a v).clkDead = d.clkDead := rfl
@[simp] theorem Dev.wr_lost (d : Dev) (a : Nat) (v : Word) : (d.wr a v).lost = d.lost := rfl
@[simp] theorem Dev.wr_draws (d : Dev) (a : Nat) (v : Word) : (d.wr a v).draws = d.draws := rfl
@[simp] theorem Dev.wr_out (d : Dev) (a : Nat) (v : Word) : (d.wr a v).out = d.out := rfl

@[simp] theorem Dev.setLane_regs (d : Dev) (l : Nat) (v : Lane) : (d.setLane l v).regs = d.regs := rfl
@[simp] theorem Dev.setLane_frm (d : Dev) (l : Nat) (v : Lane) : (d.setLane l v).frm = d.frm := rfl
@[simp] theorem Dev.setLane_raised (d : Dev) (l : Nat) (v : Lane) : (d.setLane l v).raised = d.raised := rfl
@[simp] theorem Dev.setLane_words (d : Dev) (l : Nat) (v : Lane) : (d.setLane l v).words = d.words := rfl
@[simp] theorem Dev.setLane_latches (d : Dev) (l : Nat) (v : Lane) : (d.setLane l v).latches = d.latches := rfl
@[simp] theorem Dev.setLane_dies (d : Dev) (l : Nat) (v : Lane) : (d.setLane l v).dies = d.dies := rfl
@[simp] theorem Dev.setLane_hbms (d : Dev) (l : Nat) (v : Lane) : (d.setLane l v).hbms = d.hbms := rfl
@[simp] theorem Dev.setLane_bridges (d : Dev) (l : Nat) (v : Lane) : (d.setLane l v).bridges = d.bridges := rfl
@[simp] theorem Dev.setLane_lanes (d : Dev) (l : Nat) (v : Lane) : (d.setLane l v).lanes = mapSet {} d.lanes l v := rfl
@[simp] theorem Dev.setLane_ports (d : Dev) (l : Nat) (v : Lane) : (d.setLane l v).ports = d.ports := rfl
@[simp] theorem Dev.setLane_pkts (d : Dev) (l : Nat) (v : Lane) : (d.setLane l v).pkts = d.pkts := rfl
@[simp] theorem Dev.setLane_nextId (d : Dev) (l : Nat) (v : Lane) : (d.setLane l v).nextId = d.nextId := rfl
@[simp] theorem Dev.setLane_queue (d : Dev) (l : Nat) (v : Lane) : (d.setLane l v).queue = d.queue := rfl
@[simp] theorem Dev.setLane_bufs (d : Dev) (l : Nat) (v : Lane) : (d.setLane l v).bufs = d.bufs := rfl
@[simp] theorem Dev.setLane_quarBufs (d : Dev) (l : Nat) (v : Lane) : (d.setLane l v).quarBufs = d.quarBufs := rfl
@[simp] theorem Dev.setLane_bud (d : Dev) (l : Nat) (v : Lane) : (d.setLane l v).bud = d.bud := rfl
@[simp] theorem Dev.setLane_corr (d : Dev) (l : Nat) (v : Lane) : (d.setLane l v).corr = d.corr := rfl
@[simp] theorem Dev.setLane_stages (d : Dev) (l : Nat) (v : Lane) : (d.setLane l v).stages = d.stages := rfl
@[simp] theorem Dev.setLane_trks (d : Dev) (l : Nat) (v : Lane) : (d.setLane l v).trks = d.trks := rfl
@[simp] theorem Dev.setLane_samp (d : Dev) (l : Nat) (v : Lane) : (d.setLane l v).samp = d.samp := rfl
@[simp] theorem Dev.setLane_samples (d : Dev) (l : Nat) (v : Lane) : (d.setLane l v).samples = d.samples := rfl
@[simp] theorem Dev.setLane_coordV (d : Dev) (l : Nat) (v : Lane) : (d.setLane l v).coordV = d.coordV := rfl
@[simp] theorem Dev.setLane_coord (d : Dev) (l : Nat) (v : Lane) : (d.setLane l v).coord = d.coord := rfl
@[simp] theorem Dev.setLane_ract (d : Dev) (l : Nat) (v : Lane) : (d.setLane l v).ract = d.ract := rfl
@[simp] theorem Dev.setLane_ovl (d : Dev) (l : Nat) (v : Lane) : (d.setLane l v).ovl = d.ovl := rfl
@[simp] theorem Dev.setLane_lfsr (d : Dev) (l : Nat) (v : Lane) : (d.setLane l v).lfsr = d.lfsr := rfl
@[simp] theorem Dev.setLane_inj (d : Dev) (l : Nat) (v : Lane) : (d.setLane l v).inj = d.inj := rfl
@[simp] theorem Dev.setLane_injAll (d : Dev) (l : Nat) (v : Lane) : (d.setLane l v).injAll = d.injAll := rfl
@[simp] theorem Dev.setLane_oxbow (d : Dev) (l : Nat) (v : Lane) : (d.setLane l v).oxbow = d.oxbow := rfl
@[simp] theorem Dev.setLane_reps (d : Dev) (l : Nat) (v : Lane) : (d.setLane l v).reps = d.reps := rfl
@[simp] theorem Dev.setLane_chunks (d : Dev) (l : Nat) (v : Lane) : (d.setLane l v).chunks = d.chunks := rfl
@[simp] theorem Dev.setLane_launches (d : Dev) (l : Nat) (v : Lane) : (d.setLane l v).launches = d.launches := rfl
@[simp] theorem Dev.setLane_units (d : Dev) (l : Nat) (v : Lane) : (d.setLane l v).units = d.units := rfl
@[simp] theorem Dev.setLane_rounds (d : Dev) (l : Nat) (v : Lane) : (d.setLane l v).rounds = d.rounds := rfl
@[simp] theorem Dev.setLane_xcount (d : Dev) (l : Nat) (v : Lane) : (d.setLane l v).xcount = d.xcount := rfl
@[simp] theorem Dev.setLane_xwin (d : Dev) (l : Nat) (v : Lane) : (d.setLane l v).xwin = d.xwin := rfl
@[simp] theorem Dev.setLane_pend (d : Dev) (l : Nat) (v : Lane) : (d.setLane l v).pend = d.pend := rfl
@[simp] theorem Dev.setLane_reqs (d : Dev) (l : Nat) (v : Lane) : (d.setLane l v).reqs = d.reqs := rfl
@[simp] theorem Dev.setLane_stackU (d : Dev) (l : Nat) (v : Lane) : (d.setLane l v).stackU = d.stackU := rfl
@[simp] theorem Dev.setLane_bad (d : Dev) (l : Nat) (v : Lane) : (d.setLane l v).bad = d.bad := rfl
@[simp] theorem Dev.setLane_weak (d : Dev) (l : Nat) (v : Lane) : (d.setLane l v).weak = d.weak := rfl
@[simp] theorem Dev.setLane_dueRows (d : Dev) (l : Nat) (v : Lane) : (d.setLane l v).dueRows = d.dueRows := rfl
@[simp] theorem Dev.setLane_plat (d : Dev) (l : Nat) (v : Lane) : (d.setLane l v).plat = d.plat := rfl
@[simp] theorem Dev.setLane_inputs (d : Dev) (l : Nat) (v : Lane) : (d.setLane l v).inputs = d.inputs := rfl
@[simp] theorem Dev.setLane_level1 (d : Dev) (l : Nat) (v : Lane) : (d.setLane l v).level1 = d.level1 := rfl
@[simp] theorem Dev.setLane_obvo (d : Dev) (l : Nat) (v : Lane) : (d.setLane l v).obvo = d.obvo := rfl
@[simp] theorem Dev.setLane_col (d : Dev) (l : Nat) (v : Lane) : (d.setLane l v).col = d.col := rfl
@[simp] theorem Dev.setLane_pwr (d : Dev) (l : Nat) (v : Lane) : (d.setLane l v).pwr = d.pwr := rfl
@[simp] theorem Dev.setLane_inService (d : Dev) (l : Nat) (v : Lane) : (d.setLane l v).inService = d.inService := rfl
@[simp] theorem Dev.setLane_dpBusy (d : Dev) (l : Nat) (v : Lane) : (d.setLane l v).dpBusy = d.dpBusy := rfl
@[simp] theorem Dev.setLane_dpDue (d : Dev) (l : Nat) (v : Lane) : (d.setLane l v).dpDue = d.dpDue := rfl
@[simp] theorem Dev.setLane_dpAt (d : Dev) (l : Nat) (v : Lane) : (d.setLane l v).dpAt = d.dpAt := rfl
@[simp] theorem Dev.setLane_stackLost (d : Dev) (l : Nat) (v : Lane) : (d.setLane l v).stackLost = d.stackLost := rfl
@[simp] theorem Dev.setLane_stby (d : Dev) (l : Nat) (v : Lane) : (d.setLane l v).stby = d.stby := rfl
@[simp] theorem Dev.setLane_resetLow (d : Dev) (l : Nat) (v : Lane) : (d.setLane l v).resetLow = d.resetLow := rfl
@[simp] theorem Dev.setLane_coldHeld (d : Dev) (l : Nat) (v : Lane) : (d.setLane l v).coldHeld = d.coldHeld := rfl
@[simp] theorem Dev.setLane_rails (d : Dev) (l : Nat) (v : Lane) : (d.setLane l v).rails = d.rails := rfl
@[simp] theorem Dev.setLane_straps (d : Dev) (l : Nat) (v : Lane) : (d.setLane l v).straps = d.straps := rfl
@[simp] theorem Dev.setLane_evDiscarded (d : Dev) (l : Nat) (v : Lane) : (d.setLane l v).evDiscarded = d.evDiscarded := rfl
@[simp] theorem Dev.setLane_cntServed (d : Dev) (l : Nat) (v : Lane) : (d.setLane l v).cntServed = d.cntServed := rfl
@[simp] theorem Dev.setLane_bwin (d : Dev) (l : Nat) (v : Lane) : (d.setLane l v).bwin = d.bwin := rfl
@[simp] theorem Dev.setLane_bwWin (d : Dev) (l : Nat) (v : Lane) : (d.setLane l v).bwWin = d.bwWin := rfl
@[simp] theorem Dev.setLane_bwAt (d : Dev) (l : Nat) (v : Lane) : (d.setLane l v).bwAt = d.bwAt := rfl
@[simp] theorem Dev.setLane_snapDue (d : Dev) (l : Nat) (v : Lane) : (d.setLane l v).snapDue = d.snapDue := rfl
@[simp] theorem Dev.setLane_wmarkDue (d : Dev) (l : Nat) (v : Lane) : (d.setLane l v).wmarkDue = d.wmarkDue := rfl
@[simp] theorem Dev.setLane_ledLast (d : Dev) (l : Nat) (v : Lane) : (d.setLane l v).ledLast = d.ledLast := rfl
@[simp] theorem Dev.setLane_ir (d : Dev) (l : Nat) (v : Lane) : (d.setLane l v).ir = d.ir := rfl
@[simp] theorem Dev.setLane_bsr (d : Dev) (l : Nat) (v : Lane) : (d.setLane l v).bsr = d.bsr := rfl
@[simp] theorem Dev.setLane_tapHeld (d : Dev) (l : Nat) (v : Lane) : (d.setLane l v).tapHeld = d.tapHeld := rfl
@[simp] theorem Dev.setLane_caps (d : Dev) (l : Nat) (v : Lane) : (d.setLane l v).caps = d.caps := rfl
@[simp] theorem Dev.setLane_pats (d : Dev) (l : Nat) (v : Lane) : (d.setLane l v).pats = d.pats := rfl
@[simp] theorem Dev.setLane_injs (d : Dev) (l : Nat) (v : Lane) : (d.setLane l v).injs = d.injs := rfl
@[simp] theorem Dev.setLane_clkDead (d : Dev) (l : Nat) (v : Lane) : (d.setLane l v).clkDead = d.clkDead := rfl
@[simp] theorem Dev.setLane_lost (d : Dev) (l : Nat) (v : Lane) : (d.setLane l v).lost = d.lost := rfl
@[simp] theorem Dev.setLane_draws (d : Dev) (l : Nat) (v : Lane) : (d.setLane l v).draws = d.draws := rfl
@[simp] theorem Dev.setLane_out (d : Dev) (l : Nat) (v : Lane) : (d.setLane l v).out = d.out := rfl

@[simp] theorem Dev.setPort_regs (d : Dev) (p : Nat) (v : Port) : (d.setPort p v).regs = d.regs := rfl
@[simp] theorem Dev.setPort_frm (d : Dev) (p : Nat) (v : Port) : (d.setPort p v).frm = d.frm := rfl
@[simp] theorem Dev.setPort_raised (d : Dev) (p : Nat) (v : Port) : (d.setPort p v).raised = d.raised := rfl
@[simp] theorem Dev.setPort_words (d : Dev) (p : Nat) (v : Port) : (d.setPort p v).words = d.words := rfl
@[simp] theorem Dev.setPort_latches (d : Dev) (p : Nat) (v : Port) : (d.setPort p v).latches = d.latches := rfl
@[simp] theorem Dev.setPort_dies (d : Dev) (p : Nat) (v : Port) : (d.setPort p v).dies = d.dies := rfl
@[simp] theorem Dev.setPort_hbms (d : Dev) (p : Nat) (v : Port) : (d.setPort p v).hbms = d.hbms := rfl
@[simp] theorem Dev.setPort_bridges (d : Dev) (p : Nat) (v : Port) : (d.setPort p v).bridges = d.bridges := rfl
@[simp] theorem Dev.setPort_lanes (d : Dev) (p : Nat) (v : Port) : (d.setPort p v).lanes = d.lanes := rfl
@[simp] theorem Dev.setPort_ports (d : Dev) (p : Nat) (v : Port) : (d.setPort p v).ports = mapSet {} d.ports p v := rfl
@[simp] theorem Dev.setPort_pkts (d : Dev) (p : Nat) (v : Port) : (d.setPort p v).pkts = d.pkts := rfl
@[simp] theorem Dev.setPort_nextId (d : Dev) (p : Nat) (v : Port) : (d.setPort p v).nextId = d.nextId := rfl
@[simp] theorem Dev.setPort_queue (d : Dev) (p : Nat) (v : Port) : (d.setPort p v).queue = d.queue := rfl
@[simp] theorem Dev.setPort_bufs (d : Dev) (p : Nat) (v : Port) : (d.setPort p v).bufs = d.bufs := rfl
@[simp] theorem Dev.setPort_quarBufs (d : Dev) (p : Nat) (v : Port) : (d.setPort p v).quarBufs = d.quarBufs := rfl
@[simp] theorem Dev.setPort_bud (d : Dev) (p : Nat) (v : Port) : (d.setPort p v).bud = d.bud := rfl
@[simp] theorem Dev.setPort_corr (d : Dev) (p : Nat) (v : Port) : (d.setPort p v).corr = d.corr := rfl
@[simp] theorem Dev.setPort_stages (d : Dev) (p : Nat) (v : Port) : (d.setPort p v).stages = d.stages := rfl
@[simp] theorem Dev.setPort_trks (d : Dev) (p : Nat) (v : Port) : (d.setPort p v).trks = d.trks := rfl
@[simp] theorem Dev.setPort_samp (d : Dev) (p : Nat) (v : Port) : (d.setPort p v).samp = d.samp := rfl
@[simp] theorem Dev.setPort_samples (d : Dev) (p : Nat) (v : Port) : (d.setPort p v).samples = d.samples := rfl
@[simp] theorem Dev.setPort_coordV (d : Dev) (p : Nat) (v : Port) : (d.setPort p v).coordV = d.coordV := rfl
@[simp] theorem Dev.setPort_coord (d : Dev) (p : Nat) (v : Port) : (d.setPort p v).coord = d.coord := rfl
@[simp] theorem Dev.setPort_ract (d : Dev) (p : Nat) (v : Port) : (d.setPort p v).ract = d.ract := rfl
@[simp] theorem Dev.setPort_ovl (d : Dev) (p : Nat) (v : Port) : (d.setPort p v).ovl = d.ovl := rfl
@[simp] theorem Dev.setPort_lfsr (d : Dev) (p : Nat) (v : Port) : (d.setPort p v).lfsr = d.lfsr := rfl
@[simp] theorem Dev.setPort_inj (d : Dev) (p : Nat) (v : Port) : (d.setPort p v).inj = d.inj := rfl
@[simp] theorem Dev.setPort_injAll (d : Dev) (p : Nat) (v : Port) : (d.setPort p v).injAll = d.injAll := rfl
@[simp] theorem Dev.setPort_oxbow (d : Dev) (p : Nat) (v : Port) : (d.setPort p v).oxbow = d.oxbow := rfl
@[simp] theorem Dev.setPort_reps (d : Dev) (p : Nat) (v : Port) : (d.setPort p v).reps = d.reps := rfl
@[simp] theorem Dev.setPort_chunks (d : Dev) (p : Nat) (v : Port) : (d.setPort p v).chunks = d.chunks := rfl
@[simp] theorem Dev.setPort_launches (d : Dev) (p : Nat) (v : Port) : (d.setPort p v).launches = d.launches := rfl
@[simp] theorem Dev.setPort_units (d : Dev) (p : Nat) (v : Port) : (d.setPort p v).units = d.units := rfl
@[simp] theorem Dev.setPort_rounds (d : Dev) (p : Nat) (v : Port) : (d.setPort p v).rounds = d.rounds := rfl
@[simp] theorem Dev.setPort_xcount (d : Dev) (p : Nat) (v : Port) : (d.setPort p v).xcount = d.xcount := rfl
@[simp] theorem Dev.setPort_xwin (d : Dev) (p : Nat) (v : Port) : (d.setPort p v).xwin = d.xwin := rfl
@[simp] theorem Dev.setPort_pend (d : Dev) (p : Nat) (v : Port) : (d.setPort p v).pend = d.pend := rfl
@[simp] theorem Dev.setPort_reqs (d : Dev) (p : Nat) (v : Port) : (d.setPort p v).reqs = d.reqs := rfl
@[simp] theorem Dev.setPort_stackU (d : Dev) (p : Nat) (v : Port) : (d.setPort p v).stackU = d.stackU := rfl
@[simp] theorem Dev.setPort_bad (d : Dev) (p : Nat) (v : Port) : (d.setPort p v).bad = d.bad := rfl
@[simp] theorem Dev.setPort_weak (d : Dev) (p : Nat) (v : Port) : (d.setPort p v).weak = d.weak := rfl
@[simp] theorem Dev.setPort_dueRows (d : Dev) (p : Nat) (v : Port) : (d.setPort p v).dueRows = d.dueRows := rfl
@[simp] theorem Dev.setPort_plat (d : Dev) (p : Nat) (v : Port) : (d.setPort p v).plat = d.plat := rfl
@[simp] theorem Dev.setPort_inputs (d : Dev) (p : Nat) (v : Port) : (d.setPort p v).inputs = d.inputs := rfl
@[simp] theorem Dev.setPort_level1 (d : Dev) (p : Nat) (v : Port) : (d.setPort p v).level1 = d.level1 := rfl
@[simp] theorem Dev.setPort_obvo (d : Dev) (p : Nat) (v : Port) : (d.setPort p v).obvo = d.obvo := rfl
@[simp] theorem Dev.setPort_col (d : Dev) (p : Nat) (v : Port) : (d.setPort p v).col = d.col := rfl
@[simp] theorem Dev.setPort_pwr (d : Dev) (p : Nat) (v : Port) : (d.setPort p v).pwr = d.pwr := rfl
@[simp] theorem Dev.setPort_inService (d : Dev) (p : Nat) (v : Port) : (d.setPort p v).inService = d.inService := rfl
@[simp] theorem Dev.setPort_dpBusy (d : Dev) (p : Nat) (v : Port) : (d.setPort p v).dpBusy = d.dpBusy := rfl
@[simp] theorem Dev.setPort_dpDue (d : Dev) (p : Nat) (v : Port) : (d.setPort p v).dpDue = d.dpDue := rfl
@[simp] theorem Dev.setPort_dpAt (d : Dev) (p : Nat) (v : Port) : (d.setPort p v).dpAt = d.dpAt := rfl
@[simp] theorem Dev.setPort_stackLost (d : Dev) (p : Nat) (v : Port) : (d.setPort p v).stackLost = d.stackLost := rfl
@[simp] theorem Dev.setPort_stby (d : Dev) (p : Nat) (v : Port) : (d.setPort p v).stby = d.stby := rfl
@[simp] theorem Dev.setPort_resetLow (d : Dev) (p : Nat) (v : Port) : (d.setPort p v).resetLow = d.resetLow := rfl
@[simp] theorem Dev.setPort_coldHeld (d : Dev) (p : Nat) (v : Port) : (d.setPort p v).coldHeld = d.coldHeld := rfl
@[simp] theorem Dev.setPort_rails (d : Dev) (p : Nat) (v : Port) : (d.setPort p v).rails = d.rails := rfl
@[simp] theorem Dev.setPort_straps (d : Dev) (p : Nat) (v : Port) : (d.setPort p v).straps = d.straps := rfl
@[simp] theorem Dev.setPort_evDiscarded (d : Dev) (p : Nat) (v : Port) : (d.setPort p v).evDiscarded = d.evDiscarded := rfl
@[simp] theorem Dev.setPort_cntServed (d : Dev) (p : Nat) (v : Port) : (d.setPort p v).cntServed = d.cntServed := rfl
@[simp] theorem Dev.setPort_bwin (d : Dev) (p : Nat) (v : Port) : (d.setPort p v).bwin = d.bwin := rfl
@[simp] theorem Dev.setPort_bwWin (d : Dev) (p : Nat) (v : Port) : (d.setPort p v).bwWin = d.bwWin := rfl
@[simp] theorem Dev.setPort_bwAt (d : Dev) (p : Nat) (v : Port) : (d.setPort p v).bwAt = d.bwAt := rfl
@[simp] theorem Dev.setPort_snapDue (d : Dev) (p : Nat) (v : Port) : (d.setPort p v).snapDue = d.snapDue := rfl
@[simp] theorem Dev.setPort_wmarkDue (d : Dev) (p : Nat) (v : Port) : (d.setPort p v).wmarkDue = d.wmarkDue := rfl
@[simp] theorem Dev.setPort_ledLast (d : Dev) (p : Nat) (v : Port) : (d.setPort p v).ledLast = d.ledLast := rfl
@[simp] theorem Dev.setPort_ir (d : Dev) (p : Nat) (v : Port) : (d.setPort p v).ir = d.ir := rfl
@[simp] theorem Dev.setPort_bsr (d : Dev) (p : Nat) (v : Port) : (d.setPort p v).bsr = d.bsr := rfl
@[simp] theorem Dev.setPort_tapHeld (d : Dev) (p : Nat) (v : Port) : (d.setPort p v).tapHeld = d.tapHeld := rfl
@[simp] theorem Dev.setPort_caps (d : Dev) (p : Nat) (v : Port) : (d.setPort p v).caps = d.caps := rfl
@[simp] theorem Dev.setPort_pats (d : Dev) (p : Nat) (v : Port) : (d.setPort p v).pats = d.pats := rfl
@[simp] theorem Dev.setPort_injs (d : Dev) (p : Nat) (v : Port) : (d.setPort p v).injs = d.injs := rfl
@[simp] theorem Dev.setPort_clkDead (d : Dev) (p : Nat) (v : Port) : (d.setPort p v).clkDead = d.clkDead := rfl
@[simp] theorem Dev.setPort_lost (d : Dev) (p : Nat) (v : Port) : (d.setPort p v).lost = d.lost := rfl
@[simp] theorem Dev.setPort_draws (d : Dev) (p : Nat) (v : Port) : (d.setPort p v).draws = d.draws := rfl
@[simp] theorem Dev.setPort_out (d : Dev) (p : Nat) (v : Port) : (d.setPort p v).out = d.out := rfl

@[simp] theorem Dev.emit_regs (d : Dev) (o : Out) : (d.emit o).regs = d.regs := rfl
@[simp] theorem Dev.emit_frm (d : Dev) (o : Out) : (d.emit o).frm = d.frm := rfl
@[simp] theorem Dev.emit_raised (d : Dev) (o : Out) : (d.emit o).raised = d.raised := rfl
@[simp] theorem Dev.emit_words (d : Dev) (o : Out) : (d.emit o).words = d.words := rfl
@[simp] theorem Dev.emit_latches (d : Dev) (o : Out) : (d.emit o).latches = d.latches := rfl
@[simp] theorem Dev.emit_dies (d : Dev) (o : Out) : (d.emit o).dies = d.dies := rfl
@[simp] theorem Dev.emit_hbms (d : Dev) (o : Out) : (d.emit o).hbms = d.hbms := rfl
@[simp] theorem Dev.emit_bridges (d : Dev) (o : Out) : (d.emit o).bridges = d.bridges := rfl
@[simp] theorem Dev.emit_lanes (d : Dev) (o : Out) : (d.emit o).lanes = d.lanes := rfl
@[simp] theorem Dev.emit_ports (d : Dev) (o : Out) : (d.emit o).ports = d.ports := rfl
@[simp] theorem Dev.emit_pkts (d : Dev) (o : Out) : (d.emit o).pkts = d.pkts := rfl
@[simp] theorem Dev.emit_nextId (d : Dev) (o : Out) : (d.emit o).nextId = d.nextId := rfl
@[simp] theorem Dev.emit_queue (d : Dev) (o : Out) : (d.emit o).queue = d.queue := rfl
@[simp] theorem Dev.emit_bufs (d : Dev) (o : Out) : (d.emit o).bufs = d.bufs := rfl
@[simp] theorem Dev.emit_quarBufs (d : Dev) (o : Out) : (d.emit o).quarBufs = d.quarBufs := rfl
@[simp] theorem Dev.emit_bud (d : Dev) (o : Out) : (d.emit o).bud = d.bud := rfl
@[simp] theorem Dev.emit_corr (d : Dev) (o : Out) : (d.emit o).corr = d.corr := rfl
@[simp] theorem Dev.emit_stages (d : Dev) (o : Out) : (d.emit o).stages = d.stages := rfl
@[simp] theorem Dev.emit_trks (d : Dev) (o : Out) : (d.emit o).trks = d.trks := rfl
@[simp] theorem Dev.emit_samp (d : Dev) (o : Out) : (d.emit o).samp = d.samp := rfl
@[simp] theorem Dev.emit_samples (d : Dev) (o : Out) : (d.emit o).samples = d.samples := rfl
@[simp] theorem Dev.emit_coordV (d : Dev) (o : Out) : (d.emit o).coordV = d.coordV := rfl
@[simp] theorem Dev.emit_coord (d : Dev) (o : Out) : (d.emit o).coord = d.coord := rfl
@[simp] theorem Dev.emit_ract (d : Dev) (o : Out) : (d.emit o).ract = d.ract := rfl
@[simp] theorem Dev.emit_ovl (d : Dev) (o : Out) : (d.emit o).ovl = d.ovl := rfl
@[simp] theorem Dev.emit_lfsr (d : Dev) (o : Out) : (d.emit o).lfsr = d.lfsr := rfl
@[simp] theorem Dev.emit_inj (d : Dev) (o : Out) : (d.emit o).inj = d.inj := rfl
@[simp] theorem Dev.emit_injAll (d : Dev) (o : Out) : (d.emit o).injAll = d.injAll := rfl
@[simp] theorem Dev.emit_oxbow (d : Dev) (o : Out) : (d.emit o).oxbow = d.oxbow := rfl
@[simp] theorem Dev.emit_reps (d : Dev) (o : Out) : (d.emit o).reps = d.reps := rfl
@[simp] theorem Dev.emit_chunks (d : Dev) (o : Out) : (d.emit o).chunks = d.chunks := rfl
@[simp] theorem Dev.emit_launches (d : Dev) (o : Out) : (d.emit o).launches = d.launches := rfl
@[simp] theorem Dev.emit_units (d : Dev) (o : Out) : (d.emit o).units = d.units := rfl
@[simp] theorem Dev.emit_rounds (d : Dev) (o : Out) : (d.emit o).rounds = d.rounds := rfl
@[simp] theorem Dev.emit_xcount (d : Dev) (o : Out) : (d.emit o).xcount = d.xcount := rfl
@[simp] theorem Dev.emit_xwin (d : Dev) (o : Out) : (d.emit o).xwin = d.xwin := rfl
@[simp] theorem Dev.emit_pend (d : Dev) (o : Out) : (d.emit o).pend = d.pend := rfl
@[simp] theorem Dev.emit_reqs (d : Dev) (o : Out) : (d.emit o).reqs = d.reqs := rfl
@[simp] theorem Dev.emit_stackU (d : Dev) (o : Out) : (d.emit o).stackU = d.stackU := rfl
@[simp] theorem Dev.emit_bad (d : Dev) (o : Out) : (d.emit o).bad = d.bad := rfl
@[simp] theorem Dev.emit_weak (d : Dev) (o : Out) : (d.emit o).weak = d.weak := rfl
@[simp] theorem Dev.emit_dueRows (d : Dev) (o : Out) : (d.emit o).dueRows = d.dueRows := rfl
@[simp] theorem Dev.emit_plat (d : Dev) (o : Out) : (d.emit o).plat = d.plat := rfl
@[simp] theorem Dev.emit_inputs (d : Dev) (o : Out) : (d.emit o).inputs = d.inputs := rfl
@[simp] theorem Dev.emit_level1 (d : Dev) (o : Out) : (d.emit o).level1 = d.level1 := rfl
@[simp] theorem Dev.emit_obvo (d : Dev) (o : Out) : (d.emit o).obvo = d.obvo := rfl
@[simp] theorem Dev.emit_col (d : Dev) (o : Out) : (d.emit o).col = d.col := rfl
@[simp] theorem Dev.emit_pwr (d : Dev) (o : Out) : (d.emit o).pwr = d.pwr := rfl
@[simp] theorem Dev.emit_inService (d : Dev) (o : Out) : (d.emit o).inService = d.inService := rfl
@[simp] theorem Dev.emit_dpBusy (d : Dev) (o : Out) : (d.emit o).dpBusy = d.dpBusy := rfl
@[simp] theorem Dev.emit_dpDue (d : Dev) (o : Out) : (d.emit o).dpDue = d.dpDue := rfl
@[simp] theorem Dev.emit_dpAt (d : Dev) (o : Out) : (d.emit o).dpAt = d.dpAt := rfl
@[simp] theorem Dev.emit_stackLost (d : Dev) (o : Out) : (d.emit o).stackLost = d.stackLost := rfl
@[simp] theorem Dev.emit_stby (d : Dev) (o : Out) : (d.emit o).stby = d.stby := rfl
@[simp] theorem Dev.emit_resetLow (d : Dev) (o : Out) : (d.emit o).resetLow = d.resetLow := rfl
@[simp] theorem Dev.emit_coldHeld (d : Dev) (o : Out) : (d.emit o).coldHeld = d.coldHeld := rfl
@[simp] theorem Dev.emit_rails (d : Dev) (o : Out) : (d.emit o).rails = d.rails := rfl
@[simp] theorem Dev.emit_straps (d : Dev) (o : Out) : (d.emit o).straps = d.straps := rfl
@[simp] theorem Dev.emit_evDiscarded (d : Dev) (o : Out) : (d.emit o).evDiscarded = d.evDiscarded := rfl
@[simp] theorem Dev.emit_cntServed (d : Dev) (o : Out) : (d.emit o).cntServed = d.cntServed := rfl
@[simp] theorem Dev.emit_bwin (d : Dev) (o : Out) : (d.emit o).bwin = d.bwin := rfl
@[simp] theorem Dev.emit_bwWin (d : Dev) (o : Out) : (d.emit o).bwWin = d.bwWin := rfl
@[simp] theorem Dev.emit_bwAt (d : Dev) (o : Out) : (d.emit o).bwAt = d.bwAt := rfl
@[simp] theorem Dev.emit_snapDue (d : Dev) (o : Out) : (d.emit o).snapDue = d.snapDue := rfl
@[simp] theorem Dev.emit_wmarkDue (d : Dev) (o : Out) : (d.emit o).wmarkDue = d.wmarkDue := rfl
@[simp] theorem Dev.emit_ledLast (d : Dev) (o : Out) : (d.emit o).ledLast = d.ledLast := rfl
@[simp] theorem Dev.emit_ir (d : Dev) (o : Out) : (d.emit o).ir = d.ir := rfl
@[simp] theorem Dev.emit_bsr (d : Dev) (o : Out) : (d.emit o).bsr = d.bsr := rfl
@[simp] theorem Dev.emit_tapHeld (d : Dev) (o : Out) : (d.emit o).tapHeld = d.tapHeld := rfl
@[simp] theorem Dev.emit_caps (d : Dev) (o : Out) : (d.emit o).caps = d.caps := rfl
@[simp] theorem Dev.emit_pats (d : Dev) (o : Out) : (d.emit o).pats = d.pats := rfl
@[simp] theorem Dev.emit_injs (d : Dev) (o : Out) : (d.emit o).injs = d.injs := rfl
@[simp] theorem Dev.emit_clkDead (d : Dev) (o : Out) : (d.emit o).clkDead = d.clkDead := rfl
@[simp] theorem Dev.emit_lost (d : Dev) (o : Out) : (d.emit o).lost = d.lost := rfl
@[simp] theorem Dev.emit_draws (d : Dev) (o : Out) : (d.emit o).draws = d.draws := rfl
@[simp] theorem Dev.emit_out (d : Dev) (o : Out) : (d.emit o).out = o :: d.out := rfl

@[simp] theorem Dev.onPwr_regs (d : Dev) (f : Pwr → Pwr) : (d.onPwr f).regs = d.regs := rfl
@[simp] theorem Dev.onPwr_frm (d : Dev) (f : Pwr → Pwr) : (d.onPwr f).frm = d.frm := rfl
@[simp] theorem Dev.onPwr_raised (d : Dev) (f : Pwr → Pwr) : (d.onPwr f).raised = d.raised := rfl
@[simp] theorem Dev.onPwr_words (d : Dev) (f : Pwr → Pwr) : (d.onPwr f).words = d.words := rfl
@[simp] theorem Dev.onPwr_latches (d : Dev) (f : Pwr → Pwr) : (d.onPwr f).latches = d.latches := rfl
@[simp] theorem Dev.onPwr_dies (d : Dev) (f : Pwr → Pwr) : (d.onPwr f).dies = d.dies := rfl
@[simp] theorem Dev.onPwr_hbms (d : Dev) (f : Pwr → Pwr) : (d.onPwr f).hbms = d.hbms := rfl
@[simp] theorem Dev.onPwr_bridges (d : Dev) (f : Pwr → Pwr) : (d.onPwr f).bridges = d.bridges := rfl
@[simp] theorem Dev.onPwr_lanes (d : Dev) (f : Pwr → Pwr) : (d.onPwr f).lanes = d.lanes := rfl
@[simp] theorem Dev.onPwr_ports (d : Dev) (f : Pwr → Pwr) : (d.onPwr f).ports = d.ports := rfl
@[simp] theorem Dev.onPwr_pkts (d : Dev) (f : Pwr → Pwr) : (d.onPwr f).pkts = d.pkts := rfl
@[simp] theorem Dev.onPwr_nextId (d : Dev) (f : Pwr → Pwr) : (d.onPwr f).nextId = d.nextId := rfl
@[simp] theorem Dev.onPwr_queue (d : Dev) (f : Pwr → Pwr) : (d.onPwr f).queue = d.queue := rfl
@[simp] theorem Dev.onPwr_bufs (d : Dev) (f : Pwr → Pwr) : (d.onPwr f).bufs = d.bufs := rfl
@[simp] theorem Dev.onPwr_quarBufs (d : Dev) (f : Pwr → Pwr) : (d.onPwr f).quarBufs = d.quarBufs := rfl
@[simp] theorem Dev.onPwr_bud (d : Dev) (f : Pwr → Pwr) : (d.onPwr f).bud = d.bud := rfl
@[simp] theorem Dev.onPwr_corr (d : Dev) (f : Pwr → Pwr) : (d.onPwr f).corr = d.corr := rfl
@[simp] theorem Dev.onPwr_stages (d : Dev) (f : Pwr → Pwr) : (d.onPwr f).stages = d.stages := rfl
@[simp] theorem Dev.onPwr_trks (d : Dev) (f : Pwr → Pwr) : (d.onPwr f).trks = d.trks := rfl
@[simp] theorem Dev.onPwr_samp (d : Dev) (f : Pwr → Pwr) : (d.onPwr f).samp = d.samp := rfl
@[simp] theorem Dev.onPwr_samples (d : Dev) (f : Pwr → Pwr) : (d.onPwr f).samples = d.samples := rfl
@[simp] theorem Dev.onPwr_coordV (d : Dev) (f : Pwr → Pwr) : (d.onPwr f).coordV = d.coordV := rfl
@[simp] theorem Dev.onPwr_coord (d : Dev) (f : Pwr → Pwr) : (d.onPwr f).coord = d.coord := rfl
@[simp] theorem Dev.onPwr_ract (d : Dev) (f : Pwr → Pwr) : (d.onPwr f).ract = d.ract := rfl
@[simp] theorem Dev.onPwr_ovl (d : Dev) (f : Pwr → Pwr) : (d.onPwr f).ovl = d.ovl := rfl
@[simp] theorem Dev.onPwr_lfsr (d : Dev) (f : Pwr → Pwr) : (d.onPwr f).lfsr = d.lfsr := rfl
@[simp] theorem Dev.onPwr_inj (d : Dev) (f : Pwr → Pwr) : (d.onPwr f).inj = d.inj := rfl
@[simp] theorem Dev.onPwr_injAll (d : Dev) (f : Pwr → Pwr) : (d.onPwr f).injAll = d.injAll := rfl
@[simp] theorem Dev.onPwr_oxbow (d : Dev) (f : Pwr → Pwr) : (d.onPwr f).oxbow = d.oxbow := rfl
@[simp] theorem Dev.onPwr_reps (d : Dev) (f : Pwr → Pwr) : (d.onPwr f).reps = d.reps := rfl
@[simp] theorem Dev.onPwr_chunks (d : Dev) (f : Pwr → Pwr) : (d.onPwr f).chunks = d.chunks := rfl
@[simp] theorem Dev.onPwr_launches (d : Dev) (f : Pwr → Pwr) : (d.onPwr f).launches = d.launches := rfl
@[simp] theorem Dev.onPwr_units (d : Dev) (f : Pwr → Pwr) : (d.onPwr f).units = d.units := rfl
@[simp] theorem Dev.onPwr_rounds (d : Dev) (f : Pwr → Pwr) : (d.onPwr f).rounds = d.rounds := rfl
@[simp] theorem Dev.onPwr_xcount (d : Dev) (f : Pwr → Pwr) : (d.onPwr f).xcount = d.xcount := rfl
@[simp] theorem Dev.onPwr_xwin (d : Dev) (f : Pwr → Pwr) : (d.onPwr f).xwin = d.xwin := rfl
@[simp] theorem Dev.onPwr_pend (d : Dev) (f : Pwr → Pwr) : (d.onPwr f).pend = d.pend := rfl
@[simp] theorem Dev.onPwr_reqs (d : Dev) (f : Pwr → Pwr) : (d.onPwr f).reqs = d.reqs := rfl
@[simp] theorem Dev.onPwr_stackU (d : Dev) (f : Pwr → Pwr) : (d.onPwr f).stackU = d.stackU := rfl
@[simp] theorem Dev.onPwr_bad (d : Dev) (f : Pwr → Pwr) : (d.onPwr f).bad = d.bad := rfl
@[simp] theorem Dev.onPwr_weak (d : Dev) (f : Pwr → Pwr) : (d.onPwr f).weak = d.weak := rfl
@[simp] theorem Dev.onPwr_dueRows (d : Dev) (f : Pwr → Pwr) : (d.onPwr f).dueRows = d.dueRows := rfl
@[simp] theorem Dev.onPwr_plat (d : Dev) (f : Pwr → Pwr) : (d.onPwr f).plat = d.plat := rfl
@[simp] theorem Dev.onPwr_inputs (d : Dev) (f : Pwr → Pwr) : (d.onPwr f).inputs = d.inputs := rfl
@[simp] theorem Dev.onPwr_level1 (d : Dev) (f : Pwr → Pwr) : (d.onPwr f).level1 = d.level1 := rfl
@[simp] theorem Dev.onPwr_obvo (d : Dev) (f : Pwr → Pwr) : (d.onPwr f).obvo = d.obvo := rfl
@[simp] theorem Dev.onPwr_col (d : Dev) (f : Pwr → Pwr) : (d.onPwr f).col = d.col := rfl
@[simp] theorem Dev.onPwr_pwr (d : Dev) (f : Pwr → Pwr) : (d.onPwr f).pwr = f d.pwr := rfl
@[simp] theorem Dev.onPwr_inService (d : Dev) (f : Pwr → Pwr) : (d.onPwr f).inService = d.inService := rfl
@[simp] theorem Dev.onPwr_dpBusy (d : Dev) (f : Pwr → Pwr) : (d.onPwr f).dpBusy = d.dpBusy := rfl
@[simp] theorem Dev.onPwr_dpDue (d : Dev) (f : Pwr → Pwr) : (d.onPwr f).dpDue = d.dpDue := rfl
@[simp] theorem Dev.onPwr_dpAt (d : Dev) (f : Pwr → Pwr) : (d.onPwr f).dpAt = d.dpAt := rfl
@[simp] theorem Dev.onPwr_stackLost (d : Dev) (f : Pwr → Pwr) : (d.onPwr f).stackLost = d.stackLost := rfl
@[simp] theorem Dev.onPwr_stby (d : Dev) (f : Pwr → Pwr) : (d.onPwr f).stby = d.stby := rfl
@[simp] theorem Dev.onPwr_resetLow (d : Dev) (f : Pwr → Pwr) : (d.onPwr f).resetLow = d.resetLow := rfl
@[simp] theorem Dev.onPwr_coldHeld (d : Dev) (f : Pwr → Pwr) : (d.onPwr f).coldHeld = d.coldHeld := rfl
@[simp] theorem Dev.onPwr_rails (d : Dev) (f : Pwr → Pwr) : (d.onPwr f).rails = d.rails := rfl
@[simp] theorem Dev.onPwr_straps (d : Dev) (f : Pwr → Pwr) : (d.onPwr f).straps = d.straps := rfl
@[simp] theorem Dev.onPwr_evDiscarded (d : Dev) (f : Pwr → Pwr) : (d.onPwr f).evDiscarded = d.evDiscarded := rfl
@[simp] theorem Dev.onPwr_cntServed (d : Dev) (f : Pwr → Pwr) : (d.onPwr f).cntServed = d.cntServed := rfl
@[simp] theorem Dev.onPwr_bwin (d : Dev) (f : Pwr → Pwr) : (d.onPwr f).bwin = d.bwin := rfl
@[simp] theorem Dev.onPwr_bwWin (d : Dev) (f : Pwr → Pwr) : (d.onPwr f).bwWin = d.bwWin := rfl
@[simp] theorem Dev.onPwr_bwAt (d : Dev) (f : Pwr → Pwr) : (d.onPwr f).bwAt = d.bwAt := rfl
@[simp] theorem Dev.onPwr_snapDue (d : Dev) (f : Pwr → Pwr) : (d.onPwr f).snapDue = d.snapDue := rfl
@[simp] theorem Dev.onPwr_wmarkDue (d : Dev) (f : Pwr → Pwr) : (d.onPwr f).wmarkDue = d.wmarkDue := rfl
@[simp] theorem Dev.onPwr_ledLast (d : Dev) (f : Pwr → Pwr) : (d.onPwr f).ledLast = d.ledLast := rfl
@[simp] theorem Dev.onPwr_ir (d : Dev) (f : Pwr → Pwr) : (d.onPwr f).ir = d.ir := rfl
@[simp] theorem Dev.onPwr_bsr (d : Dev) (f : Pwr → Pwr) : (d.onPwr f).bsr = d.bsr := rfl
@[simp] theorem Dev.onPwr_tapHeld (d : Dev) (f : Pwr → Pwr) : (d.onPwr f).tapHeld = d.tapHeld := rfl
@[simp] theorem Dev.onPwr_caps (d : Dev) (f : Pwr → Pwr) : (d.onPwr f).caps = d.caps := rfl
@[simp] theorem Dev.onPwr_pats (d : Dev) (f : Pwr → Pwr) : (d.onPwr f).pats = d.pats := rfl
@[simp] theorem Dev.onPwr_injs (d : Dev) (f : Pwr → Pwr) : (d.onPwr f).injs = d.injs := rfl
@[simp] theorem Dev.onPwr_clkDead (d : Dev) (f : Pwr → Pwr) : (d.onPwr f).clkDead = d.clkDead := rfl
@[simp] theorem Dev.onPwr_lost (d : Dev) (f : Pwr → Pwr) : (d.onPwr f).lost = d.lost := rfl
@[simp] theorem Dev.onPwr_draws (d : Dev) (f : Pwr → Pwr) : (d.onPwr f).draws = d.draws := rfl
@[simp] theorem Dev.onPwr_out (d : Dev) (f : Pwr → Pwr) : (d.onPwr f).out = d.out := rfl

@[simp] theorem Dev.onPlat_regs (d : Dev) (f : Plat → Plat) : (d.onPlat f).regs = d.regs := rfl
@[simp] theorem Dev.onPlat_frm (d : Dev) (f : Plat → Plat) : (d.onPlat f).frm = d.frm := rfl
@[simp] theorem Dev.onPlat_raised (d : Dev) (f : Plat → Plat) : (d.onPlat f).raised = d.raised := rfl
@[simp] theorem Dev.onPlat_words (d : Dev) (f : Plat → Plat) : (d.onPlat f).words = d.words := rfl
@[simp] theorem Dev.onPlat_latches (d : Dev) (f : Plat → Plat) : (d.onPlat f).latches = d.latches := rfl
@[simp] theorem Dev.onPlat_dies (d : Dev) (f : Plat → Plat) : (d.onPlat f).dies = d.dies := rfl
@[simp] theorem Dev.onPlat_hbms (d : Dev) (f : Plat → Plat) : (d.onPlat f).hbms = d.hbms := rfl
@[simp] theorem Dev.onPlat_bridges (d : Dev) (f : Plat → Plat) : (d.onPlat f).bridges = d.bridges := rfl
@[simp] theorem Dev.onPlat_lanes (d : Dev) (f : Plat → Plat) : (d.onPlat f).lanes = d.lanes := rfl
@[simp] theorem Dev.onPlat_ports (d : Dev) (f : Plat → Plat) : (d.onPlat f).ports = d.ports := rfl
@[simp] theorem Dev.onPlat_pkts (d : Dev) (f : Plat → Plat) : (d.onPlat f).pkts = d.pkts := rfl
@[simp] theorem Dev.onPlat_nextId (d : Dev) (f : Plat → Plat) : (d.onPlat f).nextId = d.nextId := rfl
@[simp] theorem Dev.onPlat_queue (d : Dev) (f : Plat → Plat) : (d.onPlat f).queue = d.queue := rfl
@[simp] theorem Dev.onPlat_bufs (d : Dev) (f : Plat → Plat) : (d.onPlat f).bufs = d.bufs := rfl
@[simp] theorem Dev.onPlat_quarBufs (d : Dev) (f : Plat → Plat) : (d.onPlat f).quarBufs = d.quarBufs := rfl
@[simp] theorem Dev.onPlat_bud (d : Dev) (f : Plat → Plat) : (d.onPlat f).bud = d.bud := rfl
@[simp] theorem Dev.onPlat_corr (d : Dev) (f : Plat → Plat) : (d.onPlat f).corr = d.corr := rfl
@[simp] theorem Dev.onPlat_stages (d : Dev) (f : Plat → Plat) : (d.onPlat f).stages = d.stages := rfl
@[simp] theorem Dev.onPlat_trks (d : Dev) (f : Plat → Plat) : (d.onPlat f).trks = d.trks := rfl
@[simp] theorem Dev.onPlat_samp (d : Dev) (f : Plat → Plat) : (d.onPlat f).samp = d.samp := rfl
@[simp] theorem Dev.onPlat_samples (d : Dev) (f : Plat → Plat) : (d.onPlat f).samples = d.samples := rfl
@[simp] theorem Dev.onPlat_coordV (d : Dev) (f : Plat → Plat) : (d.onPlat f).coordV = d.coordV := rfl
@[simp] theorem Dev.onPlat_coord (d : Dev) (f : Plat → Plat) : (d.onPlat f).coord = d.coord := rfl
@[simp] theorem Dev.onPlat_ract (d : Dev) (f : Plat → Plat) : (d.onPlat f).ract = d.ract := rfl
@[simp] theorem Dev.onPlat_ovl (d : Dev) (f : Plat → Plat) : (d.onPlat f).ovl = d.ovl := rfl
@[simp] theorem Dev.onPlat_lfsr (d : Dev) (f : Plat → Plat) : (d.onPlat f).lfsr = d.lfsr := rfl
@[simp] theorem Dev.onPlat_inj (d : Dev) (f : Plat → Plat) : (d.onPlat f).inj = d.inj := rfl
@[simp] theorem Dev.onPlat_injAll (d : Dev) (f : Plat → Plat) : (d.onPlat f).injAll = d.injAll := rfl
@[simp] theorem Dev.onPlat_oxbow (d : Dev) (f : Plat → Plat) : (d.onPlat f).oxbow = d.oxbow := rfl
@[simp] theorem Dev.onPlat_reps (d : Dev) (f : Plat → Plat) : (d.onPlat f).reps = d.reps := rfl
@[simp] theorem Dev.onPlat_chunks (d : Dev) (f : Plat → Plat) : (d.onPlat f).chunks = d.chunks := rfl
@[simp] theorem Dev.onPlat_launches (d : Dev) (f : Plat → Plat) : (d.onPlat f).launches = d.launches := rfl
@[simp] theorem Dev.onPlat_units (d : Dev) (f : Plat → Plat) : (d.onPlat f).units = d.units := rfl
@[simp] theorem Dev.onPlat_rounds (d : Dev) (f : Plat → Plat) : (d.onPlat f).rounds = d.rounds := rfl
@[simp] theorem Dev.onPlat_xcount (d : Dev) (f : Plat → Plat) : (d.onPlat f).xcount = d.xcount := rfl
@[simp] theorem Dev.onPlat_xwin (d : Dev) (f : Plat → Plat) : (d.onPlat f).xwin = d.xwin := rfl
@[simp] theorem Dev.onPlat_pend (d : Dev) (f : Plat → Plat) : (d.onPlat f).pend = d.pend := rfl
@[simp] theorem Dev.onPlat_reqs (d : Dev) (f : Plat → Plat) : (d.onPlat f).reqs = d.reqs := rfl
@[simp] theorem Dev.onPlat_stackU (d : Dev) (f : Plat → Plat) : (d.onPlat f).stackU = d.stackU := rfl
@[simp] theorem Dev.onPlat_bad (d : Dev) (f : Plat → Plat) : (d.onPlat f).bad = d.bad := rfl
@[simp] theorem Dev.onPlat_weak (d : Dev) (f : Plat → Plat) : (d.onPlat f).weak = d.weak := rfl
@[simp] theorem Dev.onPlat_dueRows (d : Dev) (f : Plat → Plat) : (d.onPlat f).dueRows = d.dueRows := rfl
@[simp] theorem Dev.onPlat_plat (d : Dev) (f : Plat → Plat) : (d.onPlat f).plat = f d.plat := rfl
@[simp] theorem Dev.onPlat_inputs (d : Dev) (f : Plat → Plat) : (d.onPlat f).inputs = d.inputs := rfl
@[simp] theorem Dev.onPlat_level1 (d : Dev) (f : Plat → Plat) : (d.onPlat f).level1 = d.level1 := rfl
@[simp] theorem Dev.onPlat_obvo (d : Dev) (f : Plat → Plat) : (d.onPlat f).obvo = d.obvo := rfl
@[simp] theorem Dev.onPlat_col (d : Dev) (f : Plat → Plat) : (d.onPlat f).col = d.col := rfl
@[simp] theorem Dev.onPlat_pwr (d : Dev) (f : Plat → Plat) : (d.onPlat f).pwr = d.pwr := rfl
@[simp] theorem Dev.onPlat_inService (d : Dev) (f : Plat → Plat) : (d.onPlat f).inService = d.inService := rfl
@[simp] theorem Dev.onPlat_dpBusy (d : Dev) (f : Plat → Plat) : (d.onPlat f).dpBusy = d.dpBusy := rfl
@[simp] theorem Dev.onPlat_dpDue (d : Dev) (f : Plat → Plat) : (d.onPlat f).dpDue = d.dpDue := rfl
@[simp] theorem Dev.onPlat_dpAt (d : Dev) (f : Plat → Plat) : (d.onPlat f).dpAt = d.dpAt := rfl
@[simp] theorem Dev.onPlat_stackLost (d : Dev) (f : Plat → Plat) : (d.onPlat f).stackLost = d.stackLost := rfl
@[simp] theorem Dev.onPlat_stby (d : Dev) (f : Plat → Plat) : (d.onPlat f).stby = d.stby := rfl
@[simp] theorem Dev.onPlat_resetLow (d : Dev) (f : Plat → Plat) : (d.onPlat f).resetLow = d.resetLow := rfl
@[simp] theorem Dev.onPlat_coldHeld (d : Dev) (f : Plat → Plat) : (d.onPlat f).coldHeld = d.coldHeld := rfl
@[simp] theorem Dev.onPlat_rails (d : Dev) (f : Plat → Plat) : (d.onPlat f).rails = d.rails := rfl
@[simp] theorem Dev.onPlat_straps (d : Dev) (f : Plat → Plat) : (d.onPlat f).straps = d.straps := rfl
@[simp] theorem Dev.onPlat_evDiscarded (d : Dev) (f : Plat → Plat) : (d.onPlat f).evDiscarded = d.evDiscarded := rfl
@[simp] theorem Dev.onPlat_cntServed (d : Dev) (f : Plat → Plat) : (d.onPlat f).cntServed = d.cntServed := rfl
@[simp] theorem Dev.onPlat_bwin (d : Dev) (f : Plat → Plat) : (d.onPlat f).bwin = d.bwin := rfl
@[simp] theorem Dev.onPlat_bwWin (d : Dev) (f : Plat → Plat) : (d.onPlat f).bwWin = d.bwWin := rfl
@[simp] theorem Dev.onPlat_bwAt (d : Dev) (f : Plat → Plat) : (d.onPlat f).bwAt = d.bwAt := rfl
@[simp] theorem Dev.onPlat_snapDue (d : Dev) (f : Plat → Plat) : (d.onPlat f).snapDue = d.snapDue := rfl
@[simp] theorem Dev.onPlat_wmarkDue (d : Dev) (f : Plat → Plat) : (d.onPlat f).wmarkDue = d.wmarkDue := rfl
@[simp] theorem Dev.onPlat_ledLast (d : Dev) (f : Plat → Plat) : (d.onPlat f).ledLast = d.ledLast := rfl
@[simp] theorem Dev.onPlat_ir (d : Dev) (f : Plat → Plat) : (d.onPlat f).ir = d.ir := rfl
@[simp] theorem Dev.onPlat_bsr (d : Dev) (f : Plat → Plat) : (d.onPlat f).bsr = d.bsr := rfl
@[simp] theorem Dev.onPlat_tapHeld (d : Dev) (f : Plat → Plat) : (d.onPlat f).tapHeld = d.tapHeld := rfl
@[simp] theorem Dev.onPlat_caps (d : Dev) (f : Plat → Plat) : (d.onPlat f).caps = d.caps := rfl
@[simp] theorem Dev.onPlat_pats (d : Dev) (f : Plat → Plat) : (d.onPlat f).pats = d.pats := rfl
@[simp] theorem Dev.onPlat_injs (d : Dev) (f : Plat → Plat) : (d.onPlat f).injs = d.injs := rfl
@[simp] theorem Dev.onPlat_clkDead (d : Dev) (f : Plat → Plat) : (d.onPlat f).clkDead = d.clkDead := rfl
@[simp] theorem Dev.onPlat_lost (d : Dev) (f : Plat → Plat) : (d.onPlat f).lost = d.lost := rfl
@[simp] theorem Dev.onPlat_draws (d : Dev) (f : Plat → Plat) : (d.onPlat f).draws = d.draws := rfl
@[simp] theorem Dev.onPlat_out (d : Dev) (f : Plat → Plat) : (d.onPlat f).out = d.out := rfl

@[simp] theorem Dev.onCol_regs (d : Dev) (f : Col → Col) : (d.onCol f).regs = d.regs := rfl
@[simp] theorem Dev.onCol_frm (d : Dev) (f : Col → Col) : (d.onCol f).frm = d.frm := rfl
@[simp] theorem Dev.onCol_raised (d : Dev) (f : Col → Col) : (d.onCol f).raised = d.raised := rfl
@[simp] theorem Dev.onCol_words (d : Dev) (f : Col → Col) : (d.onCol f).words = d.words := rfl
@[simp] theorem Dev.onCol_latches (d : Dev) (f : Col → Col) : (d.onCol f).latches = d.latches := rfl
@[simp] theorem Dev.onCol_dies (d : Dev) (f : Col → Col) : (d.onCol f).dies = d.dies := rfl
@[simp] theorem Dev.onCol_hbms (d : Dev) (f : Col → Col) : (d.onCol f).hbms = d.hbms := rfl
@[simp] theorem Dev.onCol_bridges (d : Dev) (f : Col → Col) : (d.onCol f).bridges = d.bridges := rfl
@[simp] theorem Dev.onCol_lanes (d : Dev) (f : Col → Col) : (d.onCol f).lanes = d.lanes := rfl
@[simp] theorem Dev.onCol_ports (d : Dev) (f : Col → Col) : (d.onCol f).ports = d.ports := rfl
@[simp] theorem Dev.onCol_pkts (d : Dev) (f : Col → Col) : (d.onCol f).pkts = d.pkts := rfl
@[simp] theorem Dev.onCol_nextId (d : Dev) (f : Col → Col) : (d.onCol f).nextId = d.nextId := rfl
@[simp] theorem Dev.onCol_queue (d : Dev) (f : Col → Col) : (d.onCol f).queue = d.queue := rfl
@[simp] theorem Dev.onCol_bufs (d : Dev) (f : Col → Col) : (d.onCol f).bufs = d.bufs := rfl
@[simp] theorem Dev.onCol_quarBufs (d : Dev) (f : Col → Col) : (d.onCol f).quarBufs = d.quarBufs := rfl
@[simp] theorem Dev.onCol_bud (d : Dev) (f : Col → Col) : (d.onCol f).bud = d.bud := rfl
@[simp] theorem Dev.onCol_corr (d : Dev) (f : Col → Col) : (d.onCol f).corr = d.corr := rfl
@[simp] theorem Dev.onCol_stages (d : Dev) (f : Col → Col) : (d.onCol f).stages = d.stages := rfl
@[simp] theorem Dev.onCol_trks (d : Dev) (f : Col → Col) : (d.onCol f).trks = d.trks := rfl
@[simp] theorem Dev.onCol_samp (d : Dev) (f : Col → Col) : (d.onCol f).samp = d.samp := rfl
@[simp] theorem Dev.onCol_samples (d : Dev) (f : Col → Col) : (d.onCol f).samples = d.samples := rfl
@[simp] theorem Dev.onCol_coordV (d : Dev) (f : Col → Col) : (d.onCol f).coordV = d.coordV := rfl
@[simp] theorem Dev.onCol_coord (d : Dev) (f : Col → Col) : (d.onCol f).coord = d.coord := rfl
@[simp] theorem Dev.onCol_ract (d : Dev) (f : Col → Col) : (d.onCol f).ract = d.ract := rfl
@[simp] theorem Dev.onCol_ovl (d : Dev) (f : Col → Col) : (d.onCol f).ovl = d.ovl := rfl
@[simp] theorem Dev.onCol_lfsr (d : Dev) (f : Col → Col) : (d.onCol f).lfsr = d.lfsr := rfl
@[simp] theorem Dev.onCol_inj (d : Dev) (f : Col → Col) : (d.onCol f).inj = d.inj := rfl
@[simp] theorem Dev.onCol_injAll (d : Dev) (f : Col → Col) : (d.onCol f).injAll = d.injAll := rfl
@[simp] theorem Dev.onCol_oxbow (d : Dev) (f : Col → Col) : (d.onCol f).oxbow = d.oxbow := rfl
@[simp] theorem Dev.onCol_reps (d : Dev) (f : Col → Col) : (d.onCol f).reps = d.reps := rfl
@[simp] theorem Dev.onCol_chunks (d : Dev) (f : Col → Col) : (d.onCol f).chunks = d.chunks := rfl
@[simp] theorem Dev.onCol_launches (d : Dev) (f : Col → Col) : (d.onCol f).launches = d.launches := rfl
@[simp] theorem Dev.onCol_units (d : Dev) (f : Col → Col) : (d.onCol f).units = d.units := rfl
@[simp] theorem Dev.onCol_rounds (d : Dev) (f : Col → Col) : (d.onCol f).rounds = d.rounds := rfl
@[simp] theorem Dev.onCol_xcount (d : Dev) (f : Col → Col) : (d.onCol f).xcount = d.xcount := rfl
@[simp] theorem Dev.onCol_xwin (d : Dev) (f : Col → Col) : (d.onCol f).xwin = d.xwin := rfl
@[simp] theorem Dev.onCol_pend (d : Dev) (f : Col → Col) : (d.onCol f).pend = d.pend := rfl
@[simp] theorem Dev.onCol_reqs (d : Dev) (f : Col → Col) : (d.onCol f).reqs = d.reqs := rfl
@[simp] theorem Dev.onCol_stackU (d : Dev) (f : Col → Col) : (d.onCol f).stackU = d.stackU := rfl
@[simp] theorem Dev.onCol_bad (d : Dev) (f : Col → Col) : (d.onCol f).bad = d.bad := rfl
@[simp] theorem Dev.onCol_weak (d : Dev) (f : Col → Col) : (d.onCol f).weak = d.weak := rfl
@[simp] theorem Dev.onCol_dueRows (d : Dev) (f : Col → Col) : (d.onCol f).dueRows = d.dueRows := rfl
@[simp] theorem Dev.onCol_plat (d : Dev) (f : Col → Col) : (d.onCol f).plat = d.plat := rfl
@[simp] theorem Dev.onCol_inputs (d : Dev) (f : Col → Col) : (d.onCol f).inputs = d.inputs := rfl
@[simp] theorem Dev.onCol_level1 (d : Dev) (f : Col → Col) : (d.onCol f).level1 = d.level1 := rfl
@[simp] theorem Dev.onCol_obvo (d : Dev) (f : Col → Col) : (d.onCol f).obvo = d.obvo := rfl
@[simp] theorem Dev.onCol_col (d : Dev) (f : Col → Col) : (d.onCol f).col = f d.col := rfl
@[simp] theorem Dev.onCol_pwr (d : Dev) (f : Col → Col) : (d.onCol f).pwr = d.pwr := rfl
@[simp] theorem Dev.onCol_inService (d : Dev) (f : Col → Col) : (d.onCol f).inService = d.inService := rfl
@[simp] theorem Dev.onCol_dpBusy (d : Dev) (f : Col → Col) : (d.onCol f).dpBusy = d.dpBusy := rfl
@[simp] theorem Dev.onCol_dpDue (d : Dev) (f : Col → Col) : (d.onCol f).dpDue = d.dpDue := rfl
@[simp] theorem Dev.onCol_dpAt (d : Dev) (f : Col → Col) : (d.onCol f).dpAt = d.dpAt := rfl
@[simp] theorem Dev.onCol_stackLost (d : Dev) (f : Col → Col) : (d.onCol f).stackLost = d.stackLost := rfl
@[simp] theorem Dev.onCol_stby (d : Dev) (f : Col → Col) : (d.onCol f).stby = d.stby := rfl
@[simp] theorem Dev.onCol_resetLow (d : Dev) (f : Col → Col) : (d.onCol f).resetLow = d.resetLow := rfl
@[simp] theorem Dev.onCol_coldHeld (d : Dev) (f : Col → Col) : (d.onCol f).coldHeld = d.coldHeld := rfl
@[simp] theorem Dev.onCol_rails (d : Dev) (f : Col → Col) : (d.onCol f).rails = d.rails := rfl
@[simp] theorem Dev.onCol_straps (d : Dev) (f : Col → Col) : (d.onCol f).straps = d.straps := rfl
@[simp] theorem Dev.onCol_evDiscarded (d : Dev) (f : Col → Col) : (d.onCol f).evDiscarded = d.evDiscarded := rfl
@[simp] theorem Dev.onCol_cntServed (d : Dev) (f : Col → Col) : (d.onCol f).cntServed = d.cntServed := rfl
@[simp] theorem Dev.onCol_bwin (d : Dev) (f : Col → Col) : (d.onCol f).bwin = d.bwin := rfl
@[simp] theorem Dev.onCol_bwWin (d : Dev) (f : Col → Col) : (d.onCol f).bwWin = d.bwWin := rfl
@[simp] theorem Dev.onCol_bwAt (d : Dev) (f : Col → Col) : (d.onCol f).bwAt = d.bwAt := rfl
@[simp] theorem Dev.onCol_snapDue (d : Dev) (f : Col → Col) : (d.onCol f).snapDue = d.snapDue := rfl
@[simp] theorem Dev.onCol_wmarkDue (d : Dev) (f : Col → Col) : (d.onCol f).wmarkDue = d.wmarkDue := rfl
@[simp] theorem Dev.onCol_ledLast (d : Dev) (f : Col → Col) : (d.onCol f).ledLast = d.ledLast := rfl
@[simp] theorem Dev.onCol_ir (d : Dev) (f : Col → Col) : (d.onCol f).ir = d.ir := rfl
@[simp] theorem Dev.onCol_bsr (d : Dev) (f : Col → Col) : (d.onCol f).bsr = d.bsr := rfl
@[simp] theorem Dev.onCol_tapHeld (d : Dev) (f : Col → Col) : (d.onCol f).tapHeld = d.tapHeld := rfl
@[simp] theorem Dev.onCol_caps (d : Dev) (f : Col → Col) : (d.onCol f).caps = d.caps := rfl
@[simp] theorem Dev.onCol_pats (d : Dev) (f : Col → Col) : (d.onCol f).pats = d.pats := rfl
@[simp] theorem Dev.onCol_injs (d : Dev) (f : Col → Col) : (d.onCol f).injs = d.injs := rfl
@[simp] theorem Dev.onCol_clkDead (d : Dev) (f : Col → Col) : (d.onCol f).clkDead = d.clkDead := rfl
@[simp] theorem Dev.onCol_lost (d : Dev) (f : Col → Col) : (d.onCol f).lost = d.lost := rfl
@[simp] theorem Dev.onCol_draws (d : Dev) (f : Col → Col) : (d.onCol f).draws = d.draws := rfl
@[simp] theorem Dev.onCol_out (d : Dev) (f : Col → Col) : (d.onCol f).out = d.out := rfl

@[simp] theorem Dev.onObvo_regs (d : Dev) (f : Obvo → Obvo) : (d.onObvo f).regs = d.regs := rfl
@[simp] theorem Dev.onObvo_frm (d : Dev) (f : Obvo → Obvo) : (d.onObvo f).frm = d.frm := rfl
@[simp] theorem Dev.onObvo_raised (d : Dev) (f : Obvo → Obvo) : (d.onObvo f).raised = d.raised := rfl
@[simp] theorem Dev.onObvo_words (d : Dev) (f : Obvo → Obvo) : (d.onObvo f).words = d.words := rfl
@[simp] theorem Dev.onObvo_latches (d : Dev) (f : Obvo → Obvo) : (d.onObvo f).latches = d.latches := rfl
@[simp] theorem Dev.onObvo_dies (d : Dev) (f : Obvo → Obvo) : (d.onObvo f).dies = d.dies := rfl
@[simp] theorem Dev.onObvo_hbms (d : Dev) (f : Obvo → Obvo) : (d.onObvo f).hbms = d.hbms := rfl
@[simp] theorem Dev.onObvo_bridges (d : Dev) (f : Obvo → Obvo) : (d.onObvo f).bridges = d.bridges := rfl
@[simp] theorem Dev.onObvo_lanes (d : Dev) (f : Obvo → Obvo) : (d.onObvo f).lanes = d.lanes := rfl
@[simp] theorem Dev.onObvo_ports (d : Dev) (f : Obvo → Obvo) : (d.onObvo f).ports = d.ports := rfl
@[simp] theorem Dev.onObvo_pkts (d : Dev) (f : Obvo → Obvo) : (d.onObvo f).pkts = d.pkts := rfl
@[simp] theorem Dev.onObvo_nextId (d : Dev) (f : Obvo → Obvo) : (d.onObvo f).nextId = d.nextId := rfl
@[simp] theorem Dev.onObvo_queue (d : Dev) (f : Obvo → Obvo) : (d.onObvo f).queue = d.queue := rfl
@[simp] theorem Dev.onObvo_bufs (d : Dev) (f : Obvo → Obvo) : (d.onObvo f).bufs = d.bufs := rfl
@[simp] theorem Dev.onObvo_quarBufs (d : Dev) (f : Obvo → Obvo) : (d.onObvo f).quarBufs = d.quarBufs := rfl
@[simp] theorem Dev.onObvo_bud (d : Dev) (f : Obvo → Obvo) : (d.onObvo f).bud = d.bud := rfl
@[simp] theorem Dev.onObvo_corr (d : Dev) (f : Obvo → Obvo) : (d.onObvo f).corr = d.corr := rfl
@[simp] theorem Dev.onObvo_stages (d : Dev) (f : Obvo → Obvo) : (d.onObvo f).stages = d.stages := rfl
@[simp] theorem Dev.onObvo_trks (d : Dev) (f : Obvo → Obvo) : (d.onObvo f).trks = d.trks := rfl
@[simp] theorem Dev.onObvo_samp (d : Dev) (f : Obvo → Obvo) : (d.onObvo f).samp = d.samp := rfl
@[simp] theorem Dev.onObvo_samples (d : Dev) (f : Obvo → Obvo) : (d.onObvo f).samples = d.samples := rfl
@[simp] theorem Dev.onObvo_coordV (d : Dev) (f : Obvo → Obvo) : (d.onObvo f).coordV = d.coordV := rfl
@[simp] theorem Dev.onObvo_coord (d : Dev) (f : Obvo → Obvo) : (d.onObvo f).coord = d.coord := rfl
@[simp] theorem Dev.onObvo_ract (d : Dev) (f : Obvo → Obvo) : (d.onObvo f).ract = d.ract := rfl
@[simp] theorem Dev.onObvo_ovl (d : Dev) (f : Obvo → Obvo) : (d.onObvo f).ovl = d.ovl := rfl
@[simp] theorem Dev.onObvo_lfsr (d : Dev) (f : Obvo → Obvo) : (d.onObvo f).lfsr = d.lfsr := rfl
@[simp] theorem Dev.onObvo_inj (d : Dev) (f : Obvo → Obvo) : (d.onObvo f).inj = d.inj := rfl
@[simp] theorem Dev.onObvo_injAll (d : Dev) (f : Obvo → Obvo) : (d.onObvo f).injAll = d.injAll := rfl
@[simp] theorem Dev.onObvo_oxbow (d : Dev) (f : Obvo → Obvo) : (d.onObvo f).oxbow = d.oxbow := rfl
@[simp] theorem Dev.onObvo_reps (d : Dev) (f : Obvo → Obvo) : (d.onObvo f).reps = d.reps := rfl
@[simp] theorem Dev.onObvo_chunks (d : Dev) (f : Obvo → Obvo) : (d.onObvo f).chunks = d.chunks := rfl
@[simp] theorem Dev.onObvo_launches (d : Dev) (f : Obvo → Obvo) : (d.onObvo f).launches = d.launches := rfl
@[simp] theorem Dev.onObvo_units (d : Dev) (f : Obvo → Obvo) : (d.onObvo f).units = d.units := rfl
@[simp] theorem Dev.onObvo_rounds (d : Dev) (f : Obvo → Obvo) : (d.onObvo f).rounds = d.rounds := rfl
@[simp] theorem Dev.onObvo_xcount (d : Dev) (f : Obvo → Obvo) : (d.onObvo f).xcount = d.xcount := rfl
@[simp] theorem Dev.onObvo_xwin (d : Dev) (f : Obvo → Obvo) : (d.onObvo f).xwin = d.xwin := rfl
@[simp] theorem Dev.onObvo_pend (d : Dev) (f : Obvo → Obvo) : (d.onObvo f).pend = d.pend := rfl
@[simp] theorem Dev.onObvo_reqs (d : Dev) (f : Obvo → Obvo) : (d.onObvo f).reqs = d.reqs := rfl
@[simp] theorem Dev.onObvo_stackU (d : Dev) (f : Obvo → Obvo) : (d.onObvo f).stackU = d.stackU := rfl
@[simp] theorem Dev.onObvo_bad (d : Dev) (f : Obvo → Obvo) : (d.onObvo f).bad = d.bad := rfl
@[simp] theorem Dev.onObvo_weak (d : Dev) (f : Obvo → Obvo) : (d.onObvo f).weak = d.weak := rfl
@[simp] theorem Dev.onObvo_dueRows (d : Dev) (f : Obvo → Obvo) : (d.onObvo f).dueRows = d.dueRows := rfl
@[simp] theorem Dev.onObvo_plat (d : Dev) (f : Obvo → Obvo) : (d.onObvo f).plat = d.plat := rfl
@[simp] theorem Dev.onObvo_inputs (d : Dev) (f : Obvo → Obvo) : (d.onObvo f).inputs = d.inputs := rfl
@[simp] theorem Dev.onObvo_level1 (d : Dev) (f : Obvo → Obvo) : (d.onObvo f).level1 = d.level1 := rfl
@[simp] theorem Dev.onObvo_obvo (d : Dev) (f : Obvo → Obvo) : (d.onObvo f).obvo = f d.obvo := rfl
@[simp] theorem Dev.onObvo_col (d : Dev) (f : Obvo → Obvo) : (d.onObvo f).col = d.col := rfl
@[simp] theorem Dev.onObvo_pwr (d : Dev) (f : Obvo → Obvo) : (d.onObvo f).pwr = d.pwr := rfl
@[simp] theorem Dev.onObvo_inService (d : Dev) (f : Obvo → Obvo) : (d.onObvo f).inService = d.inService := rfl
@[simp] theorem Dev.onObvo_dpBusy (d : Dev) (f : Obvo → Obvo) : (d.onObvo f).dpBusy = d.dpBusy := rfl
@[simp] theorem Dev.onObvo_dpDue (d : Dev) (f : Obvo → Obvo) : (d.onObvo f).dpDue = d.dpDue := rfl
@[simp] theorem Dev.onObvo_dpAt (d : Dev) (f : Obvo → Obvo) : (d.onObvo f).dpAt = d.dpAt := rfl
@[simp] theorem Dev.onObvo_stackLost (d : Dev) (f : Obvo → Obvo) : (d.onObvo f).stackLost = d.stackLost := rfl
@[simp] theorem Dev.onObvo_stby (d : Dev) (f : Obvo → Obvo) : (d.onObvo f).stby = d.stby := rfl
@[simp] theorem Dev.onObvo_resetLow (d : Dev) (f : Obvo → Obvo) : (d.onObvo f).resetLow = d.resetLow := rfl
@[simp] theorem Dev.onObvo_coldHeld (d : Dev) (f : Obvo → Obvo) : (d.onObvo f).coldHeld = d.coldHeld := rfl
@[simp] theorem Dev.onObvo_rails (d : Dev) (f : Obvo → Obvo) : (d.onObvo f).rails = d.rails := rfl
@[simp] theorem Dev.onObvo_straps (d : Dev) (f : Obvo → Obvo) : (d.onObvo f).straps = d.straps := rfl
@[simp] theorem Dev.onObvo_evDiscarded (d : Dev) (f : Obvo → Obvo) : (d.onObvo f).evDiscarded = d.evDiscarded := rfl
@[simp] theorem Dev.onObvo_cntServed (d : Dev) (f : Obvo → Obvo) : (d.onObvo f).cntServed = d.cntServed := rfl
@[simp] theorem Dev.onObvo_bwin (d : Dev) (f : Obvo → Obvo) : (d.onObvo f).bwin = d.bwin := rfl
@[simp] theorem Dev.onObvo_bwWin (d : Dev) (f : Obvo → Obvo) : (d.onObvo f).bwWin = d.bwWin := rfl
@[simp] theorem Dev.onObvo_bwAt (d : Dev) (f : Obvo → Obvo) : (d.onObvo f).bwAt = d.bwAt := rfl
@[simp] theorem Dev.onObvo_snapDue (d : Dev) (f : Obvo → Obvo) : (d.onObvo f).snapDue = d.snapDue := rfl
@[simp] theorem Dev.onObvo_wmarkDue (d : Dev) (f : Obvo → Obvo) : (d.onObvo f).wmarkDue = d.wmarkDue := rfl
@[simp] theorem Dev.onObvo_ledLast (d : Dev) (f : Obvo → Obvo) : (d.onObvo f).ledLast = d.ledLast := rfl
@[simp] theorem Dev.onObvo_ir (d : Dev) (f : Obvo → Obvo) : (d.onObvo f).ir = d.ir := rfl
@[simp] theorem Dev.onObvo_bsr (d : Dev) (f : Obvo → Obvo) : (d.onObvo f).bsr = d.bsr := rfl
@[simp] theorem Dev.onObvo_tapHeld (d : Dev) (f : Obvo → Obvo) : (d.onObvo f).tapHeld = d.tapHeld := rfl
@[simp] theorem Dev.onObvo_caps (d : Dev) (f : Obvo → Obvo) : (d.onObvo f).caps = d.caps := rfl
@[simp] theorem Dev.onObvo_pats (d : Dev) (f : Obvo → Obvo) : (d.onObvo f).pats = d.pats := rfl
@[simp] theorem Dev.onObvo_injs (d : Dev) (f : Obvo → Obvo) : (d.onObvo f).injs = d.injs := rfl
@[simp] theorem Dev.onObvo_clkDead (d : Dev) (f : Obvo → Obvo) : (d.onObvo f).clkDead = d.clkDead := rfl
@[simp] theorem Dev.onObvo_lost (d : Dev) (f : Obvo → Obvo) : (d.onObvo f).lost = d.lost := rfl
@[simp] theorem Dev.onObvo_draws (d : Dev) (f : Obvo → Obvo) : (d.onObvo f).draws = d.draws := rfl
@[simp] theorem Dev.onObvo_out (d : Dev) (f : Obvo → Obvo) : (d.onObvo f).out = d.out := rfl

@[simp] theorem Dev.setLaunch_regs (d : Dev) (g : Nat) (l : Launch) : (d.setLaunch g l).regs = d.regs := rfl
@[simp] theorem Dev.setLaunch_frm (d : Dev) (g : Nat) (l : Launch) : (d.setLaunch g l).frm = d.frm := rfl
@[simp] theorem Dev.setLaunch_raised (d : Dev) (g : Nat) (l : Launch) : (d.setLaunch g l).raised = d.raised := rfl
@[simp] theorem Dev.setLaunch_words (d : Dev) (g : Nat) (l : Launch) : (d.setLaunch g l).words = d.words := rfl
@[simp] theorem Dev.setLaunch_latches (d : Dev) (g : Nat) (l : Launch) : (d.setLaunch g l).latches = d.latches := rfl
@[simp] theorem Dev.setLaunch_dies (d : Dev) (g : Nat) (l : Launch) : (d.setLaunch g l).dies = d.dies := rfl
@[simp] theorem Dev.setLaunch_hbms (d : Dev) (g : Nat) (l : Launch) : (d.setLaunch g l).hbms = d.hbms := rfl
@[simp] theorem Dev.setLaunch_bridges (d : Dev) (g : Nat) (l : Launch) : (d.setLaunch g l).bridges = d.bridges := rfl
@[simp] theorem Dev.setLaunch_lanes (d : Dev) (g : Nat) (l : Launch) : (d.setLaunch g l).lanes = d.lanes := rfl
@[simp] theorem Dev.setLaunch_ports (d : Dev) (g : Nat) (l : Launch) : (d.setLaunch g l).ports = d.ports := rfl
@[simp] theorem Dev.setLaunch_pkts (d : Dev) (g : Nat) (l : Launch) : (d.setLaunch g l).pkts = d.pkts := rfl
@[simp] theorem Dev.setLaunch_nextId (d : Dev) (g : Nat) (l : Launch) : (d.setLaunch g l).nextId = d.nextId := rfl
@[simp] theorem Dev.setLaunch_queue (d : Dev) (g : Nat) (l : Launch) : (d.setLaunch g l).queue = d.queue := rfl
@[simp] theorem Dev.setLaunch_bufs (d : Dev) (g : Nat) (l : Launch) : (d.setLaunch g l).bufs = d.bufs := rfl
@[simp] theorem Dev.setLaunch_quarBufs (d : Dev) (g : Nat) (l : Launch) : (d.setLaunch g l).quarBufs = d.quarBufs := rfl
@[simp] theorem Dev.setLaunch_bud (d : Dev) (g : Nat) (l : Launch) : (d.setLaunch g l).bud = d.bud := rfl
@[simp] theorem Dev.setLaunch_corr (d : Dev) (g : Nat) (l : Launch) : (d.setLaunch g l).corr = d.corr := rfl
@[simp] theorem Dev.setLaunch_stages (d : Dev) (g : Nat) (l : Launch) : (d.setLaunch g l).stages = d.stages := rfl
@[simp] theorem Dev.setLaunch_trks (d : Dev) (g : Nat) (l : Launch) : (d.setLaunch g l).trks = d.trks := rfl
@[simp] theorem Dev.setLaunch_samp (d : Dev) (g : Nat) (l : Launch) : (d.setLaunch g l).samp = d.samp := rfl
@[simp] theorem Dev.setLaunch_samples (d : Dev) (g : Nat) (l : Launch) : (d.setLaunch g l).samples = d.samples := rfl
@[simp] theorem Dev.setLaunch_coordV (d : Dev) (g : Nat) (l : Launch) : (d.setLaunch g l).coordV = d.coordV := rfl
@[simp] theorem Dev.setLaunch_coord (d : Dev) (g : Nat) (l : Launch) : (d.setLaunch g l).coord = d.coord := rfl
@[simp] theorem Dev.setLaunch_ract (d : Dev) (g : Nat) (l : Launch) : (d.setLaunch g l).ract = d.ract := rfl
@[simp] theorem Dev.setLaunch_ovl (d : Dev) (g : Nat) (l : Launch) : (d.setLaunch g l).ovl = d.ovl := rfl
@[simp] theorem Dev.setLaunch_lfsr (d : Dev) (g : Nat) (l : Launch) : (d.setLaunch g l).lfsr = d.lfsr := rfl
@[simp] theorem Dev.setLaunch_inj (d : Dev) (g : Nat) (l : Launch) : (d.setLaunch g l).inj = d.inj := rfl
@[simp] theorem Dev.setLaunch_injAll (d : Dev) (g : Nat) (l : Launch) : (d.setLaunch g l).injAll = d.injAll := rfl
@[simp] theorem Dev.setLaunch_oxbow (d : Dev) (g : Nat) (l : Launch) : (d.setLaunch g l).oxbow = d.oxbow := rfl
@[simp] theorem Dev.setLaunch_reps (d : Dev) (g : Nat) (l : Launch) : (d.setLaunch g l).reps = d.reps := rfl
@[simp] theorem Dev.setLaunch_chunks (d : Dev) (g : Nat) (l : Launch) : (d.setLaunch g l).chunks = d.chunks := rfl
@[simp] theorem Dev.setLaunch_launches (d : Dev) (g : Nat) (l : Launch) : (d.setLaunch g l).launches = mapSet {} d.launches g l := rfl
@[simp] theorem Dev.setLaunch_units (d : Dev) (g : Nat) (l : Launch) : (d.setLaunch g l).units = d.units := rfl
@[simp] theorem Dev.setLaunch_rounds (d : Dev) (g : Nat) (l : Launch) : (d.setLaunch g l).rounds = d.rounds := rfl
@[simp] theorem Dev.setLaunch_xcount (d : Dev) (g : Nat) (l : Launch) : (d.setLaunch g l).xcount = d.xcount := rfl
@[simp] theorem Dev.setLaunch_xwin (d : Dev) (g : Nat) (l : Launch) : (d.setLaunch g l).xwin = d.xwin := rfl
@[simp] theorem Dev.setLaunch_pend (d : Dev) (g : Nat) (l : Launch) : (d.setLaunch g l).pend = d.pend := rfl
@[simp] theorem Dev.setLaunch_reqs (d : Dev) (g : Nat) (l : Launch) : (d.setLaunch g l).reqs = d.reqs := rfl
@[simp] theorem Dev.setLaunch_stackU (d : Dev) (g : Nat) (l : Launch) : (d.setLaunch g l).stackU = d.stackU := rfl
@[simp] theorem Dev.setLaunch_bad (d : Dev) (g : Nat) (l : Launch) : (d.setLaunch g l).bad = d.bad := rfl
@[simp] theorem Dev.setLaunch_weak (d : Dev) (g : Nat) (l : Launch) : (d.setLaunch g l).weak = d.weak := rfl
@[simp] theorem Dev.setLaunch_dueRows (d : Dev) (g : Nat) (l : Launch) : (d.setLaunch g l).dueRows = d.dueRows := rfl
@[simp] theorem Dev.setLaunch_plat (d : Dev) (g : Nat) (l : Launch) : (d.setLaunch g l).plat = d.plat := rfl
@[simp] theorem Dev.setLaunch_inputs (d : Dev) (g : Nat) (l : Launch) : (d.setLaunch g l).inputs = d.inputs := rfl
@[simp] theorem Dev.setLaunch_level1 (d : Dev) (g : Nat) (l : Launch) : (d.setLaunch g l).level1 = d.level1 := rfl
@[simp] theorem Dev.setLaunch_obvo (d : Dev) (g : Nat) (l : Launch) : (d.setLaunch g l).obvo = d.obvo := rfl
@[simp] theorem Dev.setLaunch_col (d : Dev) (g : Nat) (l : Launch) : (d.setLaunch g l).col = d.col := rfl
@[simp] theorem Dev.setLaunch_pwr (d : Dev) (g : Nat) (l : Launch) : (d.setLaunch g l).pwr = d.pwr := rfl
@[simp] theorem Dev.setLaunch_inService (d : Dev) (g : Nat) (l : Launch) : (d.setLaunch g l).inService = d.inService := rfl
@[simp] theorem Dev.setLaunch_dpBusy (d : Dev) (g : Nat) (l : Launch) : (d.setLaunch g l).dpBusy = d.dpBusy := rfl
@[simp] theorem Dev.setLaunch_dpDue (d : Dev) (g : Nat) (l : Launch) : (d.setLaunch g l).dpDue = d.dpDue := rfl
@[simp] theorem Dev.setLaunch_dpAt (d : Dev) (g : Nat) (l : Launch) : (d.setLaunch g l).dpAt = d.dpAt := rfl
@[simp] theorem Dev.setLaunch_stackLost (d : Dev) (g : Nat) (l : Launch) : (d.setLaunch g l).stackLost = d.stackLost := rfl
@[simp] theorem Dev.setLaunch_stby (d : Dev) (g : Nat) (l : Launch) : (d.setLaunch g l).stby = d.stby := rfl
@[simp] theorem Dev.setLaunch_resetLow (d : Dev) (g : Nat) (l : Launch) : (d.setLaunch g l).resetLow = d.resetLow := rfl
@[simp] theorem Dev.setLaunch_coldHeld (d : Dev) (g : Nat) (l : Launch) : (d.setLaunch g l).coldHeld = d.coldHeld := rfl
@[simp] theorem Dev.setLaunch_rails (d : Dev) (g : Nat) (l : Launch) : (d.setLaunch g l).rails = d.rails := rfl
@[simp] theorem Dev.setLaunch_straps (d : Dev) (g : Nat) (l : Launch) : (d.setLaunch g l).straps = d.straps := rfl
@[simp] theorem Dev.setLaunch_evDiscarded (d : Dev) (g : Nat) (l : Launch) : (d.setLaunch g l).evDiscarded = d.evDiscarded := rfl
@[simp] theorem Dev.setLaunch_cntServed (d : Dev) (g : Nat) (l : Launch) : (d.setLaunch g l).cntServed = d.cntServed := rfl
@[simp] theorem Dev.setLaunch_bwin (d : Dev) (g : Nat) (l : Launch) : (d.setLaunch g l).bwin = d.bwin := rfl
@[simp] theorem Dev.setLaunch_bwWin (d : Dev) (g : Nat) (l : Launch) : (d.setLaunch g l).bwWin = d.bwWin := rfl
@[simp] theorem Dev.setLaunch_bwAt (d : Dev) (g : Nat) (l : Launch) : (d.setLaunch g l).bwAt = d.bwAt := rfl
@[simp] theorem Dev.setLaunch_snapDue (d : Dev) (g : Nat) (l : Launch) : (d.setLaunch g l).snapDue = d.snapDue := rfl
@[simp] theorem Dev.setLaunch_wmarkDue (d : Dev) (g : Nat) (l : Launch) : (d.setLaunch g l).wmarkDue = d.wmarkDue := rfl
@[simp] theorem Dev.setLaunch_ledLast (d : Dev) (g : Nat) (l : Launch) : (d.setLaunch g l).ledLast = d.ledLast := rfl
@[simp] theorem Dev.setLaunch_ir (d : Dev) (g : Nat) (l : Launch) : (d.setLaunch g l).ir = d.ir := rfl
@[simp] theorem Dev.setLaunch_bsr (d : Dev) (g : Nat) (l : Launch) : (d.setLaunch g l).bsr = d.bsr := rfl
@[simp] theorem Dev.setLaunch_tapHeld (d : Dev) (g : Nat) (l : Launch) : (d.setLaunch g l).tapHeld = d.tapHeld := rfl
@[simp] theorem Dev.setLaunch_caps (d : Dev) (g : Nat) (l : Launch) : (d.setLaunch g l).caps = d.caps := rfl
@[simp] theorem Dev.setLaunch_pats (d : Dev) (g : Nat) (l : Launch) : (d.setLaunch g l).pats = d.pats := rfl
@[simp] theorem Dev.setLaunch_injs (d : Dev) (g : Nat) (l : Launch) : (d.setLaunch g l).injs = d.injs := rfl
@[simp] theorem Dev.setLaunch_clkDead (d : Dev) (g : Nat) (l : Launch) : (d.setLaunch g l).clkDead = d.clkDead := rfl
@[simp] theorem Dev.setLaunch_lost (d : Dev) (g : Nat) (l : Launch) : (d.setLaunch g l).lost = d.lost := rfl
@[simp] theorem Dev.setLaunch_draws (d : Dev) (g : Nat) (l : Launch) : (d.setLaunch g l).draws = d.draws := rfl
@[simp] theorem Dev.setLaunch_out (d : Dev) (g : Nat) (l : Launch) : (d.setLaunch g l).out = d.out := rfl

@[simp] theorem Dev.setRnd_regs (d : Dev) (r : Nat) (v : Round) : (d.setRnd r v).regs = d.regs := rfl
@[simp] theorem Dev.setRnd_frm (d : Dev) (r : Nat) (v : Round) : (d.setRnd r v).frm = d.frm := rfl
@[simp] theorem Dev.setRnd_raised (d : Dev) (r : Nat) (v : Round) : (d.setRnd r v).raised = d.raised := rfl
@[simp] theorem Dev.setRnd_words (d : Dev) (r : Nat) (v : Round) : (d.setRnd r v).words = d.words := rfl
@[simp] theorem Dev.setRnd_latches (d : Dev) (r : Nat) (v : Round) : (d.setRnd r v).latches = d.latches := rfl
@[simp] theorem Dev.setRnd_dies (d : Dev) (r : Nat) (v : Round) : (d.setRnd r v).dies = d.dies := rfl
@[simp] theorem Dev.setRnd_hbms (d : Dev) (r : Nat) (v : Round) : (d.setRnd r v).hbms = d.hbms := rfl
@[simp] theorem Dev.setRnd_bridges (d : Dev) (r : Nat) (v : Round) : (d.setRnd r v).bridges = d.bridges := rfl
@[simp] theorem Dev.setRnd_lanes (d : Dev) (r : Nat) (v : Round) : (d.setRnd r v).lanes = d.lanes := rfl
@[simp] theorem Dev.setRnd_ports (d : Dev) (r : Nat) (v : Round) : (d.setRnd r v).ports = d.ports := rfl
@[simp] theorem Dev.setRnd_pkts (d : Dev) (r : Nat) (v : Round) : (d.setRnd r v).pkts = d.pkts := rfl
@[simp] theorem Dev.setRnd_nextId (d : Dev) (r : Nat) (v : Round) : (d.setRnd r v).nextId = d.nextId := rfl
@[simp] theorem Dev.setRnd_queue (d : Dev) (r : Nat) (v : Round) : (d.setRnd r v).queue = d.queue := rfl
@[simp] theorem Dev.setRnd_bufs (d : Dev) (r : Nat) (v : Round) : (d.setRnd r v).bufs = d.bufs := rfl
@[simp] theorem Dev.setRnd_quarBufs (d : Dev) (r : Nat) (v : Round) : (d.setRnd r v).quarBufs = d.quarBufs := rfl
@[simp] theorem Dev.setRnd_bud (d : Dev) (r : Nat) (v : Round) : (d.setRnd r v).bud = d.bud := rfl
@[simp] theorem Dev.setRnd_corr (d : Dev) (r : Nat) (v : Round) : (d.setRnd r v).corr = d.corr := rfl
@[simp] theorem Dev.setRnd_stages (d : Dev) (r : Nat) (v : Round) : (d.setRnd r v).stages = d.stages := rfl
@[simp] theorem Dev.setRnd_trks (d : Dev) (r : Nat) (v : Round) : (d.setRnd r v).trks = d.trks := rfl
@[simp] theorem Dev.setRnd_samp (d : Dev) (r : Nat) (v : Round) : (d.setRnd r v).samp = d.samp := rfl
@[simp] theorem Dev.setRnd_samples (d : Dev) (r : Nat) (v : Round) : (d.setRnd r v).samples = d.samples := rfl
@[simp] theorem Dev.setRnd_coordV (d : Dev) (r : Nat) (v : Round) : (d.setRnd r v).coordV = d.coordV := rfl
@[simp] theorem Dev.setRnd_coord (d : Dev) (r : Nat) (v : Round) : (d.setRnd r v).coord = d.coord := rfl
@[simp] theorem Dev.setRnd_ract (d : Dev) (r : Nat) (v : Round) : (d.setRnd r v).ract = d.ract := rfl
@[simp] theorem Dev.setRnd_ovl (d : Dev) (r : Nat) (v : Round) : (d.setRnd r v).ovl = d.ovl := rfl
@[simp] theorem Dev.setRnd_lfsr (d : Dev) (r : Nat) (v : Round) : (d.setRnd r v).lfsr = d.lfsr := rfl
@[simp] theorem Dev.setRnd_inj (d : Dev) (r : Nat) (v : Round) : (d.setRnd r v).inj = d.inj := rfl
@[simp] theorem Dev.setRnd_injAll (d : Dev) (r : Nat) (v : Round) : (d.setRnd r v).injAll = d.injAll := rfl
@[simp] theorem Dev.setRnd_oxbow (d : Dev) (r : Nat) (v : Round) : (d.setRnd r v).oxbow = d.oxbow := rfl
@[simp] theorem Dev.setRnd_reps (d : Dev) (r : Nat) (v : Round) : (d.setRnd r v).reps = d.reps := rfl
@[simp] theorem Dev.setRnd_chunks (d : Dev) (r : Nat) (v : Round) : (d.setRnd r v).chunks = d.chunks := rfl
@[simp] theorem Dev.setRnd_launches (d : Dev) (r : Nat) (v : Round) : (d.setRnd r v).launches = d.launches := rfl
@[simp] theorem Dev.setRnd_units (d : Dev) (r : Nat) (v : Round) : (d.setRnd r v).units = d.units := rfl
@[simp] theorem Dev.setRnd_rounds (d : Dev) (r : Nat) (v : Round) : (d.setRnd r v).rounds = mapSet {} d.rounds r v := rfl
@[simp] theorem Dev.setRnd_xcount (d : Dev) (r : Nat) (v : Round) : (d.setRnd r v).xcount = d.xcount := rfl
@[simp] theorem Dev.setRnd_xwin (d : Dev) (r : Nat) (v : Round) : (d.setRnd r v).xwin = d.xwin := rfl
@[simp] theorem Dev.setRnd_pend (d : Dev) (r : Nat) (v : Round) : (d.setRnd r v).pend = d.pend := rfl
@[simp] theorem Dev.setRnd_reqs (d : Dev) (r : Nat) (v : Round) : (d.setRnd r v).reqs = d.reqs := rfl
@[simp] theorem Dev.setRnd_stackU (d : Dev) (r : Nat) (v : Round) : (d.setRnd r v).stackU = d.stackU := rfl
@[simp] theorem Dev.setRnd_bad (d : Dev) (r : Nat) (v : Round) : (d.setRnd r v).bad = d.bad := rfl
@[simp] theorem Dev.setRnd_weak (d : Dev) (r : Nat) (v : Round) : (d.setRnd r v).weak = d.weak := rfl
@[simp] theorem Dev.setRnd_dueRows (d : Dev) (r : Nat) (v : Round) : (d.setRnd r v).dueRows = d.dueRows := rfl
@[simp] theorem Dev.setRnd_plat (d : Dev) (r : Nat) (v : Round) : (d.setRnd r v).plat = d.plat := rfl
@[simp] theorem Dev.setRnd_inputs (d : Dev) (r : Nat) (v : Round) : (d.setRnd r v).inputs = d.inputs := rfl
@[simp] theorem Dev.setRnd_level1 (d : Dev) (r : Nat) (v : Round) : (d.setRnd r v).level1 = d.level1 := rfl
@[simp] theorem Dev.setRnd_obvo (d : Dev) (r : Nat) (v : Round) : (d.setRnd r v).obvo = d.obvo := rfl
@[simp] theorem Dev.setRnd_col (d : Dev) (r : Nat) (v : Round) : (d.setRnd r v).col = d.col := rfl
@[simp] theorem Dev.setRnd_pwr (d : Dev) (r : Nat) (v : Round) : (d.setRnd r v).pwr = d.pwr := rfl
@[simp] theorem Dev.setRnd_inService (d : Dev) (r : Nat) (v : Round) : (d.setRnd r v).inService = d.inService := rfl
@[simp] theorem Dev.setRnd_dpBusy (d : Dev) (r : Nat) (v : Round) : (d.setRnd r v).dpBusy = d.dpBusy := rfl
@[simp] theorem Dev.setRnd_dpDue (d : Dev) (r : Nat) (v : Round) : (d.setRnd r v).dpDue = d.dpDue := rfl
@[simp] theorem Dev.setRnd_dpAt (d : Dev) (r : Nat) (v : Round) : (d.setRnd r v).dpAt = d.dpAt := rfl
@[simp] theorem Dev.setRnd_stackLost (d : Dev) (r : Nat) (v : Round) : (d.setRnd r v).stackLost = d.stackLost := rfl
@[simp] theorem Dev.setRnd_stby (d : Dev) (r : Nat) (v : Round) : (d.setRnd r v).stby = d.stby := rfl
@[simp] theorem Dev.setRnd_resetLow (d : Dev) (r : Nat) (v : Round) : (d.setRnd r v).resetLow = d.resetLow := rfl
@[simp] theorem Dev.setRnd_coldHeld (d : Dev) (r : Nat) (v : Round) : (d.setRnd r v).coldHeld = d.coldHeld := rfl
@[simp] theorem Dev.setRnd_rails (d : Dev) (r : Nat) (v : Round) : (d.setRnd r v).rails = d.rails := rfl
@[simp] theorem Dev.setRnd_straps (d : Dev) (r : Nat) (v : Round) : (d.setRnd r v).straps = d.straps := rfl
@[simp] theorem Dev.setRnd_evDiscarded (d : Dev) (r : Nat) (v : Round) : (d.setRnd r v).evDiscarded = d.evDiscarded := rfl
@[simp] theorem Dev.setRnd_cntServed (d : Dev) (r : Nat) (v : Round) : (d.setRnd r v).cntServed = d.cntServed := rfl
@[simp] theorem Dev.setRnd_bwin (d : Dev) (r : Nat) (v : Round) : (d.setRnd r v).bwin = d.bwin := rfl
@[simp] theorem Dev.setRnd_bwWin (d : Dev) (r : Nat) (v : Round) : (d.setRnd r v).bwWin = d.bwWin := rfl
@[simp] theorem Dev.setRnd_bwAt (d : Dev) (r : Nat) (v : Round) : (d.setRnd r v).bwAt = d.bwAt := rfl
@[simp] theorem Dev.setRnd_snapDue (d : Dev) (r : Nat) (v : Round) : (d.setRnd r v).snapDue = d.snapDue := rfl
@[simp] theorem Dev.setRnd_wmarkDue (d : Dev) (r : Nat) (v : Round) : (d.setRnd r v).wmarkDue = d.wmarkDue := rfl
@[simp] theorem Dev.setRnd_ledLast (d : Dev) (r : Nat) (v : Round) : (d.setRnd r v).ledLast = d.ledLast := rfl
@[simp] theorem Dev.setRnd_ir (d : Dev) (r : Nat) (v : Round) : (d.setRnd r v).ir = d.ir := rfl
@[simp] theorem Dev.setRnd_bsr (d : Dev) (r : Nat) (v : Round) : (d.setRnd r v).bsr = d.bsr := rfl
@[simp] theorem Dev.setRnd_tapHeld (d : Dev) (r : Nat) (v : Round) : (d.setRnd r v).tapHeld = d.tapHeld := rfl
@[simp] theorem Dev.setRnd_caps (d : Dev) (r : Nat) (v : Round) : (d.setRnd r v).caps = d.caps := rfl
@[simp] theorem Dev.setRnd_pats (d : Dev) (r : Nat) (v : Round) : (d.setRnd r v).pats = d.pats := rfl
@[simp] theorem Dev.setRnd_injs (d : Dev) (r : Nat) (v : Round) : (d.setRnd r v).injs = d.injs := rfl
@[simp] theorem Dev.setRnd_clkDead (d : Dev) (r : Nat) (v : Round) : (d.setRnd r v).clkDead = d.clkDead := rfl
@[simp] theorem Dev.setRnd_lost (d : Dev) (r : Nat) (v : Round) : (d.setRnd r v).lost = d.lost := rfl
@[simp] theorem Dev.setRnd_draws (d : Dev) (r : Nat) (v : Round) : (d.setRnd r v).draws = d.draws := rfl
@[simp] theorem Dev.setRnd_out (d : Dev) (r : Nat) (v : Round) : (d.setRnd r v).out = d.out := rfl

@[simp] theorem State.onDev_pending (f : Dev → Dev) (s : State) : (s.onDev f).pending = s.pending := rfl
@[simp] theorem State.onDev_dev (f : Dev → Dev) (s : State) : (s.onDev f).dev = f s.dev := rfl
@[simp] theorem State.onDev_nv (f : Dev → Dev) (s : State) : (s.onDev f).nv = s.nv := rfl
@[simp] theorem State.onDev_mem (f : Dev → Dev) (s : State) : (s.onDev f).mem = s.mem := rfl

/-! ## Reads after writes -/

theorem Dev.rd_wr (d : Dev) (a b : Nat) (v : Word) : (d.wr a v).rd b = if b = a then v else d.rd b := by
  unfold Dev.rd Dev.wr
  split
  · next h => subst h; simp
  · next h => simp [h]
@[simp] theorem Dev.rd_wr_self (d : Dev) (a : Nat) (v : Word) : (d.wr a v).rd a = v := by simp [Dev.rd_wr]
theorem Dev.rd_wr_ne (d : Dev) {a b : Nat} (v : Word) (h : b ≠ a) : (d.wr a v).rd b = d.rd b := by simp [Dev.rd_wr, h]

@[simp] theorem Dev.lane_setLane_self (d : Dev) (l : Nat) (v : Lane) : (d.setLane l v).lane l = v := by simp [Dev.lane, Dev.setLane]
theorem Dev.lane_setLane_ne (d : Dev) {l m : Nat} (v : Lane) (h : m ≠ l) : (d.setLane l v).lane m = d.lane m := by
  simp [Dev.lane, Dev.setLane, h]
@[simp] theorem Dev.port_setPort_self (d : Dev) (p : Nat) (v : Port) : (d.setPort p v).port p = v := by simp [Dev.port, Dev.setPort]
theorem Dev.port_setPort_ne (d : Dev) {p q : Nat} (v : Port) (h : q ≠ p) : (d.setPort p v).port q = d.port q := by
  simp [Dev.port, Dev.setPort, h]
@[simp] theorem Dev.launch_setLaunch_self (d : Dev) (g : Nat) (l : Launch) : (d.setLaunch g l).launch g = l := by
  simp [Dev.launch, Dev.setLaunch]
@[simp] theorem Dev.rnd_setRnd_self (d : Dev) (r : Nat) (v : Round) : (d.setRnd r v).rnd r = v := by simp [Dev.rnd, Dev.setRnd]

/-- A read of a held register looks at the registers alone. -/
theorem Dev.rd_congr {d e : Dev} (h : d.regs = e.regs) (a : Nat) : d.rd a = e.rd a := by simp [Dev.rd, h]
theorem Dev.lane_congr {d e : Dev} (h : d.lanes = e.lanes) (l : Nat) : d.lane l = e.lane l := by simp [Dev.lane, h]
theorem Dev.port_congr {d e : Dev} (h : d.ports = e.ports) (p : Nat) : d.port p = e.port p := by simp [Dev.port, h]

end Sys2Proof.Machine
end

