-- ==== Sys2Proof/Laws/Ops.lean ====
section
/-! SUPPORT. The laws of the shared operations: what raising a condition, an event record and a control write can change. -/

namespace Sys2Proof.Machine

/-! ## Raising a condition -/

/-- Everything that holding a condition word can change: registers, the words held this frame, ALERT_N. -/
theorem Dev.holdAt_eq (d : Dev) (b c det i : Nat) : ∃ r q a e, d.holdAt b c det i =
    { d with regs := r, raised := q, obvo := { d.obvo with alert := a, alertDue := e } } := by
  unfold Dev.holdAt
  dsimp only
  split
  · exact ⟨d.regs, d.raised, d.obvo.alert, d.obvo.alertDue, rfl⟩
  · exact ⟨_, _, _, _, rfl⟩

@[simp] theorem Dev.holdAt_frm (d : Dev) (b c det i : Nat) : (d.holdAt b c det i).frm = d.frm := by
  obtain ⟨_, _, _, _, h⟩ := d.holdAt_eq b c det i; rw [h]
@[simp] theorem Dev.holdAt_words (d : Dev) (b c det i : Nat) : (d.holdAt b c det i).words = d.words := by
  obtain ⟨_, _, _, _, h⟩ := d.holdAt_eq b c det i; rw [h]
@[simp] theorem Dev.holdAt_latches (d : Dev) (b c det i : Nat) : (d.holdAt b c det i).latches = d.latches := by
  obtain ⟨_, _, _, _, h⟩ := d.holdAt_eq b c det i; rw [h]
@[simp] theorem Dev.holdAt_dies (d : Dev) (b c det i : Nat) : (d.holdAt b c det i).dies = d.dies := by
  obtain ⟨_, _, _, _, h⟩ := d.holdAt_eq b c det i; rw [h]
@[simp] theorem Dev.holdAt_hbms (d : Dev) (b c det i : Nat) : (d.holdAt b c det i).hbms = d.hbms := by
  obtain ⟨_, _, _, _, h⟩ := d.holdAt_eq b c det i; rw [h]
@[simp] theorem Dev.holdAt_bridges (d : Dev) (b c det i : Nat) : (d.holdAt b c det i).bridges = d.bridges := by
  obtain ⟨_, _, _, _, h⟩ := d.holdAt_eq b c det i; rw [h]
@[simp] theorem Dev.holdAt_lanes (d : Dev) (b c det i : Nat) : (d.holdAt b c det i).lanes = d.lanes := by
  obtain ⟨_, _, _, _, h⟩ := d.holdAt_eq b c det i; rw [h]
@[simp] theorem Dev.holdAt_ports (d : Dev) (b c det i : Nat) : (d.holdAt b c det i).ports = d.ports := by
  obtain ⟨_, _, _, _, h⟩ := d.holdAt_eq b c det i; rw [h]
@[simp] theorem Dev.holdAt_pkts (d : Dev) (b c det i : Nat) : (d.holdAt b c det i).pkts = d.pkts := by
  obtain ⟨_, _, _, _, h⟩ := d.holdAt_eq b c det i; rw [h]
@[simp] theorem Dev.holdAt_nextId (d : Dev) (b c det i : Nat) : (d.holdAt b c det i).nextId = d.nextId := by
  obtain ⟨_, _, _, _, h⟩ := d.holdAt_eq b c det i; rw [h]
@[simp] theorem Dev.holdAt_queue (d : Dev) (b c det i : Nat) : (d.holdAt b c det i).queue = d.queue := by
  obtain ⟨_, _, _, _, h⟩ := d.holdAt_eq b c det i; rw [h]
@[simp] theorem Dev.holdAt_bufs (d : Dev) (b c det i : Nat) : (d.holdAt b c det i).bufs = d.bufs := by
  obtain ⟨_, _, _, _, h⟩ := d.holdAt_eq b c det i; rw [h]
@[simp] theorem Dev.holdAt_quarBufs (d : Dev) (b c det i : Nat) : (d.holdAt b c det i).quarBufs = d.quarBufs := by
  obtain ⟨_, _, _, _, h⟩ := d.holdAt_eq b c det i; rw [h]
@[simp] theorem Dev.holdAt_bud (d : Dev) (b c det i : Nat) : (d.holdAt b c det i).bud = d.bud := by
  obtain ⟨_, _, _, _, h⟩ := d.holdAt_eq b c det i; rw [h]
@[simp] theorem Dev.holdAt_corr (d : Dev) (b c det i : Nat) : (d.holdAt b c det i).corr = d.corr := by
  obtain ⟨_, _, _, _, h⟩ := d.holdAt_eq b c det i; rw [h]
@[simp] theorem Dev.holdAt_stages (d : Dev) (b c det i : Nat) : (d.holdAt b c det i).stages = d.stages := by
  obtain ⟨_, _, _, _, h⟩ := d.holdAt_eq b c det i; rw [h]
@[simp] theorem Dev.holdAt_trks (d : Dev) (b c det i : Nat) : (d.holdAt b c det i).trks = d.trks := by
  obtain ⟨_, _, _, _, h⟩ := d.holdAt_eq b c det i; rw [h]
@[simp] theorem Dev.holdAt_samp (d : Dev) (b c det i : Nat) : (d.holdAt b c det i).samp = d.samp := by
  obtain ⟨_, _, _, _, h⟩ := d.holdAt_eq b c det i; rw [h]
@[simp] theorem Dev.holdAt_samples (d : Dev) (b c det i : Nat) : (d.holdAt b c det i).samples = d.samples := by
  obtain ⟨_, _, _, _, h⟩ := d.holdAt_eq b c det i; rw [h]
@[simp] theorem Dev.holdAt_coordV (d : Dev) (b c det i : Nat) : (d.holdAt b c det i).coordV = d.coordV := by
  obtain ⟨_, _, _, _, h⟩ := d.holdAt_eq b c det i; rw [h]
@[simp] theorem Dev.holdAt_coord (d : Dev) (b c det i : Nat) : (d.holdAt b c det i).coord = d.coord := by
  obtain ⟨_, _, _, _, h⟩ := d.holdAt_eq b c det i; rw [h]
@[simp] theorem Dev.holdAt_ract (d : Dev) (b c det i : Nat) : (d.holdAt b c det i).ract = d.ract := by
  obtain ⟨_, _, _, _, h⟩ := d.holdAt_eq b c det i; rw [h]
@[simp] theorem Dev.holdAt_ovl (d : Dev) (b c det i : Nat) : (d.holdAt b c det i).ovl = d.ovl := by
  obtain ⟨_, _, _, _, h⟩ := d.holdAt_eq b c det i; rw [h]
@[simp] theorem Dev.holdAt_lfsr (d : Dev) (b c det i : Nat) : (d.holdAt b c det i).lfsr = d.lfsr := by
  obtain ⟨_, _, _, _, h⟩ := d.holdAt_eq b c det i; rw [h]
@[simp] theorem Dev.holdAt_inj (d : Dev) (b c det i : Nat) : (d.holdAt b c det i).inj = d.inj := by
  obtain ⟨_, _, _, _, h⟩ := d.holdAt_eq b c det i; rw [h]
@[simp] theorem Dev.holdAt_injAll (d : Dev) (b c det i : Nat) : (d.holdAt b c det i).injAll = d.injAll := by
  obtain ⟨_, _, _, _, h⟩ := d.holdAt_eq b c det i; rw [h]
@[simp] theorem Dev.holdAt_oxbow (d : Dev) (b c det i : Nat) : (d.holdAt b c det i).oxbow = d.oxbow := by
  obtain ⟨_, _, _, _, h⟩ := d.holdAt_eq b c det i; rw [h]
@[simp] theorem Dev.holdAt_reps (d : Dev) (b c det i : Nat) : (d.holdAt b c det i).reps = d.reps := by
  obtain ⟨_, _, _, _, h⟩ := d.holdAt_eq b c det i; rw [h]
@[simp] theorem Dev.holdAt_chunks (d : Dev) (b c det i : Nat) : (d.holdAt b c det i).chunks = d.chunks := by
  obtain ⟨_, _, _, _, h⟩ := d.holdAt_eq b c det i; rw [h]
@[simp] theorem Dev.holdAt_launches (d : Dev) (b c det i : Nat) : (d.holdAt b c det i).launches = d.launches := by
  obtain ⟨_, _, _, _, h⟩ := d.holdAt_eq b c det i; rw [h]
@[simp] theorem Dev.holdAt_units (d : Dev) (b c det i : Nat) : (d.holdAt b c det i).units = d.units := by
  obtain ⟨_, _, _, _, h⟩ := d.holdAt_eq b c det i; rw [h]
@[simp] theorem Dev.holdAt_rounds (d : Dev) (b c det i : Nat) : (d.holdAt b c det i).rounds = d.rounds := by
  obtain ⟨_, _, _, _, h⟩ := d.holdAt_eq b c det i; rw [h]
@[simp] theorem Dev.holdAt_xcount (d : Dev) (b c det i : Nat) : (d.holdAt b c det i).xcount = d.xcount := by
  obtain ⟨_, _, _, _, h⟩ := d.holdAt_eq b c det i; rw [h]
@[simp] theorem Dev.holdAt_xwin (d : Dev) (b c det i : Nat) : (d.holdAt b c det i).xwin = d.xwin := by
  obtain ⟨_, _, _, _, h⟩ := d.holdAt_eq b c det i; rw [h]
@[simp] theorem Dev.holdAt_pend (d : Dev) (b c det i : Nat) : (d.holdAt b c det i).pend = d.pend := by
  obtain ⟨_, _, _, _, h⟩ := d.holdAt_eq b c det i; rw [h]
@[simp] theorem Dev.holdAt_reqs (d : Dev) (b c det i : Nat) : (d.holdAt b c det i).reqs = d.reqs := by
  obtain ⟨_, _, _, _, h⟩ := d.holdAt_eq b c det i; rw [h]
@[simp] theorem Dev.holdAt_stackU (d : Dev) (b c det i : Nat) : (d.holdAt b c det i).stackU = d.stackU := by
  obtain ⟨_, _, _, _, h⟩ := d.holdAt_eq b c det i; rw [h]
@[simp] theorem Dev.holdAt_bad (d : Dev) (b c det i : Nat) : (d.holdAt b c det i).bad = d.bad := by
  obtain ⟨_, _, _, _, h⟩ := d.holdAt_eq b c det i; rw [h]
@[simp] theorem Dev.holdAt_weak (d : Dev) (b c det i : Nat) : (d.holdAt b c det i).weak = d.weak := by
  obtain ⟨_, _, _, _, h⟩ := d.holdAt_eq b c det i; rw [h]
@[simp] theorem Dev.holdAt_dueRows (d : Dev) (b c det i : Nat) : (d.holdAt b c det i).dueRows = d.dueRows := by
  obtain ⟨_, _, _, _, h⟩ := d.holdAt_eq b c det i; rw [h]
@[simp] theorem Dev.holdAt_plat (d : Dev) (b c det i : Nat) : (d.holdAt b c det i).plat = d.plat := by
  obtain ⟨_, _, _, _, h⟩ := d.holdAt_eq b c det i; rw [h]
@[simp] theorem Dev.holdAt_inputs (d : Dev) (b c det i : Nat) : (d.holdAt b c det i).inputs = d.inputs := by
  obtain ⟨_, _, _, _, h⟩ := d.holdAt_eq b c det i; rw [h]
@[simp] theorem Dev.holdAt_level1 (d : Dev) (b c det i : Nat) : (d.holdAt b c det i).level1 = d.level1 := by
  obtain ⟨_, _, _, _, h⟩ := d.holdAt_eq b c det i; rw [h]
@[simp] theorem Dev.holdAt_col (d : Dev) (b c det i : Nat) : (d.holdAt b c det i).col = d.col := by
  obtain ⟨_, _, _, _, h⟩ := d.holdAt_eq b c det i; rw [h]
@[simp] theorem Dev.holdAt_pwr (d : Dev) (b c det i : Nat) : (d.holdAt b c det i).pwr = d.pwr := by
  obtain ⟨_, _, _, _, h⟩ := d.holdAt_eq b c det i; rw [h]
@[simp] theorem Dev.holdAt_inService (d : Dev) (b c det i : Nat) : (d.holdAt b c det i).inService = d.inService := by
  obtain ⟨_, _, _, _, h⟩ := d.holdAt_eq b c det i; rw [h]
@[simp] theorem Dev.holdAt_dpBusy (d : Dev) (b c det i : Nat) : (d.holdAt b c det i).dpBusy = d.dpBusy := by
  obtain ⟨_, _, _, _, h⟩ := d.holdAt_eq b c det i; rw [h]
@[simp] theorem Dev.holdAt_dpDue (d : Dev) (b c det i : Nat) : (d.holdAt b c det i).dpDue = d.dpDue := by
  obtain ⟨_, _, _, _, h⟩ := d.holdAt_eq b c det i; rw [h]
@[simp] theorem Dev.holdAt_dpAt (d : Dev) (b c det i : Nat) : (d.holdAt b c det i).dpAt = d.dpAt := by
  obtain ⟨_, _, _, _, h⟩ := d.holdAt_eq b c det i; rw [h]
@[simp] theorem Dev.holdAt_stackLost (d : Dev) (b c det i : Nat) : (d.holdAt b c det i).stackLost = d.stackLost := by
  obtain ⟨_, _, _, _, h⟩ := d.holdAt_eq b c det i; rw [h]
@[simp] theorem Dev.holdAt_stby (d : Dev) (b c det i : Nat) : (d.holdAt b c det i).stby = d.stby := by
  obtain ⟨_, _, _, _, h⟩ := d.holdAt_eq b c det i; rw [h]
@[simp] theorem Dev.holdAt_resetLow (d : Dev) (b c det i : Nat) : (d.holdAt b c det i).resetLow = d.resetLow := by
  obtain ⟨_, _, _, _, h⟩ := d.holdAt_eq b c det i; rw [h]
@[simp] theorem Dev.holdAt_coldHeld (d : Dev) (b c det i : Nat) : (d.holdAt b c det i).coldHeld = d.coldHeld := by
  obtain ⟨_, _, _, _, h⟩ := d.holdAt_eq b c det i; rw [h]
@[simp] theorem Dev.holdAt_rails (d : Dev) (b c det i : Nat) : (d.holdAt b c det i).rails = d.rails := by
  obtain ⟨_, _, _, _, h⟩ := d.holdAt_eq b c det i; rw [h]
@[simp] theorem Dev.holdAt_straps (d : Dev) (b c det i : Nat) : (d.holdAt b c det i).straps = d.straps := by
  obtain ⟨_, _, _, _, h⟩ := d.holdAt_eq b c det i; rw [h]
@[simp] theorem Dev.holdAt_evDiscarded (d : Dev) (b c det i : Nat) : (d.holdAt b c det i).evDiscarded = d.evDiscarded := by
  obtain ⟨_, _, _, _, h⟩ := d.holdAt_eq b c det i; rw [h]
@[simp] theorem Dev.holdAt_cntServed (d : Dev) (b c det i : Nat) : (d.holdAt b c det i).cntServed = d.cntServed := by
  obtain ⟨_, _, _, _, h⟩ := d.holdAt_eq b c det i; rw [h]
@[simp] theorem Dev.holdAt_bwin (d : Dev) (b c det i : Nat) : (d.holdAt b c det i).bwin = d.bwin := by
  obtain ⟨_, _, _, _, h⟩ := d.holdAt_eq b c det i; rw [h]
@[simp] theorem Dev.holdAt_bwWin (d : Dev) (b c det i : Nat) : (d.holdAt b c det i).bwWin = d.bwWin := by
  obtain ⟨_, _, _, _, h⟩ := d.holdAt_eq b c det i; rw [h]
@[simp] theorem Dev.holdAt_bwAt (d : Dev) (b c det i : Nat) : (d.holdAt b c det i).bwAt = d.bwAt := by
  obtain ⟨_, _, _, _, h⟩ := d.holdAt_eq b c det i; rw [h]
@[simp] theorem Dev.holdAt_snapDue (d : Dev) (b c det i : Nat) : (d.holdAt b c det i).snapDue = d.snapDue := by
  obtain ⟨_, _, _, _, h⟩ := d.holdAt_eq b c det i; rw [h]
@[simp] theorem Dev.holdAt_wmarkDue (d : Dev) (b c det i : Nat) : (d.holdAt b c det i).wmarkDue = d.wmarkDue := by
  obtain ⟨_, _, _, _, h⟩ := d.holdAt_eq b c det i; rw [h]
@[simp] theorem Dev.holdAt_ledLast (d : Dev) (b c det i : Nat) : (d.holdAt b c det i).ledLast = d.ledLast := by
  obtain ⟨_, _, _, _, h⟩ := d.holdAt_eq b c det i; rw [h]
@[simp] theorem Dev.holdAt_ir (d : Dev) (b c det i : Nat) : (d.holdAt b c det i).ir = d.ir := by
  obtain ⟨_, _, _, _, h⟩ := d.holdAt_eq b c det i; rw [h]
@[simp] theorem Dev.holdAt_bsr (d : Dev) (b c det i : Nat) : (d.holdAt b c det i).bsr = d.bsr := by
  obtain ⟨_, _, _, _, h⟩ := d.holdAt_eq b c det i; rw [h]
@[simp] theorem Dev.holdAt_tapHeld (d : Dev) (b c det i : Nat) : (d.holdAt b c det i).tapHeld = d.tapHeld := by
  obtain ⟨_, _, _, _, h⟩ := d.holdAt_eq b c det i; rw [h]
@[simp] theorem Dev.holdAt_caps (d : Dev) (b c det i : Nat) : (d.holdAt b c det i).caps = d.caps := by
  obtain ⟨_, _, _, _, h⟩ := d.holdAt_eq b c det i; rw [h]
@[simp] theorem Dev.holdAt_pats (d : Dev) (b c det i : Nat) : (d.holdAt b c det i).pats = d.pats := by
  obtain ⟨_, _, _, _, h⟩ := d.holdAt_eq b c det i; rw [h]
@[simp] theorem Dev.holdAt_injs (d : Dev) (b c det i : Nat) : (d.holdAt b c det i).injs = d.injs := by
  obtain ⟨_, _, _, _, h⟩ := d.holdAt_eq b c det i; rw [h]
@[simp] theorem Dev.holdAt_clkDead (d : Dev) (b c det i : Nat) : (d.holdAt b c det i).clkDead = d.clkDead := by
  obtain ⟨_, _, _, _, h⟩ := d.holdAt_eq b c det i; rw [h]
@[simp] theorem Dev.holdAt_lost (d : Dev) (b c det i : Nat) : (d.holdAt b c det i).lost = d.lost := by
  obtain ⟨_, _, _, _, h⟩ := d.holdAt_eq b c det i; rw [h]
@[simp] theorem Dev.holdAt_draws (d : Dev) (b c det i : Nat) : (d.holdAt b c det i).draws = d.draws := by
  obtain ⟨_, _, _, _, h⟩ := d.holdAt_eq b c det i; rw [h]
@[simp] theorem Dev.holdAt_out (d : Dev) (b c det i : Nat) : (d.holdAt b c det i).out = d.out := by
  obtain ⟨_, _, _, _, h⟩ := d.holdAt_eq b c det i; rw [h]

@[simp] theorem Dev.raiseAt_frm (d : Dev) (b c det i : Nat) : (d.raiseAt b c det i).frm = d.frm := by simp [Dev.raiseAt]
@[simp] theorem Dev.raiseAt_words (d : Dev) (b c det i : Nat) : (d.raiseAt b c det i).words = d.words ++ [condWord b c det] := by simp [Dev.raiseAt]
@[simp] theorem Dev.raiseAt_latches (d : Dev) (b c det i : Nat) : (d.raiseAt b c det i).latches = d.latches := by simp [Dev.raiseAt]
@[simp] theorem Dev.raiseAt_dies (d : Dev) (b c det i : Nat) : (d.raiseAt b c det i).dies = d.dies := by simp [Dev.raiseAt]
@[simp] theorem Dev.raiseAt_hbms (d : Dev) (b c det i : Nat) : (d.raiseAt b c det i).hbms = d.hbms := by simp [Dev.raiseAt]
@[simp] theorem Dev.raiseAt_bridges (d : Dev) (b c det i : Nat) : (d.raiseAt b c det i).bridges = d.bridges := by simp [Dev.raiseAt]
@[simp] theorem Dev.raiseAt_lanes (d : Dev) (b c det i : Nat) : (d.raiseAt b c det i).lanes = d.lanes := by simp [Dev.raiseAt]
@[simp] theorem Dev.raiseAt_ports (d : Dev) (b c det i : Nat) : (d.raiseAt b c det i).ports = d.ports := by simp [Dev.raiseAt]
@[simp] theorem Dev.raiseAt_pkts (d : Dev) (b c det i : Nat) : (d.raiseAt b c det i).pkts = d.pkts := by simp [Dev.raiseAt]
@[simp] theorem Dev.raiseAt_nextId (d : Dev) (b c det i : Nat) : (d.raiseAt b c det i).nextId = d.nextId := by simp [Dev.raiseAt]
@[simp] theorem Dev.raiseAt_queue (d : Dev) (b c det i : Nat) : (d.raiseAt b c det i).queue = d.queue := by simp [Dev.raiseAt]
@[simp] theorem Dev.raiseAt_bufs (d : Dev) (b c det i : Nat) : (d.raiseAt b c det i).bufs = d.bufs := by simp [Dev.raiseAt]
@[simp] theorem Dev.raiseAt_quarBufs (d : Dev) (b c det i : Nat) : (d.raiseAt b c det i).quarBufs = d.quarBufs := by simp [Dev.raiseAt]
@[simp] theorem Dev.raiseAt_bud (d : Dev) (b c det i : Nat) : (d.raiseAt b c det i).bud = d.bud := by simp [Dev.raiseAt]
@[simp] theorem Dev.raiseAt_corr (d : Dev) (b c det i : Nat) : (d.raiseAt b c det i).corr = d.corr := by simp [Dev.raiseAt]
@[simp] theorem Dev.raiseAt_stages (d : Dev) (b c det i : Nat) : (d.raiseAt b c det i).stages = d.stages := by simp [Dev.raiseAt]
@[simp] theorem Dev.raiseAt_trks (d : Dev) (b c det i : Nat) : (d.raiseAt b c det i).trks = d.trks := by simp [Dev.raiseAt]
@[simp] theorem Dev.raiseAt_samp (d : Dev) (b c det i : Nat) : (d.raiseAt b c det i).samp = d.samp := by simp [Dev.raiseAt]
@[simp] theorem Dev.raiseAt_samples (d : Dev) (b c det i : Nat) : (d.raiseAt b c det i).samples = d.samples := by simp [Dev.raiseAt]
@[simp] theorem Dev.raiseAt_coordV (d : Dev) (b c det i : Nat) : (d.raiseAt b c det i).coordV = d.coordV := by simp [Dev.raiseAt]
@[simp] theorem Dev.raiseAt_coord (d : Dev) (b c det i : Nat) : (d.raiseAt b c det i).coord = d.coord := by simp [Dev.raiseAt]
@[simp] theorem Dev.raiseAt_ract (d : Dev) (b c det i : Nat) : (d.raiseAt b c det i).ract = d.ract := by simp [Dev.raiseAt]
@[simp] theorem Dev.raiseAt_ovl (d : Dev) (b c det i : Nat) : (d.raiseAt b c det i).ovl = d.ovl := by simp [Dev.raiseAt]
@[simp] theorem Dev.raiseAt_lfsr (d : Dev) (b c det i : Nat) : (d.raiseAt b c det i).lfsr = d.lfsr := by simp [Dev.raiseAt]
@[simp] theorem Dev.raiseAt_inj (d : Dev) (b c det i : Nat) : (d.raiseAt b c det i).inj = d.inj := by simp [Dev.raiseAt]
@[simp] theorem Dev.raiseAt_injAll (d : Dev) (b c det i : Nat) : (d.raiseAt b c det i).injAll = d.injAll := by simp [Dev.raiseAt]
@[simp] theorem Dev.raiseAt_oxbow (d : Dev) (b c det i : Nat) : (d.raiseAt b c det i).oxbow = d.oxbow := by simp [Dev.raiseAt]
@[simp] theorem Dev.raiseAt_reps (d : Dev) (b c det i : Nat) : (d.raiseAt b c det i).reps = d.reps := by simp [Dev.raiseAt]
@[simp] theorem Dev.raiseAt_chunks (d : Dev) (b c det i : Nat) : (d.raiseAt b c det i).chunks = d.chunks := by simp [Dev.raiseAt]
@[simp] theorem Dev.raiseAt_launches (d : Dev) (b c det i : Nat) : (d.raiseAt b c det i).launches = d.launches := by simp [Dev.raiseAt]
@[simp] theorem Dev.raiseAt_units (d : Dev) (b c det i : Nat) : (d.raiseAt b c det i).units = d.units := by simp [Dev.raiseAt]
@[simp] theorem Dev.raiseAt_rounds (d : Dev) (b c det i : Nat) : (d.raiseAt b c det i).rounds = d.rounds := by simp [Dev.raiseAt]
@[simp] theorem Dev.raiseAt_xcount (d : Dev) (b c det i : Nat) : (d.raiseAt b c det i).xcount = d.xcount := by simp [Dev.raiseAt]
@[simp] theorem Dev.raiseAt_xwin (d : Dev) (b c det i : Nat) : (d.raiseAt b c det i).xwin = d.xwin := by simp [Dev.raiseAt]
@[simp] theorem Dev.raiseAt_pend (d : Dev) (b c det i : Nat) : (d.raiseAt b c det i).pend = d.pend := by simp [Dev.raiseAt]
@[simp] theorem Dev.raiseAt_reqs (d : Dev) (b c det i : Nat) : (d.raiseAt b c det i).reqs = d.reqs := by simp [Dev.raiseAt]
@[simp] theorem Dev.raiseAt_stackU (d : Dev) (b c det i : Nat) : (d.raiseAt b c det i).stackU = d.stackU := by simp [Dev.raiseAt]
@[simp] theorem Dev.raiseAt_bad (d : Dev) (b c det i : Nat) : (d.raiseAt b c det i).bad = d.bad := by simp [Dev.raiseAt]
@[simp] theorem Dev.raiseAt_weak (d : Dev) (b c det i : Nat) : (d.raiseAt b c det i).weak = d.weak := by simp [Dev.raiseAt]
@[simp] theorem Dev.raiseAt_dueRows (d : Dev) (b c det i : Nat) : (d.raiseAt b c det i).dueRows = d.dueRows := by simp [Dev.raiseAt]
@[simp] theorem Dev.raiseAt_plat (d : Dev) (b c det i : Nat) : (d.raiseAt b c det i).plat = d.plat := by simp [Dev.raiseAt]
@[simp] theorem Dev.raiseAt_inputs (d : Dev) (b c det i : Nat) : (d.raiseAt b c det i).inputs = d.inputs := by simp [Dev.raiseAt]
@[simp] theorem Dev.raiseAt_level1 (d : Dev) (b c det i : Nat) : (d.raiseAt b c det i).level1 = d.level1 := by simp [Dev.raiseAt]
@[simp] theorem Dev.raiseAt_col (d : Dev) (b c det i : Nat) : (d.raiseAt b c det i).col = d.col := by simp [Dev.raiseAt]
@[simp] theorem Dev.raiseAt_pwr (d : Dev) (b c det i : Nat) : (d.raiseAt b c det i).pwr = d.pwr := by simp [Dev.raiseAt]
@[simp] theorem Dev.raiseAt_inService (d : Dev) (b c det i : Nat) : (d.raiseAt b c det i).inService = d.inService := by simp [Dev.raiseAt]
@[simp] theorem Dev.raiseAt_dpBusy (d : Dev) (b c det i : Nat) : (d.raiseAt b c det i).dpBusy = d.dpBusy := by simp [Dev.raiseAt]
@[simp] theorem Dev.raiseAt_dpDue (d : Dev) (b c det i : Nat) : (d.raiseAt b c det i).dpDue = d.dpDue := by simp [Dev.raiseAt]
@[simp] theorem Dev.raiseAt_dpAt (d : Dev) (b c det i : Nat) : (d.raiseAt b c det i).dpAt = d.dpAt := by simp [Dev.raiseAt]
@[simp] theorem Dev.raiseAt_stackLost (d : Dev) (b c det i : Nat) : (d.raiseAt b c det i).stackLost = d.stackLost := by simp [Dev.raiseAt]
@[simp] theorem Dev.raiseAt_stby (d : Dev) (b c det i : Nat) : (d.raiseAt b c det i).stby = d.stby := by simp [Dev.raiseAt]
@[simp] theorem Dev.raiseAt_resetLow (d : Dev) (b c det i : Nat) : (d.raiseAt b c det i).resetLow = d.resetLow := by simp [Dev.raiseAt]
@[simp] theorem Dev.raiseAt_coldHeld (d : Dev) (b c det i : Nat) : (d.raiseAt b c det i).coldHeld = d.coldHeld := by simp [Dev.raiseAt]
@[simp] theorem Dev.raiseAt_rails (d : Dev) (b c det i : Nat) : (d.raiseAt b c det i).rails = d.rails := by simp [Dev.raiseAt]
@[simp] theorem Dev.raiseAt_straps (d : Dev) (b c det i : Nat) : (d.raiseAt b c det i).straps = d.straps := by simp [Dev.raiseAt]
@[simp] theorem Dev.raiseAt_evDiscarded (d : Dev) (b c det i : Nat) : (d.raiseAt b c det i).evDiscarded = d.evDiscarded := by simp [Dev.raiseAt]
@[simp] theorem Dev.raiseAt_cntServed (d : Dev) (b c det i : Nat) : (d.raiseAt b c det i).cntServed = d.cntServed := by simp [Dev.raiseAt]
@[simp] theorem Dev.raiseAt_bwin (d : Dev) (b c det i : Nat) : (d.raiseAt b c det i).bwin = d.bwin := by simp [Dev.raiseAt]
@[simp] theorem Dev.raiseAt_bwWin (d : Dev) (b c det i : Nat) : (d.raiseAt b c det i).bwWin = d.bwWin := by simp [Dev.raiseAt]
@[simp] theorem Dev.raiseAt_bwAt (d : Dev) (b c det i : Nat) : (d.raiseAt b c det i).bwAt = d.bwAt := by simp [Dev.raiseAt]
@[simp] theorem Dev.raiseAt_snapDue (d : Dev) (b c det i : Nat) : (d.raiseAt b c det i).snapDue = d.snapDue := by simp [Dev.raiseAt]
@[simp] theorem Dev.raiseAt_wmarkDue (d : Dev) (b c det i : Nat) : (d.raiseAt b c det i).wmarkDue = d.wmarkDue := by simp [Dev.raiseAt]
@[simp] theorem Dev.raiseAt_ledLast (d : Dev) (b c det i : Nat) : (d.raiseAt b c det i).ledLast = d.ledLast := by simp [Dev.raiseAt]
@[simp] theorem Dev.raiseAt_ir (d : Dev) (b c det i : Nat) : (d.raiseAt b c det i).ir = d.ir := by simp [Dev.raiseAt]
@[simp] theorem Dev.raiseAt_bsr (d : Dev) (b c det i : Nat) : (d.raiseAt b c det i).bsr = d.bsr := by simp [Dev.raiseAt]
@[simp] theorem Dev.raiseAt_tapHeld (d : Dev) (b c det i : Nat) : (d.raiseAt b c det i).tapHeld = d.tapHeld := by simp [Dev.raiseAt]
@[simp] theorem Dev.raiseAt_caps (d : Dev) (b c det i : Nat) : (d.raiseAt b c det i).caps = d.caps := by simp [Dev.raiseAt]
@[simp] theorem Dev.raiseAt_pats (d : Dev) (b c det i : Nat) : (d.raiseAt b c det i).pats = d.pats := by simp [Dev.raiseAt]
@[simp] theorem Dev.raiseAt_injs (d : Dev) (b c det i : Nat) : (d.raiseAt b c det i).injs = d.injs := by simp [Dev.raiseAt]
@[simp] theorem Dev.raiseAt_clkDead (d : Dev) (b c det i : Nat) : (d.raiseAt b c det i).clkDead = d.clkDead := by simp [Dev.raiseAt]
@[simp] theorem Dev.raiseAt_lost (d : Dev) (b c det i : Nat) : (d.raiseAt b c det i).lost = d.lost := by simp [Dev.raiseAt]
@[simp] theorem Dev.raiseAt_draws (d : Dev) (b c det i : Nat) : (d.raiseAt b c det i).draws = d.draws := by simp [Dev.raiseAt]
@[simp] theorem Dev.raiseAt_out (d : Dev) (b c det i : Nat) : (d.raiseAt b c det i).out = d.out := by simp [Dev.raiseAt]

/-- A block with one COND register. -/
@[simp] theorem Dev.raise_eq (d : Dev) (b c det : Nat) : d.raise b c det = d.raiseAt b c det 0 := rfl

/-- Everything that raising a condition can change. -/
theorem Dev.raiseAt_eq (d : Dev) (b c det i : Nat) : ∃ r q a e, d.raiseAt b c det i =
    { d with regs := r, raised := q, words := d.words ++ [condWord b c det], obvo := { d.obvo with alert := a, alertDue := e } } := by
  obtain ⟨r, q, a, e, h⟩ := Dev.holdAt_eq { d with words := d.words ++ [condWord b c det] } b c det i
  exact ⟨r, q, a, e, by rw [Dev.raiseAt, h]⟩

@[simp] theorem Dev.raiseAt_port (d : Dev) (b c det i p : Nat) : (d.raiseAt b c det i).port p = d.port p :=
  Dev.port_congr (by simp) p
@[simp] theorem Dev.raiseAt_lane (d : Dev) (b c det i l : Nat) : (d.raiseAt b c det i).lane l = d.lane l :=
  Dev.lane_congr (by simp) l
@[simp] theorem Dev.raiseAt_now (d : Dev) (b c det i : Nat) : (d.raiseAt b c det i).now = d.now := by simp [Dev.now]

/-- Of the Obvo and trail side only ALERT_N, and whether it is due, can change. -/
theorem Dev.raiseAt_obvo (d : Dev) (b c det i : Nat) :
    (d.raiseAt b c det i).obvo = { d.obvo with alert := (d.raiseAt b c det i).obvo.alert, alertDue := (d.raiseAt b c det i).obvo.alertDue } := by
  obtain ⟨_, _, _, _, h⟩ := d.raiseAt_eq b c det i; rw [h]

/-- The condition is among those of the frame. -/
theorem Dev.raiseAt_mem (d : Dev) (b c det i : Nat) : (condAddr b i, condWord b c det) ∈ (d.raiseAt b c det i).raised := by
  unfold Dev.raiseAt Dev.holdAt
  dsimp only
  split
  · assumption
  · simp [Dev.wr]

/-- Registers other than the condition's own pair stay. -/
theorem Dev.raiseAt_rd (d : Dev) (b c det i : Nat) {a : Nat} (h0 : a ≠ condAddr b i) (h1 : a ≠ condAddr b i + 4) :
    (d.raiseAt b c det i).rd a = d.rd a := by
  unfold Dev.raiseAt Dev.holdAt
  dsimp only
  split
  · rfl
  · simp only [Dev.rd, Dev.wr]
    rw [mapGet_set_ne _ _ _ _ h1, mapGet_set_ne _ _ _ _ h0]

/-- A condition raised for the first time in a frame: its COND register holds the highest word of the frame. -/
theorem Dev.raiseAt_cond (d : Dev) (b c det i : Nat) (h : (condAddr b i, condWord b c det) ∉ d.raised) :
    (d.raiseAt b c det i).rd (condAddr b i) = topWord (condAddr b i) (d.raised ++ [(condAddr b i, condWord b c det)]) := by
  unfold Dev.raiseAt Dev.holdAt
  dsimp only
  rw [if_neg h]
  simp [Dev.rd, Dev.wr]

/-- A condition raised for the first time in a frame: PENDING is set. -/
theorem Dev.raiseAt_pending (d : Dev) (b c det i : Nat) (h : (condAddr b i, condWord b c det) ∉ d.raised) :
    Machine.bit ((d.raiseAt b c det i).rd (condAddr b i + 4)) 0 = true := by
  unfold Dev.raiseAt Dev.holdAt
  dsimp only
  rw [if_neg h]
  simp [Dev.rd, Dev.wr, Machine.bit]

/-! ## Event records -/

@[simp] theorem Dev.event_frm (d : Dev) (k : Nat) (b : List Byte) : (d.event k b).frm = d.frm := by
  unfold Dev.event Dev.pushEv Dev.addSat; dsimp only; split_ifs <;> rfl
@[simp] theorem Dev.event_raised (d : Dev) (k : Nat) (b : List Byte) : (d.event k b).raised = d.raised := by
  unfold Dev.event Dev.pushEv Dev.addSat; dsimp only; split_ifs <;> rfl
@[simp] theorem Dev.event_words (d : Dev) (k : Nat) (b : List Byte) : (d.event k b).words = d.words := by
  unfold Dev.event Dev.pushEv Dev.addSat; dsimp only; split_ifs <;> rfl
@[simp] theorem Dev.event_latches (d : Dev) (k : Nat) (b : List Byte) : (d.event k b).latches = d.latches := by
  unfold Dev.event Dev.pushEv Dev.addSat; dsimp only; split_ifs <;> rfl
@[simp] theorem Dev.event_dies (d : Dev) (k : Nat) (b : List Byte) : (d.event k b).dies = d.dies := by
  unfold Dev.event Dev.pushEv Dev.addSat; dsimp only; split_ifs <;> rfl
@[simp] theorem Dev.event_hbms (d : Dev) (k : Nat) (b : List Byte) : (d.event k b).hbms = d.hbms := by
  unfold Dev.event Dev.pushEv Dev.addSat; dsimp only; split_ifs <;> rfl
@[simp] theorem Dev.event_bridges (d : Dev) (k : Nat) (b : List Byte) : (d.event k b).bridges = d.bridges := by
  unfold Dev.event Dev.pushEv Dev.addSat; dsimp only; split_ifs <;> rfl
@[simp] theorem Dev.event_lanes (d : Dev) (k : Nat) (b : List Byte) : (d.event k b).lanes = d.lanes := by
  unfold Dev.event Dev.pushEv Dev.addSat; dsimp only; split_ifs <;> rfl
@[simp] theorem Dev.event_ports (d : Dev) (k : Nat) (b : List Byte) : (d.event k b).ports = d.ports := by
  unfold Dev.event Dev.pushEv Dev.addSat; dsimp only; split_ifs <;> rfl
@[simp] theorem Dev.event_pkts (d : Dev) (k : Nat) (b : List Byte) : (d.event k b).pkts = d.pkts := by
  unfold Dev.event Dev.pushEv Dev.addSat; dsimp only; split_ifs <;> rfl
@[simp] theorem Dev.event_nextId (d : Dev) (k : Nat) (b : List Byte) : (d.event k b).nextId = d.nextId := by
  unfold Dev.event Dev.pushEv Dev.addSat; dsimp only; split_ifs <;> rfl
@[simp] theorem Dev.event_queue (d : Dev) (k : Nat) (b : List Byte) : (d.event k b).queue = d.queue := by
  unfold Dev.event Dev.pushEv Dev.addSat; dsimp only; split_ifs <;> rfl
@[simp] theorem Dev.event_bufs (d : Dev) (k : Nat) (b : List Byte) : (d.event k b).bufs = d.bufs := by
  unfold Dev.event Dev.pushEv Dev.addSat; dsimp only; split_ifs <;> rfl
@[simp] theorem Dev.event_quarBufs (d : Dev) (k : Nat) (b : List Byte) : (d.event k b).quarBufs = d.quarBufs := by
  unfold Dev.event Dev.pushEv Dev.addSat; dsimp only; split_ifs <;> rfl
@[simp] theorem Dev.event_bud (d : Dev) (k : Nat) (b : List Byte) : (d.event k b).bud = d.bud := by
  unfold Dev.event Dev.pushEv Dev.addSat; dsimp only; split_ifs <;> rfl
@[simp] theorem Dev.event_corr (d : Dev) (k : Nat) (b : List Byte) : (d.event k b).corr = d.corr := by
  unfold Dev.event Dev.pushEv Dev.addSat; dsimp only; split_ifs <;> rfl
@[simp] theorem Dev.event_stages (d : Dev) (k : Nat) (b : List Byte) : (d.event k b).stages = d.stages := by
  unfold Dev.event Dev.pushEv Dev.addSat; dsimp only; split_ifs <;> rfl
@[simp] theorem Dev.event_trks (d : Dev) (k : Nat) (b : List Byte) : (d.event k b).trks = d.trks := by
  unfold Dev.event Dev.pushEv Dev.addSat; dsimp only; split_ifs <;> rfl
@[simp] theorem Dev.event_samp (d : Dev) (k : Nat) (b : List Byte) : (d.event k b).samp = d.samp := by
  unfold Dev.event Dev.pushEv Dev.addSat; dsimp only; split_ifs <;> rfl
@[simp] theorem Dev.event_samples (d : Dev) (k : Nat) (b : List Byte) : (d.event k b).samples = d.samples := by
  unfold Dev.event Dev.pushEv Dev.addSat; dsimp only; split_ifs <;> rfl
@[simp] theorem Dev.event_coordV (d : Dev) (k : Nat) (b : List Byte) : (d.event k b).coordV = d.coordV := by
  unfold Dev.event Dev.pushEv Dev.addSat; dsimp only; split_ifs <;> rfl
@[simp] theorem Dev.event_coord (d : Dev) (k : Nat) (b : List Byte) : (d.event k b).coord = d.coord := by
  unfold Dev.event Dev.pushEv Dev.addSat; dsimp only; split_ifs <;> rfl
@[simp] theorem Dev.event_ract (d : Dev) (k : Nat) (b : List Byte) : (d.event k b).ract = d.ract := by
  unfold Dev.event Dev.pushEv Dev.addSat; dsimp only; split_ifs <;> rfl
@[simp] theorem Dev.event_ovl (d : Dev) (k : Nat) (b : List Byte) : (d.event k b).ovl = d.ovl := by
  unfold Dev.event Dev.pushEv Dev.addSat; dsimp only; split_ifs <;> rfl
@[simp] theorem Dev.event_lfsr (d : Dev) (k : Nat) (b : List Byte) : (d.event k b).lfsr = d.lfsr := by
  unfold Dev.event Dev.pushEv Dev.addSat; dsimp only; split_ifs <;> rfl
@[simp] theorem Dev.event_inj (d : Dev) (k : Nat) (b : List Byte) : (d.event k b).inj = d.inj := by
  unfold Dev.event Dev.pushEv Dev.addSat; dsimp only; split_ifs <;> rfl
@[simp] theorem Dev.event_injAll (d : Dev) (k : Nat) (b : List Byte) : (d.event k b).injAll = d.injAll := by
  unfold Dev.event Dev.pushEv Dev.addSat; dsimp only; split_ifs <;> rfl
@[simp] theorem Dev.event_oxbow (d : Dev) (k : Nat) (b : List Byte) : (d.event k b).oxbow = d.oxbow := by
  unfold Dev.event Dev.pushEv Dev.addSat; dsimp only; split_ifs <;> rfl
@[simp] theorem Dev.event_reps (d : Dev) (k : Nat) (b : List Byte) : (d.event k b).reps = d.reps := by
  unfold Dev.event Dev.pushEv Dev.addSat; dsimp only; split_ifs <;> rfl
@[simp] theorem Dev.event_chunks (d : Dev) (k : Nat) (b : List Byte) : (d.event k b).chunks = d.chunks := by
  unfold Dev.event Dev.pushEv Dev.addSat; dsimp only; split_ifs <;> rfl
@[simp] theorem Dev.event_launches (d : Dev) (k : Nat) (b : List Byte) : (d.event k b).launches = d.launches := by
  unfold Dev.event Dev.pushEv Dev.addSat; dsimp only; split_ifs <;> rfl
@[simp] theorem Dev.event_units (d : Dev) (k : Nat) (b : List Byte) : (d.event k b).units = d.units := by
  unfold Dev.event Dev.pushEv Dev.addSat; dsimp only; split_ifs <;> rfl
@[simp] theorem Dev.event_rounds (d : Dev) (k : Nat) (b : List Byte) : (d.event k b).rounds = d.rounds := by
  unfold Dev.event Dev.pushEv Dev.addSat; dsimp only; split_ifs <;> rfl
@[simp] theorem Dev.event_xcount (d : Dev) (k : Nat) (b : List Byte) : (d.event k b).xcount = d.xcount := by
  unfold Dev.event Dev.pushEv Dev.addSat; dsimp only; split_ifs <;> rfl
@[simp] theorem Dev.event_xwin (d : Dev) (k : Nat) (b : List Byte) : (d.event k b).xwin = d.xwin := by
  unfold Dev.event Dev.pushEv Dev.addSat; dsimp only; split_ifs <;> rfl
@[simp] theorem Dev.event_pend (d : Dev) (k : Nat) (b : List Byte) : (d.event k b).pend = d.pend := by
  unfold Dev.event Dev.pushEv Dev.addSat; dsimp only; split_ifs <;> rfl
@[simp] theorem Dev.event_reqs (d : Dev) (k : Nat) (b : List Byte) : (d.event k b).reqs = d.reqs := by
  unfold Dev.event Dev.pushEv Dev.addSat; dsimp only; split_ifs <;> rfl
@[simp] theorem Dev.event_stackU (d : Dev) (k : Nat) (b : List Byte) : (d.event k b).stackU = d.stackU := by
  unfold Dev.event Dev.pushEv Dev.addSat; dsimp only; split_ifs <;> rfl
@[simp] theorem Dev.event_bad (d : Dev) (k : Nat) (b : List Byte) : (d.event k b).bad = d.bad := by
  unfold Dev.event Dev.pushEv Dev.addSat; dsimp only; split_ifs <;> rfl
@[simp] theorem Dev.event_weak (d : Dev) (k : Nat) (b : List Byte) : (d.event k b).weak = d.weak := by
  unfold Dev.event Dev.pushEv Dev.addSat; dsimp only; split_ifs <;> rfl
@[simp] theorem Dev.event_dueRows (d : Dev) (k : Nat) (b : List Byte) : (d.event k b).dueRows = d.dueRows := by
  unfold Dev.event Dev.pushEv Dev.addSat; dsimp only; split_ifs <;> rfl
@[simp] theorem Dev.event_plat (d : Dev) (k : Nat) (b : List Byte) : (d.event k b).plat = d.plat := by
  unfold Dev.event Dev.pushEv Dev.addSat; dsimp only; split_ifs <;> rfl
@[simp] theorem Dev.event_inputs (d : Dev) (k : Nat) (b : List Byte) : (d.event k b).inputs = d.inputs := by
  unfold Dev.event Dev.pushEv Dev.addSat; dsimp only; split_ifs <;> rfl
@[simp] theorem Dev.event_level1 (d : Dev) (k : Nat) (b : List Byte) : (d.event k b).level1 = d.level1 := by
  unfold Dev.event Dev.pushEv Dev.addSat; dsimp only; split_ifs <;> rfl
@[simp] theorem Dev.event_col (d : Dev) (k : Nat) (b : List Byte) : (d.event k b).col = d.col := by
  unfold Dev.event Dev.pushEv Dev.addSat; dsimp only; split_ifs <;> rfl
@[simp] theorem Dev.event_pwr (d : Dev) (k : Nat) (b : List Byte) : (d.event k b).pwr = d.pwr := by
  unfold Dev.event Dev.pushEv Dev.addSat; dsimp only; split_ifs <;> rfl
@[simp] theorem Dev.event_inService (d : Dev) (k : Nat) (b : List Byte) : (d.event k b).inService = d.inService := by
  unfold Dev.event Dev.pushEv Dev.addSat; dsimp only; split_ifs <;> rfl
@[simp] theorem Dev.event_dpBusy (d : Dev) (k : Nat) (b : List Byte) : (d.event k b).dpBusy = d.dpBusy := by
  unfold Dev.event Dev.pushEv Dev.addSat; dsimp only; split_ifs <;> rfl
@[simp] theorem Dev.event_dpDue (d : Dev) (k : Nat) (b : List Byte) : (d.event k b).dpDue = d.dpDue := by
  unfold Dev.event Dev.pushEv Dev.addSat; dsimp only; split_ifs <;> rfl
@[simp] theorem Dev.event_dpAt (d : Dev) (k : Nat) (b : List Byte) : (d.event k b).dpAt = d.dpAt := by
  unfold Dev.event Dev.pushEv Dev.addSat; dsimp only; split_ifs <;> rfl
@[simp] theorem Dev.event_stackLost (d : Dev) (k : Nat) (b : List Byte) : (d.event k b).stackLost = d.stackLost := by
  unfold Dev.event Dev.pushEv Dev.addSat; dsimp only; split_ifs <;> rfl
@[simp] theorem Dev.event_stby (d : Dev) (k : Nat) (b : List Byte) : (d.event k b).stby = d.stby := by
  unfold Dev.event Dev.pushEv Dev.addSat; dsimp only; split_ifs <;> rfl
@[simp] theorem Dev.event_resetLow (d : Dev) (k : Nat) (b : List Byte) : (d.event k b).resetLow = d.resetLow := by
  unfold Dev.event Dev.pushEv Dev.addSat; dsimp only; split_ifs <;> rfl
@[simp] theorem Dev.event_coldHeld (d : Dev) (k : Nat) (b : List Byte) : (d.event k b).coldHeld = d.coldHeld := by
  unfold Dev.event Dev.pushEv Dev.addSat; dsimp only; split_ifs <;> rfl
@[simp] theorem Dev.event_rails (d : Dev) (k : Nat) (b : List Byte) : (d.event k b).rails = d.rails := by
  unfold Dev.event Dev.pushEv Dev.addSat; dsimp only; split_ifs <;> rfl
@[simp] theorem Dev.event_straps (d : Dev) (k : Nat) (b : List Byte) : (d.event k b).straps = d.straps := by
  unfold Dev.event Dev.pushEv Dev.addSat; dsimp only; split_ifs <;> rfl
@[simp] theorem Dev.event_evDiscarded (d : Dev) (k : Nat) (b : List Byte) : (d.event k b).evDiscarded = d.evDiscarded := by
  unfold Dev.event Dev.pushEv Dev.addSat; dsimp only; split_ifs <;> rfl
@[simp] theorem Dev.event_cntServed (d : Dev) (k : Nat) (b : List Byte) : (d.event k b).cntServed = d.cntServed := by
  unfold Dev.event Dev.pushEv Dev.addSat; dsimp only; split_ifs <;> rfl
@[simp] theorem Dev.event_bwin (d : Dev) (k : Nat) (b : List Byte) : (d.event k b).bwin = d.bwin := by
  unfold Dev.event Dev.pushEv Dev.addSat; dsimp only; split_ifs <;> rfl
@[simp] theorem Dev.event_bwWin (d : Dev) (k : Nat) (b : List Byte) : (d.event k b).bwWin = d.bwWin := by
  unfold Dev.event Dev.pushEv Dev.addSat; dsimp only; split_ifs <;> rfl
@[simp] theorem Dev.event_bwAt (d : Dev) (k : Nat) (b : List Byte) : (d.event k b).bwAt = d.bwAt := by
  unfold Dev.event Dev.pushEv Dev.addSat; dsimp only; split_ifs <;> rfl
@[simp] theorem Dev.event_snapDue (d : Dev) (k : Nat) (b : List Byte) : (d.event k b).snapDue = d.snapDue := by
  unfold Dev.event Dev.pushEv Dev.addSat; dsimp only; split_ifs <;> rfl
@[simp] theorem Dev.event_wmarkDue (d : Dev) (k : Nat) (b : List Byte) : (d.event k b).wmarkDue = d.wmarkDue := by
  unfold Dev.event Dev.pushEv Dev.addSat; dsimp only; split_ifs <;> rfl
@[simp] theorem Dev.event_ledLast (d : Dev) (k : Nat) (b : List Byte) : (d.event k b).ledLast = d.ledLast := by
  unfold Dev.event Dev.pushEv Dev.addSat; dsimp only; split_ifs <;> rfl
@[simp] theorem Dev.event_ir (d : Dev) (k : Nat) (b : List Byte) : (d.event k b).ir = d.ir := by
  unfold Dev.event Dev.pushEv Dev.addSat; dsimp only; split_ifs <;> rfl
@[simp] theorem Dev.event_bsr (d : Dev) (k : Nat) (b : List Byte) : (d.event k b).bsr = d.bsr := by
  unfold Dev.event Dev.pushEv Dev.addSat; dsimp only; split_ifs <;> rfl
@[simp] theorem Dev.event_tapHeld (d : Dev) (k : Nat) (b : List Byte) : (d.event k b).tapHeld = d.tapHeld := by
  unfold Dev.event Dev.pushEv Dev.addSat; dsimp only; split_ifs <;> rfl
@[simp] theorem Dev.event_caps (d : Dev) (k : Nat) (b : List Byte) : (d.event k b).caps = d.caps := by
  unfold Dev.event Dev.pushEv Dev.addSat; dsimp only; split_ifs <;> rfl
@[simp] theorem Dev.event_pats (d : Dev) (k : Nat) (b : List Byte) : (d.event k b).pats = d.pats := by
  unfold Dev.event Dev.pushEv Dev.addSat; dsimp only; split_ifs <;> rfl
@[simp] theorem Dev.event_injs (d : Dev) (k : Nat) (b : List Byte) : (d.event k b).injs = d.injs := by
  unfold Dev.event Dev.pushEv Dev.addSat; dsimp only; split_ifs <;> rfl
@[simp] theorem Dev.event_clkDead (d : Dev) (k : Nat) (b : List Byte) : (d.event k b).clkDead = d.clkDead := by
  unfold Dev.event Dev.pushEv Dev.addSat; dsimp only; split_ifs <;> rfl
@[simp] theorem Dev.event_lost (d : Dev) (k : Nat) (b : List Byte) : (d.event k b).lost = d.lost := by
  unfold Dev.event Dev.pushEv Dev.addSat; dsimp only; split_ifs <;> rfl
@[simp] theorem Dev.event_draws (d : Dev) (k : Nat) (b : List Byte) : (d.event k b).draws = d.draws := by
  unfold Dev.event Dev.pushEv Dev.addSat; dsimp only; split_ifs <;> rfl
@[simp] theorem Dev.event_out (d : Dev) (k : Nat) (b : List Byte) : (d.event k b).out = d.out := by
  unfold Dev.event Dev.pushEv Dev.addSat; dsimp only; split_ifs <;> rfl

/-! ## Control writes -/

/-- A write that neither Narrows nor a die refuses reaches its block. -/
theorem Dev.gate_ok (d : Dev) (src : Src) (a : Nat) (f : Dev → Dev) (h : d.writeRefusal src a = none) : d.gate src a f = f d := by
  simp [Dev.gate, h]

/-- A Col write that Narrows protects (R420): counted and raised, and nothing else. -/
theorem Dev.gate_col (d : Dev) (c : Bool) (a : Nat) (f : Dev → Dev) (h : colProtected a = true) :
    d.gate (.col c) a f = (d.addSat (ra 0xE 0x14) 1).raiseAt 0xE 3 (blk a * 256) 0 := by
  simp [Dev.gate, Dev.writeRefusal, isCol, h]

@[simp] theorem Dev.onPort_eq (d : Dev) (p : Nat) (f : Port → Port) : d.onPort p f = d.setPort p (f (d.port p)) := rfl
@[simp] theorem Dev.onLane_eq (d : Dev) (l : Nat) (f : Lane → Lane) : d.onLane l f = d.setLane l (f (d.lane l)) := rfl
@[simp] theorem Dev.wr_port (d : Dev) (a : Nat) (v : Word) (p : Nat) : (d.wr a v).port p = d.port p := rfl
@[simp] theorem Dev.wr_lane (d : Dev) (a : Nat) (v : Word) (l : Nat) : (d.wr a v).lane l = d.lane l := rfl
@[simp] theorem Dev.setLane_port (d : Dev) (l : Nat) (v : Lane) (p : Nat) : (d.setLane l v).port p = d.port p := rfl
@[simp] theorem Dev.setPort_lane (d : Dev) (p : Nat) (v : Port) (l : Nat) : (d.setPort p v).lane l = d.lane l := rfl
@[simp] theorem Dev.setLane_rd (d : Dev) (l : Nat) (v : Lane) (a : Nat) : (d.setLane l v).rd a = d.rd a := rfl
@[simp] theorem Dev.setPort_rd (d : Dev) (p : Nat) (v : Port) (a : Nat) : (d.setPort p v).rd a = d.rd a := rfl

end Sys2Proof.Machine
end

