-- ==== Sys2Proof/WellFormed.lean ====
section
/-! DEFINITION. Well-formed commands: what the outside can supply. A value no event of the hardware carries (a payload of
another length than its header gives, a core cycle past the longest frame) is ill-formed. -/

namespace Sys2Proof

/-- The payload has the length LEN gives, and what follows the tail fits the last cell (R142, R143). -/
def Packet.wf (pk : Packet) : Bool :=
  pk.payload.length == 64 * (pk.hdr.len.toNat + 1) && decide (pk.pad.length < 256)

/-- A command the hardware can meet. -/
def Instr.wf : Instr → Bool
  /- A pulse falls in a frame of at most 511 core cycles (R48). -/
  | .ticksyncPulse cyc => decide (1 ≤ cyc.toNat)
  /- A column carries one codeword for each of 1, 2, 4, 8 or 16 lanes (R87). -/
  | .codewordDecode _ col => col.words.length ∈ [1, 2, 4, 8, 16]
  | .lswReceive _ w => w.words.length ∈ [1, 2, 4, 8, 16]
  | .headerLookup _ pk _ => pk.wf
  | .colPacketSend pk => pk.wf
  /- Write and read commands carry 1 to 60 words over MCTP and 1 to 1,024 over the Obvo link (R403, R413). -/
  | .obvoWr _ _ _ vals => decide (1 ≤ vals.length)
  | .regWrite _ _ _ vals => decide (1 ≤ vals.length)
  /- 80 diodes (R457). -/
  | .diodeRead temps noRise => temps.length == 80 && noRise.all (fun i => decide (i < 80))
  | _ => true

end Sys2Proof
end

