-- ==== Sys2Proof/Tests/Slice0.lean ====
section
/-! SUPPORT. Tests: ill-formed commands, worked examples of the spec, single steps, and for each statement with premises
a state that meets them, clause by clause. -/

namespace Sys2Proof.Tests

set_option Elab.async false

open Sys2Proof Sys2Proof.Machine Sys2Proof.Claim

/-- A device in service: rails, parts UP, data path in service, frame LOCKED, a plat active, Col READY. -/
def up : Dev := { State.reset.dev with
  rails := true, inService := true, dies := List.replicate 12 .up, hbms := List.replicate 8 .up, bridges := List.replicate 15 .up
  frm := { st := .locked, no := 1000, elapsed := 1000 }, plat := { active := true }, col := { st := .ready } }

/-- The reset state with another device. -/
def on (d : Dev) : State := { State.reset with dev := d }

/-- Port `p` valid on two lanes from lane 2p. -/
def pv (p : Nat) : Nat × Word := (rp 0xA 0x100 p, 0x80010000 ||| BitVec.ofNat 32 (2 * p))


/-! ## Ill-formed commands are refused -/

def hdr0 : Header := { seq := 0, srcId := 0, dstId := 0, slice := 0, op := 1, len := 1, vc := 0, cls := 0, order := false, spec := false, mark := false,
                       echo := false, hops := 0, viaV := false, via := 0, rsv := 0, fmt := 1 }
/-- A packet whose payload has `n` bytes, with `p` bytes after its tail; its LEN asks for 128 bytes. -/
def pktN (n p : Nat) : Packet := { hdr := hdr0, payload := zeros n, tailRsv := 0, verdict := 0, crc := 0, pad := zeros p }
theorem illformed_pulse : (Instr.ticksyncPulse 0).wf = false := by decide
theorem illformed_lanes : (Instr.codewordDecode 0 { words := List.replicate 3 0, cycle := 0 }).wf = false := rfl
theorem illformed_sideband : (Instr.lswReceive 0 { words := [], cycle := 0 }).wf = false := rfl
theorem illformed_payload : (Instr.colPacketSend (pktN 64 0)).wf = false := by decide
theorem illformed_pad : (Instr.colPacketSend (pktN 128 256)).wf = false := by decide +kernel
theorem wellformed_packet : (Instr.colPacketSend (pktN 128 255)).wf = true := by decide +kernel
theorem illformed_received : (Instr.headerLookup 127 (pktN 64 0) 0).wf = false := by decide
theorem illformed_words : (Instr.obvoWr .obIn 7 0 []).wf = false := by decide
theorem illformed_trail_words : (Instr.regWrite 9 1 0 []).wf = false := by decide
theorem illformed_diodes : (Instr.diodeRead (List.replicate 79 200) []).wf = false := by decide
theorem illformed_diode_flag : (Instr.diodeRead (List.replicate 80 200) [80]).wf = false := by decide
/-! ## Witnesses: the whole machine, frames, registers -/

theorem witness_StepRunsFrontCommand : (on up).pending = [] := by decide

theorem witness_invariants : MemOk (on up) ∧ ListsOk up ∧ (∃ t, step (on up) = .next t) := by
  exact ⟨rfl, ⟨rfl, fun _ h => (by cases h), fun _ h => (by cases h)⟩, ⟨on up, rfl⟩⟩

theorem witness_FusesOnlyGain : ∃ t, exec .idcode (on up) = .next t := ⟨_, rfl⟩

def dAl : Dev := { up with regs := [(ra 0xC 8, 0xFFFFFFFF)] }
theorem witness_ConditionIsHeld : (condAddr 1 0, condWord 1 1 0) ∉ dAl.raised ∧ Machine.bit (dAl.rd (condAddr 1 0 + 4)) 0 = false ∧
    Machine.bit ((dAl.wr (condAddr 1 0) ((dAl.raiseAt 1 1 0 0).rd (condAddr 1 0))).rd (ra 0xC 8)) 1 = true ∧ ra 0xC 8 ≠ condAddr 1 0 + 4 := by
  decide

theorem witness_NarrowsProtectsRegisters : ∃ addr : Word, colProtected addr.toNat = true ∧ addr.toNat < 0x12000000 ∧ addr.toNat % 4 = 0 :=
  ⟨0x11000110, by decide⟩

theorem quiet_up : Quiet (on up) := ⟨rfl, rfl, rfl, rfl, rfl, rfl, rfl, fun _ => ⟨rfl, rfl⟩⟩

/-- A write of GLB_SCRATCH from the host waits. -/
def dScr : Dev := { up with inputs := [.registerWrite .obvo (BitVec.ofNat 32 (ra 0 0x38)) 5] }
theorem witness_FrameBoundaryBeginsFrame : Quiet (on up) ∧ Quiet { on dScr with dev := { dScr with inputs := [] } } ∧
    dScr.inputs = [.registerWrite .obvo (BitVec.ofNat 32 (ra 0 0x38)) 5] :=
  ⟨quiet_up, quiet_up, rfl⟩

/-- A write of a port's DISABLE from a source. -/
def actPort (who : Who) (v : Word) : CtlAct := { who := who, op := .write (rp 3 0 127) fullMask v, cmd := 0, idx := 0 }
theorem witness_FrameBoundaryBeginsFrame_actions :
    (on { up with obvo := { up.obvo with acts := [actPort (.sw .obvo) 1] } }).dev.obvo.acts = [actPort (.sw .obvo) 1] ∧
    (onStage (actPort (.sw .obvo) 1) && up.stageDue) = false ∧
    (whoLevel (actPort (.sw (.trail 255)) 1).who < whoLevel (actPort (.sw .obvo) 0).who ∧
      (on up).clash (actPort (.sw .obvo) 0) (actPort (.sw (.trail 255)) 1) = true) ∧
    (actPort (.sw .obvo) 1).who = (actPort (.sw .obvo) 0).who := by decide +kernel

/-- A trail port that serves. -/
def dHear : Dev := { up with obvo := { up.obvo with eid := 9 } }
theorem witness_sources : Reached (on dHear) (.trail 9) (ra 1 0xC) ∧ Reached (on up) .obvo (rl 0 511) ∧ Heard (on up) (.col true) := by
  refine ⟨⟨fun _ => ⟨by decide, by decide⟩, by decide⟩, ⟨fun h => (by cases h), by decide⟩, fun h => (by cases h)⟩

def dArm : Dev := { up with regs := [(ra 1 0xC, 1)] }
def dPul : Dev := { up with frm := { up.frm with no := 65534 } }
def dLost : Dev := { up with frm := { up.frm with st := .lost } }
def dSkew : Dev := { up with ports := [(127, { skewed := true, skewGood := 64 })] }
theorem witness_ReferenceClockKeepsTheFrame : (dArm.frm.st ≠ .lost ∧ dArm.bit (ra 1 0xC) 0 = true) ∧
    (dPul.aligned = true ∧ dPul.bit (ra 1 0xC) 0 = false ∧ dPul.pulseOffset 0 = 0) ∧
    (dPul.pulseOffset 256 ≠ 0 ∧ -32768 ≤ dPul.pulseOffset 256 ∧ dPul.pulseOffset 256 < 32768) ∧ dLost.frm.st = .lost ∧
    ((dSkew.port 127).skewed = true ∧ 64 ≤ (dSkew.port 127).skewGood) := by decide

theorem witness_RegisterWriteSetsFields : isCol (.trail 8) = false ∧ (0x0100000C : Word).toNat % 4 = 0 ∧ blk (0x0100000C : Word).toNat = 1 ∧
    up.keepsW1c 0x0100000C = false ∧ (0x00000038 : Word).toNat = ra 0 0x38 ∧
    (colProtected 0x01000000 = false ∧ (0x01000000 : Word).toNat < 0x12000000 ∧ (0x01000000 : Word).toNat % 4 = 0) := by decide

def dLat : Dev := { up with latches := [(1, (rp 0x10 0x484 0, 7))] }
theorem witness_RegisterPairsReadTogether :
    (isPairLo (rp 0x10 0x480 0) = true ∧ rp 0x10 0x480 0 % 4 = 0 ∧ rp 0x10 0x480 0 < 0x12000000 ∧ up.dieRefusal (rp 0x10 0x480 0) = none) ∧
    (isPairLo (rp 0x10 0x484 0 - 4) = true ∧ isPairLo (rp 0x10 0x484 0) = false ∧ dLat.dieRefusal (rp 0x10 0x484 0) = none ∧
      mapGet (0, 0) dLat.latches (srcKind .obvo) = (rp 0x10 0x484 0, 7)) := by decide

/-! ## Witnesses: lanes -/

def laneIs (st : LaneSt) : Dev := { up with regs := [pv 255], lanes := [(511, { st := st })] }

theorem portOf511 (st : LaneSt) : (laneIs st).portOf 511 = none := by cases st <;> decide

theorem witness_LaneControlMovesLane (p : Nat) : ∀ st ∈ [LaneSt.off, .test, .adapt, .ready],
    (laneIs st).writeRefusal .obvo (rl 0 511) = none ∧ (laneIs st).inService = true ∧ (laneIs st).plat.active = true ∧
    ((laneIs st).portOf 511 = some p → ((laneIs st).port p).st ≠ .disabled ∧ ((laneIs st).port p).due = []) ∧ carries ((laneIs st).lane 511).st = false ∧
    patOn ((laneIs st).fld (rl 0x50 511) 0 3) = false ∧ patOn ((laneIs st).fld (rl 0x50 511) 4 3) = false ∧ ((laneIs st).lane 511).st = st := by
  intro st _
  have h := portOf511 st
  refine ⟨?_, ?_, ?_, fun e => (by rw [h] at e; cases e), ?_⟩ <;> revert st <;> decide

theorem witness_LaneControlMovesLane_values : (Machine.bit (1 : Word) 0 = true ∧ Machine.bit (1 : Word) 1 = false ∧ Machine.fld 1 5 2 = 0) ∧
    Machine.bit (0 : Word) 0 = false ∧ (Machine.bit (3 : Word) 0 = true ∧ Machine.bit (3 : Word) 1 = true ∧ Machine.fld 3 5 2 = 0) ∧
    (Machine.bit (0x41 : Word) 0 = true ∧ Machine.bit (0x41 : Word) 1 = false ∧ Machine.fld 0x41 5 2 = 2) := by decide

def dSv : Dev := { up with regs := [pv 0], lanes := [(0, { st := .service }), (1, { st := .service })], ports := [(0, { st := .up, wakeAt := some 992, rxWakeAt := some 992 })] }
theorem witness_LossOfALaneTakesPortDown : carries (dSv.lane 0).st = true ∧ dSv.portOf 0 = some 0 ∧ (dSv.port 0).st ≠ .down ∧ (dSv.port 0).st ≠ .disabled ∧
    dSv.writeRefusal .obvo (rl 0 0) = none ∧ (dSv.lane 0).rxEi = false ∧ 8 ≤ dSv.age 992 ∧ (dSv.port 0).wakeAt = some 992 ∧
    (dSv.port 0).rxWakeAt = some 992 ∧ dSv.rxBack 0 = false := by decide

/-- A lane that trains since frame 0. -/
def dSlow : Dev := { up with frm := { up.frm with elapsed := 200000 }, lanes := [(511, { st := .hunt, tAdapt := some 0 })] }
theorem witness_LaneTrainingSteps : (((laneIs .adapt).lane 511).st = .adapt ∧ 511 / 64 ∉ (laneIs .adapt).clkDead) ∧
    (((laneIs .hunt).lane 511).st = .hunt ∧ ((laneIs .hunt).lane 511).rxEi = false) ∧
    (({ up with lanes := [(511, { rxEi := true })] } : Dev).lane 511).rxEi = true ∧
    (((laneIs .tune).lane 511).st = .tune ∧ ((laneIs .tune).lane 511).rxEi = false) ∧
    ((dSlow.lane 511).tAdapt = some 0 ∧ 200000 ≤ dSlow.age 0 ∧ (dSlow.lane 511).st = .hunt) := by decide

/-- A serving lane whose eye was once too low. -/
def dLow : Dev := { dSv with lanes := [(0, { st := .service, run := 1 })] }
theorem witness_EyeQualityDecidesLane : ((laneIs .tune).lane 511).st ∉ [LaneSt.off, .fault] ∧
    max 96 ((laneIs .tune).fld (rl 0 511) 8 8) ≤ min 255 (4 * min (100 - 75 - 1) (min (100 - 75 - 1) (100 - 75 - 1))) ∧
    ¬ (carries ((laneIs .tune).lane 511).st = true) ∧ carries (dSv.lane 0).st = true ∧ (dSv.lane 0).rxEi = false ∧
    ((dLow.lane 0).run ≠ 0 ∧ carries (dLow.lane 0).st = true ∧ ¬ (max 96 (dLow.fld (rl 0 0) 8 8) ≤ 95) ∧ (dLow.port 0).st = .up) ∧
    ((100 : Byte), 2) ∈ [((100 : Byte), 2)] := by decide

def dTx (taps : List Int) : Dev := { up with lanes := [(0, { st := .tune, taps := taps, lastReq := some 5 })] }
theorem witness_TapRequestsAnswered :
    (((dTx [0, -4, 50, -8]).lane 0).st = .tune ∧ ((dTx [0, -4, 50, -8]).lane 0).lastReq ≠ some 1 ∧
      tapsOk ([0, -4, 50, -8].set 2 51) = true ∧ (dTx [0, -4, 50, -8]).clampTaps 0 [0, -4, 51, -8] = [0, -4, 51, -8]) ∧
    tapsOk ([0, 0, 63, 0].set 2 64) = false ∧ (dTx []).clampTaps 0 (presetTaps 4) = presetTaps 4 ∧ ((dTx []).lane 0).lastReq = some 5 := by decide

theorem witness_LaneClockStopsDie : (∀ l, l / 64 = 7 → carries ((laneIs .ready).lane l).st = false) ∧ 448 / 64 ∈ ({ up with clkDead := [7] } : Dev).clkDead := by
  refine ⟨fun l _ => ?_, by decide⟩
  by_cases h : l = 511
  · subst h; decide
  · have e : (laneIs .ready).lane l = {} := by
      simp only [Dev.lane, laneIs, mapGet]
      rw [if_neg (fun e => h e.symm)]
    rw [e]; decide

def dDesk : Dev := { up with regs := [pv 127], lanes := [(254, { st := .ready }), (255, { st := .ready })] }
def dEi : Dev := { dSv with ports := [(0, { st := .up, txEi := true, wakeDue := some 999 })], lanes := [(0, { st := .ei, rxEi := true }), (1, { st := .ei, rxEi := true })] }
def dEk : Dev := { dSv with regs := [pv 0, (rl 0 0, 0x80), (rl 0 1, 0x80)], ports := [(0, { st := .up, idle := 1 })] }
/-- A receiver whose energy is back and whose lanes have locked. -/
def dBack : Dev := { dSv with lanes := [(0, { st := .ei, rxEi := true, rxLock := true }), (1, { st := .ei, rxEi := true, rxLock := true })] }
theorem witness_PortIdleAndWake : (dDesk.pvalid 127 = true ∧ (dDesk.port 127).st = .down ∧ (dDesk.port 127).rxWakeAt = none ∧ (∀ l ∈ dDesk.lanesOf 127, (dDesk.lane l).st = .ready ∨ (dDesk.lane l).st = .service)) ∧
    (dSv.pvalid 0 = true ∧ ∀ l ∈ dSv.lanesOf 0, carries (dSv.lane l).st = true) ∧
    dEk.eiOk 0 = true ∧
    ((dEi.port 0).txEi = true ∧ (dEi.port 0).wakeDue = some 999 ∧ 999 < dEi.now ∧ (dEi.port 0).wakeAt = none) ∧ ((dSv.port 0).wakeAt = some 992 ∧ 8 ≤ dSv.age 992) ∧
    (dBack.pvalid 0 = true ∧ (dBack.port 0).rxWakeAt.isSome = true ∧ ∀ l ∈ dBack.lanesOf 0, (dBack.lane l).rxLock = true) ∧
    (dEi.pvalid 0 = true ∧ (∀ l ∈ dEi.lanesOf 0, (dEi.lane l).rxEi = true) ∧ (dEi.port 0).rxWakeAt = none) := by decide

def dTest : Dev := { up with regs := [(rl 0 511, 1), (rl 0x50 511, 0x10)], lanes := [(511, { st := .test, chkLock := true, inj := some (some 255) })] }
theorem witness_LaneTestFunctions (p : Nat) : dTest.writeRefusal .obvo (rl 0x50 511) = none ∧ dTest.inService = true ∧ dTest.plat.active = true ∧ dTest.bit (rl 0 511) 0 = true ∧
    (dTest.portOf 511 = some p → (dTest.port p).st ≠ .disabled ∧ (dTest.port p).due = []) ∧ carries (dTest.lane 511).st = false ∧ (dTest.lane 511).st ≠ .fault ∧
    patOn (Machine.fld 0x33 0 3) = true ∧ patOn (Machine.fld 0x33 4 3) = true ∧ Machine.fld 0x33 4 3 ≠ dTest.fld (rl 0x50 511) 4 3 ∧
    dTest.checking 511 = true ∧ (dTest.lane 511).chkLock = true ∧ dTest.writeRefusal .obvo (rl 0x70 511) = none ∧ (dTest.lane 511).st = .test ∧ (dTest.lane 511).tLeft ≠ dTest.now + 1 ∧
    Machine.bit 0x80FF0001 31 = true ∧ Machine.fld 0x80FF0001 0 2 = 1 ∧ (dTest.lane 511).inj = some (some 255) := by
  have h : dTest.portOf 511 = none := by decide
  refine ⟨by decide, by decide, by decide, by decide, fun e => (by rw [h] at e; cases e), ?_⟩
  decide

/-! ## Witnesses: links -/

def idnt : Ident := { dir := 0, roleLane0 := 0, lane0 := 0, trayPos := 0, coord := 0, fwVer := 0, lproto := 1, part := 0, vendor := 0, serial := 9, remap := false,
                      coordV := false, stomp := true, switch := false }

/-- Port 0 as given, frame 640,000. -/
def pIs (x : Port) : Dev := { up with frm := { up.frm with elapsed := 640000 }, regs := [pv 0], ports := [(0, x)] }

theorem witness_PartnerIsIdentifiedAndTimed : ((pIs { st := .exchange, ident := some idnt }).port 0).st = .exchange ∧
    (((pIs { st := .up, ident := some idnt }).port 0).st = .up ∧ ((pIs { st := .up, ident := some idnt }).port 0).ident = some idnt ∧
      identOf 0 ≠ idnt ∧ (pIs { st := .up, ident := some idnt }).emuRole 0 ≠ 2) ∧
    linked ((pIs { st := .up }).port 0).st = true ∧ ((pIs { st := .exchange, ident := some idnt }).port 0).ident.isSome = true := by decide +kernel

/-- Port 0 at EXCHANGE with an endpoint partner of the device's own link protocol, and a measured delay. -/
def idOk : Ident := { idnt with lproto := Config.lproto }
def dChk (delay : Nat) : Dev := { pIs { st := .exchange, ident := some idOk, delay := some delay } with regs := [pv 0, (rp 0xA 0x110 0, 0x80000000)] }
theorem witness_PortCheckDecides : ((dChk 256).port 0).st = .exchange ∧ ((dChk 256).port 0).ident = some idOk ∧ ((dChk 256).port 0).delay = some 256 ∧
    (dChk 256).exchWaits 0 = false ∧ Due.check ∉ ((dChk 256).port 0).due ∧ (dChk 256).linkTest 0 idOk 256 = none ∧ idOk.fwVer = (dChk 256).col.fwVer ∧ ((dChk 256).port 0).upReady = false ∧
    (dChk 257).linkTest 0 idOk 257 = some (5, 0xA, 64) := by
  refine ⟨rfl, rfl, rfl, by decide, by decide, ?_, rfl, rfl, by decide⟩
  have h : ¬ (idOk.lproto.toNat % 256 < (dChk 256).fld (rp 3 8 ((dChk 256).role 0)) 0 8) := by
    rw [show (dChk 256).fld (rp 3 8 ((dChk 256).role 0)) 0 8 = 0 by decide]; omega
  unfold Dev.linkTest
  rw [if_neg (by decide), if_neg (by rintro (e | e); exacts [e rfl, h e])]
  decide

theorem witness_PortCheckDecides_none_waits (r : Nat) : ((dChk 256).port r).swapWait ≠ some 0 := by
  by_cases h : r = 0
  · subst h; decide
  · have e : (dChk 256).port r = {} := by
      simp only [Dev.port, dChk, pIs, mapGet]
      rw [if_neg (fun e => h e.symm)]
    rw [e]; decide

theorem witness_LinkTimersAct :
    (let x : Port := { st := .check, ident := some idnt, swapWait := some 1, tCheck := 632000 }
     ((pIs x).port 0).swapWait = some 1 ∧ ((pIs x).port 0).st = .check ∧ 8000 ≤ (pIs x).age ((pIs x).port 0).tCheck) ∧
    (let x : Port := { st := .exchange, tExch := 631990, tWaited := 10 }
     ((pIs x).port 0).st = .exchange ∧ ((pIs x).port 0).tWaited + 8000 ≤ (pIs x).age ((pIs x).port 0).tExch) ∧
    (let x : Port := { st := .check, decided := true, upReady := true, tDecide := 632000 }
     ((pIs x).port 0).st = .check ∧ ((pIs x).port 0).decided = true ∧ ((pIs x).port 0).upReady = true ∧ Due.up ∉ ((pIs x).port 0).due ∧
       (pIs x).bit (rp 7 0x100 0) 31 = false ∧ (pIs x).bit (rp 8 0x108 0) 0 = false ∧ 8000 ≤ (pIs x).age ((pIs x).port 0).tDecide) ∧
    (let d : Dev := { pIs {} with regs := [(rp 0xA 0x110 0, 0x80000000), pv 0] }
     Machine.bit (d.nb (d.role 0)) 31 = true ∧ (d.port 0).st ≠ .up ∧ (d.port 0).missing = false ∧ 640000 ≤ d.age (d.port 0).tOut) := by decide

def dTok : Dev := { pIs { st := .quar, cause := 6, tQuar := 1 } with col := { st := .ready } }
/-- A port quarantined for its role, and a token for it that Narrows holds. -/
def dTok3 : Dev := { pIs { st := .quar, cause := 3, tQuar := 1 } with col := { st := .ready, tokens := [(0, 3, 1000, 999)] } }
theorem witness_PortControlTakesEffect :
    (dTok.writeRefusal .obvo (rp 3 0x14 0) = none ∧ Machine.bit 0x80000006 31 = true ∧ dTok.actDue = false ∧ (dTok.port 0).st = .quar ∧
      Machine.fld 0x80000006 0 4 = (dTok.port 0).cause ∧ (dTok.port 0).tQuar ≠ dTok.now ∧ (dTok.port 0).cause = 6 ∧
      Due.up ∉ (dTok.port 0).due ∧ dTok.bit (rp 7 0x100 0) 31 = false ∧ dTok.bit (rp 8 0x108 0) 0 = false) ∧
    ((dTok3.port 0).cause ≤ 3 ∧ dTok3.tokenOk 0 (dTok3.port 0).cause = true) ∧
    ({ dTok with plat := { active := true, act := some { t := 1000, drain := 0, draining := true } } } : Dev).actDue = true ∧
    ((pIs { st := .up }).port 0).st ≠ .quar ∧
    (let d := pIs {}
     d.writeRefusal .obvo (rp 3 0 0) = none ∧ (∀ l ∈ d.lanesOf 0, d.portOf l = some 0) ∧ (d.port 0).st = .down ∧ (d.port 0).decided = false ∧
       (d.port 0).role = none ∧ (d.port 0).replay = [] ∧ (d.port 0).train = none ∧ d.lost = [] ∧ (∀ k ∈ d.pkts, k.ing ≠ some 0) ∧
       (∀ l ∈ d.lanesOf 0, (d.lane l).st ≠ .ei ∧ (d.lane l).st ≠ .wake ∧ (d.lane l).inj = none)) ∧
    ((pIs { st := .disabled }).port 0).st = .disabled ∧ (∀ l ∈ (pIs { st := .disabled }).lanesOf 0, ((pIs { st := .disabled }).lane l).st = .off) := by decide

def hd0 : Header := { seq := 1, srcId := 2, dstId := 3, slice := 0, op := 1, len := 0, vc := 1, cls := 0, order := false, spec := false, mark := false,
                      echo := false, hops := 8, viaV := false, via := 0, rsv := 0, fmt := 1 }
def pk0 : Packet := { hdr := hd0, payload := zeros 64, tailRsv := 0, verdict := 0, crc := 0, pad := [] }
def pUp : Port := { st := .up, replay := [{ pid := 1, idx := 0, rseq := 0, tag := 0, pk := pk0, bad := false }], sndRseq := 1, served := some 5, reqOpen := true, reqId := 7,
                    reqAt := 639992, reqTries := 2, reqFor := some 0 }
theorem witness_RetryReplaysInOrder : linked ((pIs pUp).port 0).st = true ∧ ackPos pUp 1 = some 1 ∧ ackPos pUp 0 = some 0 ∧ pUp.served ≠ some 4 ∧
    pUp.served = some 5 ∧ pUp.reqOpen = true ∧ pUp.reqId = 7 ∧ 8 ≤ (pIs pUp).age pUp.reqAt ∧ pUp.reqFor = some pUp.reqAck ∧ pUp.reqTries < 3 ∧
    3 ≤ ({ pUp with reqTries := 3 } : Port).reqTries := by decide

/-- A codeword of data blocks without an error. -/
def cwGood : BitVec 5440 := (codeword 0 (List.replicate 19 (dataBlk 0)) 0).1
/-- A codeword all zero but for its first sixteen parity symbols: more errors than can be mended. -/
def cwBad : BitVec 5440 := BitVec.ofNat 5440 (symbolsNat (List.replicate 16 1) <<< 5140)

theorem cwGood_decodes : rsDecode cwGood = some (cwGood, 0) := by decide +kernel
theorem cwGood_data (h : BitVec 58) : ∀ b ∈ (openWord h cwGood).1, isData b = true := by
  intro b hb
  obtain ⟨x, hx, rfl⟩ := List.mem_map.1 hb
  exact (show ∀ x ∈ (headersOf cwGood).zipIdx, (x.1 == 1) = true by decide +kernel) x hx

theorem gfMul_zero (a : Nat) : gfMul 0 a = 0 := by simp [gfMul, gfDouble]
theorem rsAt_zeros (n : Nat) (w : List Nat) (j : Nat) : rsAt (List.replicate n 0 ++ w) j = rsAt w j := by
  have z : ∀ n, (List.replicate n 0).foldl (fun v s => gfMul v (gfAlpha j) ^^^ s) 0 = 0 := by
    intro n
    induction n with
    | zero => rfl
    | succ n ih => simpa [List.replicate_succ, gfMul_zero] using ih
  simp only [rsAt, List.foldl_append, z]
theorem cwBad_lost : rsDecode cwBad = none := by
  have h : symbolsOf 544 cwBad.toNat = List.replicate 514 0 ++ (List.replicate 16 1 ++ List.replicate 14 0) := by decide +kernel
  have hs : syndromes (List.replicate 514 0 ++ (List.replicate 16 1 ++ List.replicate 14 0)) = syndromes (List.replicate 16 1 ++ List.replicate 14 0) :=
    List.map_congr_left fun j _ => rsAt_zeros _ _ j
  have hp : ¬ (rsParity ((List.replicate 514 0 ++ (List.replicate 16 1 ++ List.replicate 14 0)).take 514) = cwBad.toNat >>> 5140) := by decide +kernel
  have hd : 15 < ((List.range 30).foldl (Locator.next (syndromes (List.replicate 16 1 ++ List.replicate 14 0))) {}).deg := by decide +kernel
  unfold rsDecode
  simp only [h, hs]
  rw [if_neg hp, if_pos (Or.inl hd)]

def dFree : Dev := { pIs { st := .up } with frm := {} }
/-- Port 0 UP, its two lanes in service. -/
def dLnk : Dev := { pIs { st := .up } with lanes := [(0, { st := .service }), (1, { st := .service })] }
theorem witness_ColumnsAndSidebandWords : linked (dLnk.port 0).st = true ∧ dLnk.pvalid 0 = true ∧ takesCells (dLnk.port 0) = true ∧
    (dLnk.port 0).reqOpen = false ∧ [cwGood, cwGood].length = (dLnk.lanesOf 0).length ∧ [cwBad, cwGood].length = (dLnk.lanesOf 0).length ∧
    (∀ l ∈ dLnk.lanesOf 0, carries (dLnk.lane l).st = true ∧ (dLnk.lane l).rxEi = false ∧ (dLnk.lane l).headers.2.length < 13 ∧
      (dLnk.lane l).levelNow (dLnk.cycles 0 + 255) ≤ 45 * 8192) ∧
    (dLnk.port 0).reqFor ≠ some (dLnk.port 0).ackRseq ∧ (∀ k ∈ dLnk.pkts, k.ing ≠ some 0) ∧
    (let w := lswOf 0
     (w.rop = 0 ∨ w.rop = 3) ∧ w.bad0 = none ∧ w.bad1 = none ∧ w.upToV = false) ∧
    dFree.aligned = false ∧ (pIs { st := .up, delay := some 3 }).aligned = true ∧ 1 < (pIs { st := .up, delay := some 3 }).markOff 0 (lswOf 0) 0 := by
  decide +kernel

/-! ## Witnesses: packets, admission, trains, faults -/

/-- Ports 0 and 1 UP with endpoint partners; device 3 is the endpoint on port 0, device 2 the one on port 1. -/
def dSw : Dev := { up with
  regs := [pv 0, pv 1, (ra 4 (0x800000 + 8 * 2), 0x3F01), (ra 4 (0x800004 + 8 * 2), 0x00FE0001), (ra 4 (0x800000 + 8 * 3), 0x3F01),
           (ra 4 (0x800004 + 8 * 3), 0x00FE0000), (ra 4 0x400000, 1), (ra 4 0x400004, 3), (ra 4 4, 2), (rp 4 0x100 0, 1), (rp 5 0x304 0, 0x00100000)]
  lanes := [(0, { st := .service }), (1, { st := .service }), (2, { st := .service }), (3, { st := .service })]
  ports := [(0, { st := .up, ident := some idnt }), (1, { st := .up, ident := some idnt })], nextId := 10 }

def hdC : Header := { hd0 with op := 1, vc := 0, cls := 0 }
def pkC : Packet := { pk0 with hdr := hdC }
def tg0 : Tgt := { port := some 0, dir := 0, vc := 0 }
def kC : Pkt := { id := 4, ing := some 1, pk := pkC, conf := true, tgts := [tg0] }
def dAd : Dev := { dSw with pkts := [kC], bud := [(0, (1, 0))] }

theorem witness_HeaderLookupPlacesPacket : takesCells (dSw.port 1) = true ∧ (dSw.port 1).reqOpen = false ∧ dSw.isEmu 1 = false ∧
    vcValid (dSw.pSwitch 1) 0 0 = true ∧ dSw.overruns 1 hdC 0 = false ∧ dSw.holdFull 1 hdC = false ∧
    dSw.tests (some 1) { hdC with hops := BitVec.ofNat 6 dSw.hopLimit } = none ∧ (dSw.dt 3).ty = 1 ∧ (dSw.dt 3).coord = dSw.own ∧
    dSw.tests (some 1) { hdC with dstId := 0 } = some 4 ∧
    ({ dSw with pkts := List.replicate 20 { kC with pk := { pkC with hdr := { hdC with len := 63 } } } } : Dev).holdFull 1 hdC = true := by decide

def kU : Pkt := { kC with conf := false, pk := { pkC with crc := pktCrc hdC (zeros 64) } }
def dUc (k : Pkt) : Dev := { dSw with pkts := [k] }
theorem witness_ConfirmationAndStomp : ((dUc kU).pkt 4 = some kU ∧ kU.conf = false ∧ kU.ing = some 1 ∧ (dUc kU).lost = [] ∧ (dUc kU).emuRole 1 = 0 ∧
      kU.verd = true ∧ kU.pk.verdict = 0 ∧ kU.pk.crc = pktCrc kU.arrived.hdr kU.pk.payload ∧ kU.st = .hold ∧ kU.dues = [] ∧ kU.owed = none ∧ kU.sentOn = [] ∧
      (dUc kU).caps = []) ∧ ({ kU with pk := { kU.pk with verdict := 0xFF } } : Pkt).pk.verdict ≠ 0 ∧
    (pktCrc hdC (zeros 64) + 1 ≠ pktCrc hdC (zeros 64)) := by
  refine ⟨⟨rfl, rfl, rfl, rfl, by decide, rfl, rfl, rfl, rfl, rfl, rfl, rfl, rfl⟩, by decide, fun e => ?_⟩
  simp at e

theorem witness_AdmissionAcceptsPacket : dAd.pkts.filter dAd.presents = [kC] ∧ dAd.pkt 4 = some kC ∧ dAd.orderPort kC = none ∧ dAd.affected kC = none ∧
    dAd.behindParked kC = false ∧ kC.mcast = false ∧ kC.conf = true ∧ kC.use = .plain ∧ isWatched kC.pk.hdr = false ∧ kC.tgts = [tg0] ∧
    kC.pk.hdr.cls.toNat ≠ 1 ∧ dAd.tryTgt 0 kC tg0 = .ok 0 false ∧ ({ dAd with bud := [(0, (0, 1))] } : Dev).tryTgt 0 kC tg0 = .ok 0 true ∧ dAd.lost = [] ∧
    (∀ e ∈ dAd.queue, e.key < dAd.nextId) := by decide

def kO (st : PkSt) (seq : BitVec 16) : Pkt :=
  { kC with st := st, pk := { pk0 with hdr := { hd0 with cls := 4, vc := 10, order := true, seq := seq } }, tgts := [{ tg0 with vc := 10 }], since := 998 }
def dOr (st : PkSt) (seq : BitVec 16) : Dev := { dSw with pkts := [kO st seq] }
def dOb : Dev := { dSw with pkts := [kO .hold 0, { kO .ordHeld 5 with id := 5, ing := none }] }
theorem witness_OrderPacketsMeetTheirTracker :
    ((dOr .hold 5).pkt 4 = some (kO .hold 5) ∧ (dOr .hold 5).orderPort (kO .hold 5) = some 0 ∧ (dOr .hold 5).isHead (kO .hold 5) = true ∧
      (dOr .hold 5).affected (kO .hold 5) = none ∧ (dOr .hold 5).behindParked (kO .hold 5) = false ∧ (dOr .hold 5).orderBusy (kO .hold 5) 0 = false ∧
      orderMet {} (kO .hold 5).pk.hdr = false) ∧
    (dOb.pkt 4 = some (kO .hold 0) ∧ dOb.orderPort (kO .hold 0) = some 0 ∧ dOb.isHead (kO .hold 0) = true ∧ dOb.orderBusy (kO .hold 0) 0 = true) ∧
    (orderMet {} (kO .hold 0).pk.hdr = true ∧ isWatched (kO .hold 0).pk.hdr = false ∧ 4 < (dOr .hold 0).nextId ∧ (dOr .hold 0).orderBusy (kO .hold 0) 0 = false ∧
      ({ dOr .hold 0 with bud := [(4, (1, 0))], regs := dSw.regs ++ [(rp 5 0x140 0, 0x20000040)] } : Dev).tryTgt 0 (kO .hold 0) { tg0 with vc := 10 } = .ok 0 false) ∧
    ((dOr .ordHeld 0).pkt 4 = some (kO .ordHeld 0) ∧ orderMet {} (kO .ordHeld 0).pk.hdr = true) ∧
    (max 1 ((dOr .ordHeld 5).fld (ra 4 4) 0 16) ≤ (dOr .ordHeld 5).age (kO .ordHeld 5).since ∧ orderMet {} (kO .ordHeld 5).pk.hdr = false) := by decide

def qC : QEnt := { key := 7, pid := 4, out := 0, cls := 0, vc := 0, n := 1, charge := 1, draw := 1000, acc := 1000, cid := 0, ing := some 1, pk := pkC, conf := true }
def dTr (tr : Option Nat) (sent : Nat) (cb : List Nat) : Dev :=
  { dSw with queue := [{ qC with begun := tr.isSome }], pkts := []
             ports := [(0, { st := .up, ident := some idnt, train := tr, cellsSent := sent, ctlBlocks := cb }), (1, { st := .up })] }
/-- The entry whose train is in progress. -/
def qB : QEnt := { qC with begun := true }
theorem witness_TrainsBeginAndEnd : (linked ((dTr none 0 [0x13]).port 0).st = true ∧ (dTr none 0 [0x13]).txIdle 0 = false ∧
      ((dTr none 0 [0x13]).port 0).ctlBlocks = [0x13] ∧ 63 ≤ ((dTr none 0 [0x13]).port 0).sinceCtl) ∧
    (((dTr none 0 []).port 0).st = .up ∧ (dTr none 0 []).txIdle 0 = false ∧ ((dTr none 0 []).port 0).ctlBlocks = [] ∧ (dTr none 0 []).replayFull 0 = false ∧
      (dTr none 0 []).lost = [] ∧ ((dTr none 0 []).port 0).train = none ∧ (dTr none 0 []).pickTrain 0 = ((dTr none 0 []).port 0, some qC) ∧
      (dTr none 0 []).queue.find? (fun e => e.key == 7) = some qC ∧ qC.stomped = false ∧ (dTr none 0 []).badRead qC {} = none ∧ (dTr none 0 []).injs = [] ∧
      ((dTr none 0 []).port 0).rxXoff = 0) ∧
    (((dTr (some 7) 0 []).port 0).train = some 7 ∧ (dTr (some 7) 0 []).queue.find? (fun e => e.key == 7) = some qB ∧ ((dTr (some 7) 0 []).port 0).cellsSent < qB.n ∧
      (dTr (some 7) 0 []).badRead qB {} = none) ∧
    (((dTr (some 7) 1 []).port 0).train = some 7 ∧ ((dTr (some 7) 1 []).port 0).cellsSent = qB.n ∧ qB.conf = true ∧ qB.use = .plain ∧ (dTr (some 7) 1 []).caps = [] ∧
      qB.pk.hdr.vc.toNat < 16 ∧ Machine.fld ((dTr (some 7) 1 []).rd (rp 5 0x300 0)) 30 2 = 0) ∧
    ((dTr none 0 []).queue.find? (fun e => e.out == 0 && e.pid == 4 && ! e.stomped) = some qC ∧ (dTr none 0 []).late qC = true ∧ (dTr none 0 []).sentOf qC < qC.n ∧
      ((dTr none 0 []).queue.map (·.key)).Nodup) := by decide

def dSmp : Dev := { up with regs := [(ra 5 0x4030A0, 0x400)] }
theorem witness_SampleRingAndWatermarks : dSmp.writeRefusal .obvo (ra 5 (0x400F14 + 0x1000 * 3)) = none ∧
    Machine.fld 0x3FF 0 10 < dSmp.fld (ra 5 (0x4000A0 + 0x1000 * 3)) 0 19 ∧ up.fld (ra 5 (0x4000A0 + 0x1000 * 3)) 0 19 ≤ Machine.fld 0 0 10 ∧
    up.writeRefusal .obvo (ra 5 0) = none := by decide

theorem witness_FaultsOfBridgesAndParts :
    ((dTr none 0 []).queue.find? (fun e => e.pid == 4 && e.out == (0 : BitVec 7).toNat) = some qC ∧ qC.stomped = false ∧
      (dTr none 0 []).viaOut 0 4 0 = true ∧ (dTr none 0 []).sentOf qC < qC.n) ∧
    ((dUc kC).pkt 4 = some kC ∧ kC.ing = some 1 ∧ kC.conf = true ∧ inHold kC = true ∧ (dUc kC).viaIn 0 0 1 = true) ∧
    (dUc kC).loseCell 14 3 4 0 = none ∧
    ((dUc kC).findPk 4 = some pkC ∧ pkC.hdr.op = 0x01 ∧
      (dUc kC).basCrosses 0 0 (((dUc kC).pkt 4).bind (·.ing)) (((dUc kC).queue.filter (fun q => q.pid == 4)).map (·.out)) pkC = true) ∧
    up.partSt (.bridge 14) = .up ∧ ({ up with hbms := List.replicate 8 .init } : Dev).partSt (.stack 7) = .init := by decide
/-! ## Witnesses: routing -/

/-- A staged amendment without sections, due with the routing activation in frame 1,065. -/
def amd : List Byte := [0, 0, 0, 0, 0, 0, 1]
def dAc (c : Word) : Dev := { up with regs := [(ra 6 0x44, 1065), (ra 6 0x40, c)], plat := { active := true, load := .staged, digest := sha256 amd } }
theorem witness_RoutingActivationIsArmed :
    (up.writeRefusal (.col false) (ra 6 0) = none ∧ isCol (.col false) = true ∧ Machine.bit ({ up with straps := 0x8000 } : Dev).straps 15 = true ∧
      up.validPorts.any (fun p => up.isTorus p && [PortSt.check, .up, .quar].contains (up.port p).st) = false) ∧
    ((dAc 0).writeRefusal .obvo (ra 6 0x40) = none ∧ (dAc 0).aligned = true ∧ Machine.bit 0x80080000 31 = true ∧ Machine.bit 0x80080000 30 = false ∧
      (dAc 0).fno + drainOf (Machine.fld (0x80080000 &&& 0x000F7F7F) 0 6) < (dAc 0).rd64 (ra 6 0x44) % 2 ^ 48 ∧
      (dAc 0).rd64 (ra 6 0x44) % 2 ^ 48 ≤ (dAc 0).fno + 2 ^ 20 ∧ (dAc 0).ract = none ∧ ({ dAc 0 with ract := some { t := 1065, drain := 64 } } : Dev).ractDue = false ∧
      ({ dAc 0 with ract := some { t := 1000, drain := 64 } } : Dev).ractDue = true ∧ (dAc 0).plat.act = none ∧ Machine.bit (0x80080000 &&& 0x000F7F7F) 18 = false ∧
      Machine.bit (0x80080000 &&& 0x000F7F7F) 19 = true) ∧
    ((dAc 0).plat.load = .staged ∧ cKind amd = 1 ∧ ({} : Nv).bootUsed + bootRoom amd ≤ 0x1000000) ∧ (dAc 0).plat.digest = sha256 amd := by
  refine ⟨by decide, by decide, by decide, by simp only [dAc]⟩

def act0 : Act := { t := 1001, drain := 64, ovl := some 2 }
theorem witness_drainStart : act0.draining = false ∧ act0.t ≤ up.fno + act0.drain ∧ up.fno < act0.t := by decide

def actA : Act := { t := 1000, drain := 64, amend := true, draining := true }
def dOx (dst : BitVec 16) : Dev :=
  { dSw with oxbow := [(0, 4)], pkts := [{ kC with st := .parked, pk := { pkC with hdr := { hdC with dstId := dst } } }], bud := [(0, (1, 0))] }
def kP (dst : BitVec 16) : Pkt := { kC with st := .parked, pk := { pkC with hdr := { hdC with dstId := dst } } }
/-- A parked CAT_ABORT for the Catchment engine of entry 4. -/
def kEng : Pkt := { kP 4 with pk := { pkC with hdr := { hdC with dstId := 4, op := 0x23 } } }
def dEng : Dev := { dOx 4 with pkts := [kEng], regs := dSw.regs ++ [(ra 4 (0x800000 + 8 * 4), (0x3F04 : Word)), (ra 4 (0x800004 + 8 * 4), (0x00FE0000 : Word))] }
/-- A parked packet looked up again, and the device in which it is then offered. -/
def looked (d : Dev) (k : Pkt) : Pkt := ((d.oxDraw (d.oxbow.findIdx (fun e => e.2 == k.id)) k).relook k).2
def lookedIn (d : Dev) (k : Pkt) : Dev :=
  { (((d.oxDraw (d.oxbow.findIdx (fun e => e.2 == k.id)) k).relook k).1.onPkt k.id (fun _ => looked d k)) with reps := mapSet 0 d.reps 1 (0 + cellsOfPkt k.pk.hdr) }
/-- Entry 4 names an endpoint behind a port that the plat does not have. -/
def dNo : Dev := { dOx 4 with regs := dSw.regs ++ [(ra 4 (0x800000 + 8 * 4), (0x00103F01 : Word)), (ra 4 (0x800004 + 8 * 4), (0x00FE0000 : Word))] }
theorem witness_RoutingChangesInFrameT : actA.t ≤ up.fno ∧ up.tapHeld = false ∧ up.obvo.held = [] ∧ up.aligned = true ∧ dFree.aligned = false ∧
    (actA.amend = true ∧ up.plat.active = true ∧ cBase amd = up.plat.epoch ∧
      ({ up with ract := none } : Dev).ruleFour (({ up with ract := none } : Dev).setRecs (cRecs amd)) = none) ∧
    ((((dOx 3).oxbow.map (·.2)).filterMap (dOx 3).pkt).filter (fun x => x.st == .parked && x.ing == some 1) = [kP 3] ∧ (kP 3).conf = true ∧ (dOx 3).lost = [] ∧
      (dOx 3).affected (kP 3) = none ∧ mapGet 0 (dOx 3).reps 1 = 0 ∧ (looked (dOx 3) (kP 3)).st = .hold ∧ (looked (dOx 3) (kP 3)).mcast = false ∧
      (looked (dOx 3) (kP 3)).dues = [] ∧ (looked (dOx 3) (kP 3)).tgts = [tg0] ∧ (lookedIn (dOx 3) (kP 3)).orderPort (looked (dOx 3) (kP 3)) = none ∧
      isWatched (looked (dOx 3) (kP 3)).pk.hdr = false ∧ (lookedIn (dOx 3) (kP 3)).tryTgt 0 (looked (dOx 3) (kP 3)) tg0 = .ok 0 false) ∧
    (looked dEng kEng).st = .engine ∧
    ({ dOx 3 with ract := some { actA with classes := 0x7F, structural := true, draining := true } } : Dev).affected
      { kP 3 with pk := { pkC with hdr := { hdC with cls := 4 } } } ≠ none ∧
    (∃ dr, (looked dNo (kP 4)).st = .dropped dr) := by
  refine ⟨by decide, by decide, by decide, by decide, by decide, by decide, by decide, by decide, by decide, ?_⟩
  exact ⟨{ cause := .unreach, atOut := false, port := 1 }, by decide⟩

/-- A torus port down for the DWELL, and an overlay for its neighbour 7. -/
def dBy : Dev := { up with
  regs := [pv 0, (rp 6 0x100 0, 1), (rp 0xA 0x110 0, 0x80000007), (ra 6 0x50, 0x00500100), (ra 6 0x18, 0xC0000007)]
  ports := [(0, { st := .down, wasUp := true, tOut := 1000 })] }
def kMsg : Pkt := { kC with st := .engine, pk := { pkC with hdr := { hdC with op := 0x40 }, payload := [6, 1, 1, 0xE8, 4] ++ zeros 59 } }
theorem witness_BypassArmsItsOverlay :
    (dBy.portsTo 7 = [0] ∧ (dBy.port 0).st ≠ .up ∧ (dBy.port 0).wasUp = true ∧
      ((dBy.portsTo 7).map (fun p => (dBy.port p).tOut)).foldl max 0 + max 1 (Machine.fld (dBy.rd (ra 6 0x50)) 8 8) = dBy.now + 1 ∧
      [1, 2, 3].find? (fun k => dBy.ovlOn k && dBy.bit (ra 6 (0x10 + 4 * k)) 30 && dBy.ovlFor k == 7) = some 2 ∧ dBy.ovl = 0 ∧ dBy.plat.act = none ∧
      dBy.ract = none ∧ dBy.fno < (dBy.fno + Machine.fld (dBy.rd (ra 6 0x50)) 16 16) % 2 ^ 48) ∧
    (let d : Dev := { up with pkts := [kMsg], nextId := 5 }
     d.pkt 4 = some kMsg ∧ kMsg.st = .engine ∧ kMsg.conf = true ∧ ctlMsg 6 kMsg = true ∧ leAt kMsg.pk.payload 1 1 = 1 ∧ 4 < d.nextId ∧ leAt kMsg.pk.payload 2 1 = 1 ∧
       d.ovl = 0 ∧ d.plat.act = none ∧ d.ract = none ∧ d.fno < leAt kMsg.pk.payload 3 6) ∧
    (let a : Act := { t := 1256, drain := 64, ovl := some 2, byBypass := true }
     a.byBypass = true ∧ a.ovl = some 2 ∧ leAt kMsg.pk.payload 3 6 = a.t ∧ leAt kMsg.pk.payload 2 1 < 2) := by decide

/-! ## Witnesses: Catchment and the collectives -/

/-- Group 1 (one unit, port 1 a member) at destination 5, with its launch 9 of `n` chunks. -/
def gRegs (w6 : Word) : List (Nat × Word) :=
  [(ra 7 (0x800000 + 0x20), 2), (ra 7 (0x800000 + 0x34), 0x04000101), (ra 7 (0x800000 + 0x38), w6), (ra 4 (0x800000 + 8 * 5), 0x3F04),
   (ra 4 (0x800004 + 8 * 5), 0x00FE0001)]
def la (n low : Nat) : Launch := { st := .run, d := { nchunk := n, launch := 9, group := 1, stepF := 1, holdCeil := 3, abortLead := 4 }, low := low, deadline := 1000 }
def kK (chunk : Nat) (st : PkSt) : Pkt :=
  { kC with st := st, pk := { hdr := { hdC with op := 0x20, cls := 2, vc := 2, dstId := 5, len := 1 }, payload := leBytes 2 1 ++ leBytes 2 9 ++ leBytes 4 chunk ++ zeros 120
                              tailRsv := 0, verdict := 0, crc := 0, pad := [] } }
def ch0 (tk : List Taken) : Chunk := { g := 1, c := 0, launch := 9, spill := false, accs := List.replicate 16 {}, taken := tk }
def dCa (l : Launch) (k : Pkt) (c : List Chunk) : Dev :=
  { dSw with regs := dSw.regs ++ gRegs 0, launches := [(1, l)], pkts := [k], chunks := c }

theorem witness_ContributionsAreAccumulated_admit :
    let d := dCa (la 2 0) (kK 0 .engine) [ch0 []]
    d.pkt 4 = some (kK 0 .engine) ∧ (kK 0 .engine).pk.hdr.op = 0x20 ∧
    d.tieOrder (d.pkts.filter (d.catHead (chunkDie 1 0))) = kK 0 .engine :: [] ∧ d.catCheck (kK 0 .engine) = .ok ∧
    (kK 0 .engine).pk.hdr.cls ≠ 1 ∧ d.bit (rp 5 0x300 1) 30 = false ∧ d.refGroup (kK 0 .engine).pk = 1 ∧ catChunk (kK 0 .engine).pk = 0 ∧ d.chunk 1 0 = some (ch0 []) ∧ (ch0 []).spill = false ∧
    (d.drawn (chunkDie 1 0) 0).1 + catCost (kK 0 .engine).pk ≤ min (4000 - d.fld (ra 7 4) 0 12) (d.pwr.scale * (4000 - d.fld (ra 7 4) 0 12) / 256) := by
  refine ⟨rfl, rfl, by decide +kernel, by decide +kernel, by decide, by decide, rfl, rfl, rfl, rfl, by decide +kernel⟩

theorem witness_ContributionsAreAccumulated_add :
    let k : Pkt := { kK 0 .taken with conf := false }
    let ch := ch0 [{ pid := 4, who := 1 }]
    let d := dCa (la 2 0) k [ch]
    d.pkt 4 = some k ∧ k.st = .taken ∧ d.chunk 1 0 = some ch ∧ (∃ t ∈ ch.taken, t.pid = 4 ∧ t.added = false) ∧ k.conf = false ∧
    ((addPacket (d.gt 1) (d.packetElts k).1 (d.packetElts k).2.1 (d.packetElts k).2.2 ch).accs.filter (·.esc)).length - (ch.accs.filter (·.esc)).length ≤
      d.freeRecs (chunkDie 1 0) := by
  refine ⟨rfl, rfl, rfl, by decide, rfl, by decide +kernel⟩

theorem witness_ContributionsAreAccumulated_check :
    (dCa (la 2 0) (kK 0 .taken) [ch0 [{ pid := 4, who := 1, added := true }]]).catCheck (kK 0 .taken) = .ok ∧
    (dCa {} (kK 0 .taken) []).catCheck (kK 0 .taken) = .stale ∧ dSw.catCheck (kK 0 .taken) = .off ∧
    (dCa (la 2 0) (kK 0 .taken) []).catCheck { kK 0 .taken with ing := some 0 } = .bad 1 ∧ (dCa (la 2 0) (kK 2 .taken) []).catCheck (kK 2 .taken) = .range ∧
    (dCa (la 2 1) (kK 0 .taken) []).catCheck (kK 0 .taken) = .dup ∧ (dCa (la 6000 0) (kK 4096 .taken) []).catCheck (kK 4096 .taken) = .full ∧
    (kK 0 .taken).conf = true ∧ 4 < dSw.nextId := by
  decide +kernel

def rt4 : Retr := { pid := 4, vals := [(0, 5)], units := 96, ord := 0 }
def chR : Chunk := { ch0 [] with retr := [rt4] }
theorem witness_ContributionsAreAccumulated_retract :
    let d : Dev := { dSw with chunks := [chR] }
    d.retrs 1 = (chR, rt4) :: [] ∧ d.chunk chR.g chR.c = some chR ∧ (∀ i, i < 4 → i ≠ 1 → (d.retrs i).head? = none) ∧ (d.drawn 1 4).1 + rt4.units ≤ 96 ∧
    ((subPacket (d.gt chR.g).fmt rt4.vals chR).accs.filter (·.esc)).length - (chR.accs.filter (·.esc)).length ≤ d.freeRecs 1 := by decide +kernel

def chM : Chunk := { ch0 [] with marks := [(1, 5)] }
theorem witness_ChunksCompleteAndLeave :
    let d : Dev := { dCa (la 2 0) (kK 0 .engine) [chM] with pkts := [] }
    let e : Dev := { d with regs := dSw.regs ++ gRegs 0x8000 }
    (d.chunk 1 0 = some chM ∧ (∀ p ∈ (d.gt 1).members, ∃ m ∈ chM.marks, m.1 = p) ∧ (∀ x ∈ (d.gt 1).inDirs, ∃ m ∈ chM.marks, m.1 = 128 + x) ∧ chM.taken = [] ∧
      chM.retr = []) ∧ ({ chM with complete := true } : Chunk).complete = true ∧ (d.launch 1).st = .run ∧ (d.gt 1).outDir = 0 ∧ (e.gt 1).outDir ≠ 0 := by decide

/-- A launch descriptor of group 1 whose result goes to endpoint 3. -/
def lRegs : List (Nat × Word) := [(ra 7 0x40, 0x00090001), (ra 7 0x44, 2), (ra 7 0x48, 1002), (ra 7 0x4C, 0x00010000), (ra 7 0x50, 0x00000400), (ra 7 0x54, 3)]
theorem witness_LaunchesRunToTheirEnd_go :
    let d : Dev := { dSw with regs := dSw.regs ++ gRegs 0 ++ lRegs }
    let l := d.ldesc
    Machine.bit 0x80000000 31 = true ∧ Machine.bit 0x80000000 30 = false ∧ d.writeRefusal .obvo (ra 7 0x58) = none ∧ d.gtOn l.group = true ∧ (d.launch l.group).st = .idle ∧ (d.launch l.group).d.nchunk = 0 ∧
    d.fno + 2 ≤ l.start ∧ l.start ≤ d.fno + 2 ^ 20 ∧ l.nchunk ≠ 0 ∧ l.stepF ≠ 0 ∧ 3 * l.treeSpan + 4 ≤ l.abortLead ∧ d.resOk l = true ∧ d.aligned = true := by decide

def kH (ext : Nat) : Pkt := { kK 0 .engine with pk := { pk0 with hdr := { hdC with op := 0x23, dstId := 5 }, payload := leBytes 2 1 ++ leBytes 2 9 ++ leBytes 2 ext ++ zeros 58 } }
theorem witness_LaunchesRunToTheirEnd :
    (let l : Launch := { la 2 0 with st := .armed, d := { (la 2 0).d with start := 1000 } }
     l.st = .armed ∧ l.d.start ≤ up.fno) ∧
    (let l : Launch := { la 2 0 with emitted := 2, copies := 2 }
     l.st = .run ∧ l.emitted = l.d.nchunk ∧ l.copies = l.d.nchunk) ∧
    (let k := kH 3
     let d := dCa (la 2 0) k []
     let l := d.launch 1
     d.pkt 4 = some k ∧ k.pk.hdr.op = 0x23 ∧ k.st = .engine ∧ k.conf = true ∧ 4 < d.nextId ∧ d.refGroup k.pk = 1 ∧ l.st = .run ∧
       l.d.launch.toNat = leAt k.pk.payload 2 2 ∧ leAt k.pk.payload 4 2 ≠ 0 ∧ k.ing.getD 0 ∈ (d.gt 1).members ∧ (leAt k.pk.payload 6 1).testBit 0 = false ∧
       leAt k.pk.payload 0 2 % 0x1000 = 1 ∧ (d.gt 1).outDir = 0 ∧ l.holdUsed + leAt k.pk.payload 4 2 ≤ l.d.holdCeil ∧
       l.d.holdCeil < l.holdUsed + leAt (kH 4).pk.payload 4 2 ∧ leAt (kH 0).pk.payload 4 2 = 0) := by decide

def kA (launch : Nat) : Pkt :=
  { kK 0 .engine with pk := { pk0 with hdr := { hdC with op := 0x24, dstId := 5 }, payload := zeros 2 ++ leBytes 2 1 ++ leBytes 4 0x07030000 ++ leBytes 6 1100 ++ leBytes 2 launch ++ zeros 48 } }
theorem witness_LaunchesAbort : (Machine.bit 0x40000001 31 = false ∧ Machine.bit 0x40000001 30 = true ∧ Machine.fld 0x40000001 0 12 = 1 ∧
      dSw.writeRefusal .obvo (ra 7 0x58) = none ∧ (la 2 0).st = .run ∧ (la 2 0).prop = none ∧ (la 2 0).deadline ≤ dSw.fno) ∧
    (let l : Launch := { la 2 0 with st := .aborting, prop := some (1000, 0x07030000) }
     l.st = .aborting ∧ l.prop = some (1000, 0x07030000) ∧ 1000 ≤ dSw.fno) ∧
    (let d := dCa { la 2 0 with prop := some (1100, 0x070C0000) } (kA 9) []
     d.pkt 4 = some (kA 9) ∧ d.refGroup (kA 9).pk = 1 ∧ (d.launch 1).d.launch.toNat = leAt (kA 9).pk.payload 14 2 ∧ leAt (kA 9).pk.payload 2 2 = 1 ∧
       leAt (kA 9).pk.payload 8 6 = 1100 ∧ (BitVec.ofNat 32 (leAt (kA 9).pk.payload 4 4)).toNat < (0x070C0000 : Word).toNat ∧
       (d.launch 1).d.launch.toNat ≠ leAt (kA 8).pk.payload 14 2) := by decide

def kRs (dst : BitVec 16) (via : Bool) : Pkt := { kK 0 .accepted with pk := { (kK 0 .hold).pk with hdr := { (kK 0 .hold).pk.hdr with op := 0x22, dstId := dst, viaV := via } } }
theorem witness_ResultsFencesAndSelection :
    (let d := dCa (la 2 0) (kRs 3 false) []
     d.pkt 4 = some (kRs 3 false) ∧ catGroup (kRs 3 false).pk % 0x1000 = 1 ∧ (kRs 3 false).conf = true ∧ 4 < d.nextId ∧ (kRs 3 false).rank = 0 ∧ (d.launch 1).st ≠ .idle ∧
       (d.launch 1).d.launch.toNat = catLaunch (kRs 3 false).pk ∧ (kRs 3 false).ing ≠ none ∧ (d.dt 3).ty = 1 ∧ (d.dt 3).coord = d.own ∧ (d.dt 6).ty = 0 ∧ (d.gt 1).outDir = 0) ∧
    (let d : Dev := { dCa { la 2 0 with d := { (la 2 0).d with resId := 7 } } (kRs 3 true) [] with regs := dSw.regs ++ gRegs 0x8000 }
     (d.launch 1).st = .run ∧ (d.gt 1).outDir ≠ 0 ∧ (d.launch 1).d.resId ≠ 0 ∧ (kRs 3 true).pk.hdr.viaV = true ∧ (kRs 3 true).pk.hdr.dstId.toNat ≠ (d.launch 1).d.resId ∧
       catChunk (kRs 3 true).pk ∉ (d.launch 1).relayed) ∧
    up.writeRefusal .obvo (ra 7 (0x80 + 4 * 3)) = none ∧ up.writeRefusal .obvo (ra 7 0x60) = none := by decide

/-- 16_reset_faults_service.md, R479 and R483: a member port leaves UP with a packet of the launch lost; both causes of the frame are
raised and the lower word is adopted, ABORT_LEAD frames ahead. -/
def dLv (lost : List (Packet × Word)) : Dev := { dCa (la 2 0) (kK 0 .engine) [] with pkts := [], lost := lost }
theorem test_port_leaves_member :
    let d := (dLv []).portLeave 1 .down 0
    (d.launch 1).prop = some (1004, 0x07060001) ∧ (d.launch 1).st = .aborting ∧ 0x07060001 ∈ d.words := by decide +kernel

theorem test_port_leaves_lower_cause :
    let d := (dLv [((kK 0 .engine).pk, 0x05050001)]).portLeave 1 .down 0
    (d.launch 1).prop = some (1004, 0x05050001) ∧ 0x07060001 ∈ d.words ∧ 0x05050001 ∈ d.words := by decide +kernel

/-! ## Witnesses: Fan -/

def fRegs : List (Nat × Word) :=
  [(ra 8 0, 1), (ra 8 0x40, 0x00010009), (ra 8 0x44, 0x04000001), (ra 8 0x48, 1002), (ra 8 0x4C, 0x03EB0000), (ra 8 0x54, 0x00010000), (ra 8 0x58, 1),
   (ra 9 0x800004, 0x01000001), (ra 4 0x400020, 1)]
def dGo : Dev := { up with regs := fRegs }
theorem witness_RoundsRunToTheirEnd_go : let x := dGo.rdesc
    let reg := dGo.rt x.qregion
    Machine.bit 0x80000000 31 = true ∧ Machine.bit 0x80000000 30 = false ∧ dGo.writeRefusal .obvo (ra 8 0x60) = none ∧
    dGo.slotOfRound x.round (fun c => rsLive c || c == .aborting) = none ∧ dGo.fno + 2 ≤ x.start ∧ x.start ≤ dGo.fno + 2 ^ 20 ∧ x.round ≠ 0 ∧ x.start < x.close ∧
    x.endLag ≠ 0 ∧ x.ranked = false ∧ x.units ≠ 0 ∧ x.vfmt ≤ 4 ∧ dGo.bit (ra 8 0) x.vfmt = true ∧ x.devmask.testBit dGo.devIndex = true ∧
    3 * (dGo.kx / 2 + dGo.ky / 2 + dGo.kz / 2) + 4 ≤ x.abortLead ∧ reg.valid = true ∧ reg.purpose = 0 ∧ reg.slice = x.slice.toNat ∧ x.slice ≠ 0 ∧
    dGo.sliceOn x.slice.toNat = true ∧ dGo.aligned = true ∧
    (List.range 16).find? (fun i => ! (rsLive (dGo.rnd i).st || (dGo.rnd i).st == .aborting)) = some 0 := by decide

/-- Slot 3 holds round 9; experts 1 and 2 lie on port 0, in set 7 at destination 6. -/
def rd9 (st : RoundSt) : Round := { st := st, d := { round := 9, units := 1, close := 990, endLag := 10, rankLag := 5, abortLead := 4 } }
def xRegs (policy : Word) : List (Nat × Word) :=
  [(ra 8 0x800014, 0x71), (ra 8 0x800018, 0x00080008 ||| policy), (ra 8 0x80001C, 0x00030002), (ra 8 0x800024, 0x71), (ra 8 0x80002C, 0x00030001),
   (ra 4 (0x800000 + 8 * 6), 0x3F05), (ra 4 (0x800004 + 8 * 6), 0x00FE0007)]
def dRd (x : Round) (pks : List Pkt) : Dev := { dSw with regs := dSw.regs ++ xRegs 0, rounds := [(3, x)], pkts := pks }
def kMs : Pkt := { kC with st := .engine, pk := { pkC with hdr := { hdC with op := 0x40 }, payload := [8, 1, 9, 0] ++ leBytes 4 0x08030009 ++ leBytes 6 1100 ++ zeros 50 } }

theorem witness_RoundsRunToTheirEnd :
    (Machine.bit 0x40000009 31 = false ∧ Machine.bit 0x40000009 30 = true ∧ (dRd (rd9 .open) []).slotOfRound (Machine.fld 0x40000009 0 16) rsLive = some 3 ∧ (rd9 .open).prop = none) ∧
    ((rd9 .armed).d.start ≤ up.fno ∧ (rd9 .open).d.close ≤ up.fno) ∧
    ((rd9 .closed).d.ranked = false ∧ (rd9 .closed).combos = [] ∧ (rd9 .closed).copies = [] ∧ (∀ k ∈ (dRd (rd9 .closed) [kMs]).pkts, ¬ (k.use = .copy 3 ∧ k.st = .hold))) ∧
    (rdEnd (rd9 .closed).d ≤ up.fno ∧ (rd9 .closed).prop = none) ∧
    (let d := dRd { rd9 .aborting with prop := some (1000, 0x08030009) } [kMs]
     (d.rnd 3).st = .aborting ∧ (d.rnd 3).prop = some (1000, 0x08030009) ∧ 1000 ≤ d.fno) ∧
    (let d := dRd (rd9 .closed) [kMs]
     d.pkt 4 = some kMs ∧ kMs.pk.hdr.op = 0x40 ∧ kMs.st = .engine ∧ kMs.conf = true ∧ leAt kMs.pk.payload 0 1 = 8 ∧ leAt kMs.pk.payload 1 1 = 1 ∧
       d.slotOfRound (leAt kMs.pk.payload 2 2) (fun c => rsLive c || c == .aborting || c == .done) = some 3 ∧ (d.rnd 3).prop = none) := by decide

def kD (nexp tok : Nat) : Pkt :=
  { kC with st := .engine, pk := { hdr := { hdC with op := 0x30, cls := 2, vc := 2, dstId := 6, len := 1 }, payload := leBytes 2 9 ++ leBytes 4 tok ++ [1, 0] ++ leBytes 2 nexp ++ zeros 14 ++ leBytes 4 0x3F80 ++ zeros 100
                                   tailRsv := 0, verdict := 0, crc := 0, pad := [] } }
def cmb : Combo := { port := 0, token := 5, src := 3, experts := [1], gates := [0x3F80], pos := [.waiting], accs := List.replicate 16 {} }

/-- A store that the accumulators of one chunk fill. -/
def dFull (accs : List Acc) : Dev := { dRd (rd9 .open) [kD 1 5] with chunks := [{ ch0 [] with c := 3, accs := accs }] }

theorem store_is_full (accs : List Acc) (h : 3801088 ≤ accs.length) :
    (dFull accs).pkt 4 = some (kD 1 5) ∧ (dFull accs).dispCheck (kD 1 5) = .ok 3 ∧ (dFull accs).isHead (kD 1 5) = true ∧
    (dFull accs).freeSlots 0 < 1 * 16 := by
  refine ⟨rfl, (show (dFull accs).dispCheck (kD 1 5) = (dRd (rd9 .open) [kD 1 5]).dispCheck (kD 1 5) from rfl).trans (by decide +kernel), rfl, ?_⟩
  have e : (((dFull accs).chunks.filter (fun c => chunkDie c.g c.c == 0 && ! c.spill)).map (·.accs.length)).sum = accs.length + 0 := by
    simp [dFull, ch0, show chunkDie 1 3 = 0 by decide]
  have m : (dFull accs).fullMib = 6 := (show (dFull accs).fullMib = (dRd (rd9 .open) [kD 1 5]).fullMib from rfl).trans (by decide +kernel)
  unfold Dev.freeSlots
  rw [e, m]
  omega

theorem witness_DispatchesBecomeCopies_full : ∃ d : Dev, d.pkt 4 = some (kD 1 5) ∧ d.dispCheck (kD 1 5) = .ok 3 ∧ d.isHead (kD 1 5) = true ∧
    d.freeSlots 0 < 1 * 16 := ⟨_, store_is_full (List.replicate 3801088 {}) (Nat.le_of_eq List.length_replicate.symm)⟩

/-- A copy of token 5 for expert 1, and the round that takes it. -/
def kCp : Pkt :=
  { kD 1 5 with pk := { (kD 1 5).pk with hdr := { (kD 1 5).pk.hdr with op := 0x31, dstId := 3 }, payload := leBytes 2 9 ++ leBytes 4 5 ++ leBytes 2 2 ++ leBytes 2 1 ++ zeros 118 } }
def dCp (x : Round) (policy : Word) : Dev := { dRd x [kCp] with regs := dSw.regs ++ xRegs policy, xcount := [(1, 2)] }
def rdRk : Round := { rd9 .open with d := { (rd9 .open).d with ranked := true, close := 1000 } }

theorem witness_DispatchesBecomeCopies :
    (let d := dRd (rd9 .open) [kD 1 5]
     d.pkt 4 = some (kD 1 5) ∧ (kD 1 5).st = .engine ∧ (kD 1 5).conf = true ∧ 4 < d.nextId ∧ (kD 1 5).pk.hdr.op = 0x30 ∧ d.dispCheck (kD 1 5) = .ok 3 ∧
       d.kept (kD 1 5) = false ∧ d.isHead (kD 1 5) = true ∧ (d.rnd 3).d.units * perUnit (d.rnd 3).d.vfmt ≤ d.freeSlots (d.owner 1) ∧ (∀ e ∈ dispExperts (kD 1 5).pk, d.xhere e = true)) ∧
    (dRd (rd9 .armed) [kD 1 5]).dispCheck (kD 1 5) = .stale ∧ (dRd (rd9 .open) [kD 5 5]).dispCheck (kD 5 5) = .bad 3 2 ∧
    (dRd { rd9 .open with combos := [{ cmb with port := 1 }] } [kD 1 5]).dispCheck (kD 1 5) = .dup 3 ∧
    (let d := dRd (rd9 .open) [kCp]
     d.pkt 4 = some kCp ∧ kCp.pk.hdr.op = 0x31 ∧ fanRound kCp.pk = 9 ∧ fanExpert kCp.pk = 1 ∧ d.slotOfRound 9 rsRun = some 3 ∧ (d.et 1).valid = true ∧
       (d.et 1).epId = kCp.pk.hdr.dstId.toNat ∧ (d.rnd 3).d.ranked = false ∧
       (d.copyConts 1).head? = some kCp ∧ d.xavail 1 = true ∧ d.xcnt 1 < (d.et 1).cap ∧ d.slotOfRound 8 rsRun = none) ∧
    (((dCp (rd9 .open) 0).et 1).cap ≤ (dCp (rd9 .open) 0).xcnt 1 ∧ ((dCp (rd9 .open) 0).copyConts 1).head? = some kCp ∧ ((dCp (rd9 .open) 0).et 1).policy = 0) ∧
    (((dCp (rd9 .open) 1).et 1).policy = 1 ∧ ((dCp (rd9 .open) 1).et 1).fallback = 2 ∧ (dCp (rd9 .open) 1).xavail 2 = true ∧
      (∀ j ∈ (dCp (rd9 .open) 1).copyConts 2, j.id = 4) ∧ (dCp (rd9 .open) 1).xcnt 2 < ((dCp (rd9 .open) 1).et 2).cap ∧
      ((dCp (rd9 .open) 1).et 2).cap ≤ ({ dCp (rd9 .open) 1 with xcount := [(1, 2), (2, 1)] } : Dev).xcnt 2) ∧
    (let d : Dev := { dCp (rd9 .open) 2 with regs := dSw.regs ++ xRegs 2 ++ [(ra 9 0x80000C, 1)] }
     (d.et 1).policy = 2 ∧ d.qFull 0 = false ∧ d.qFails = false) ∧
    (let d : Dev := { dCp rdRk 0 with regs := dSw.regs ++ xRegs 0 ++ [(ra 9 0x80000C, 1)] }
     (d.rnd 3).d.ranked = true ∧ d.fno < rdRank (d.rnd 3).d ∧ d.qFull 0 = false ∧ d.rankHeld (d.owner (d.xport 1)) < 32768) := by decide +kernel

def cp1 : Copy := { expert := 1, first := 1, token := 5, src := 3, pos := 0, ing := 1, pk := kCp.pk, st := .held }
def rdK : Round := { rd9 .closed with d := { (rd9 .closed).d with ranked := true }, copies := [cp1, { cp1 with token := 4 }, { cp1 with token := 6 }] }
def rdB : Round := { rdK with ranked := true, copies := [{ cp1 with expert := 2, redirected := true }] }
theorem witness_RankAndWindowsAdmitUpToCapacity :
    (rdK.st = .closed ∧ rdK.d.ranked = true ∧ rdK.ranked = false ∧ rdRank rdK.d ≤ up.fno ∧
      ((rdK.copies.filter (fun c => c.st == .held)).map (·.expert)).dedup = [1] ∧ (∀ c ∈ rdK.copies, c.redirected = false) ∧ ((dRd rdK []).et 1).policy = 0) ∧
    (rdB.ranked = true ∧ rdB.fellBack = false ∧ rdRank rdB.d + 1 ≤ up.fno ∧ ((rdB.copies.filter (fun c => c.st == .held && c.redirected)).map (·.expert)).dedup = [2]) ∧
    (let d := dRd (rd9 .open) []
     (d.et 1).valid = true ∧ (d.et 1).w ≠ 0 ∧ d.fno % (d.et 1).w = 0 ∧ mapGet 0 d.xwin 1 ≠ d.now + 1 ∧ ∀ r < 16, ∀ c ∈ (d.rnd r).copies, c.expert ≠ 1) := by decide +kernel

/-- An output of expert 1 for token 5, to endpoint 3 of this device; and the source's own. -/
def kOut (fromSw : Bool) (conf : Bool) : Pkt :=
  { kCp with fromSw := fromSw, ing := some 0, conf := conf
             pk := { kCp.pk with hdr := { kCp.pk.hdr with op := 0x32, dstId := 6 }, payload := leBytes 2 9 ++ leBytes 4 5 ++ leBytes 2 3 ++ leBytes 2 1 ++ zeros 118 } }
def rdC (tk : List (Nat × Nat)) : Round := { rd9 .open with combos := [{ cmb with taken := tk }] }
def kNo : Pkt := { kOut true true with st := .accepted, pk := { (kOut true true).pk with hdr := { kCp.pk.hdr with op := 0x34 }, payload := leBytes 2 9 ++ leBytes 4 5 ++ [1, 0] ++ zeros 56 } }
theorem witness_OutputsAreCombined :
    (let d := dRd (rdC []) [kOut false true]
     d.pkt 4 = some (kOut false true) ∧ fanExpert (kOut false true).pk = 1 ∧ d.slotOfRound 9 rsRun = some 3 ∧ (d.et 1).set = (d.dt 6).ref ∧ d.xhere 1 = true ∧
       (kOut false true).ing = some (d.xport 1) ∧ (kOut false true).rank = 0 ∧ d.kept (kOut false true) = false ∧ (d.dt (fanSrc (kOut false true).pk).toNat).ty = 1 ∧
       (d.dt (fanSrc (kOut false true).pk).toNat).coord = d.own) ∧
    ((({ dSw with regs := [(ra 4 (0x800000 + 8 * 3), 0x00103F01)] } : Dev).dt 3).coord ≠ dSw.own) ∧
    (let k := kOut true false
     let d := dRd (rdC []) [k]
     let accs := (List.zipWith addFin cmb.accs (fanTerms (d.rnd 3).d (cmb.gates.getD 0 0) k.pk)).map (fun a => { a with esc := a.esc || ! fanFits a.v })
     d.takenBy 4 = none ∧ d.outCheck 3 k.pk = .ok cmb ∧ k.conf = false ∧
       2 * ((accs.filter (·.esc)).length - (cmb.accs.filter (·.esc)).length) ≤ d.freeRecs (d.owner cmb.port)) ∧
    (let d := dRd (rdC [(4, 0)]) [kOut true true]
     d.takenBy 4 = some (3, { cmb with taken := [(4, 0)] }) ∧ d.combo 3 0 5 = some { cmb with taken := [(4, 0)] } ∧ rsRun (d.rnd 3).st = true ∧
       cmb.pos.getD 0 .done = .waiting) ∧
    (let d := dRd (rdC []) [kNo]
     d.pkt 4 = some kNo ∧ kNo.pk.hdr.op = 0x34 ∧ kNo.conf = true ∧ kNo.rank = 0 ∧ leAt kNo.pk.payload 6 1 = 1 ∧ (d.dt 3).ty = 1 ∧ (d.dt 3).ref % 128 = 0 ∧
       d.combo 3 0 (fanToken kNo.pk) = some cmb) ∧
    (let c : Combo := { cmb with retr := [(4, 999, List.replicate 16 1)] }
     let d := dRd { rd9 .open with combos := [c] } []
     d.combo 3 c.port c.token = some c ∧ (d.rounds.flatMap (fun e => e.2.combos.map (fun y => (e.1, y)))).find? (fun e => e.2.retr.any (fun t => t.1 == 4 && decide (t.2.1 < d.now))) = some (3, c) ∧
       (∀ a ∈ ((List.zipWith (fun v (x : Acc) => { x with v := x.v - v }) (List.replicate 16 1) c.accs).map (fun x => { x with esc := x.esc || ! fanFits x.v })), a.esc = false)) ∧
    (let c : Combo := { cmb with pos := [.done] }
     (dRd { rd9 .open with combos := [c] } []).combo 3 0 5 = some c ∧ (∀ x ∈ c.pos, x ≠ .waiting) ∧ c.taken = [] ∧ c.retr = [] ∧ c.sent = false) := by decide +kernel


/-! ## Witnesses: Basin -/

/-- Region 1: 8 MiB from 0, open to all; the window onto it is device 6. Class 3 is carried at port 0. -/
def bRegs : List (Nat × Word) :=
  [(ra 9 0x800014, 1), (ra 9 0x80001C, 1), (ra 4 (0x800000 + 8 * 6), 0x3F02), (ra 4 (0x800004 + 8 * 6), 0x00FE0001), (rp 3 0x20 0, 0x0100), (rp 5 0x130 0, 0x10000100)]
def kB (op : Byte) (dst : BitVec 16) (rank : Nat) (pl : List Byte) : Pkt :=
  { kC with st := .engine, rank := rank, pk := { pk0 with hdr := { hdC with op := op, cls := 3, vc := 3, dstId := dst, srcId := 3, len := 1 }, payload := pl } }
def bRd (len : Nat) (units : Byte) : List Byte := leBytes 5 0x140 ++ [0] ++ leBytes 2 7 ++ leBytes 2 len ++ [units] ++ zeros 53
def dB (ks : List Pkt) (qs : List Req) : Dev := { dSw with regs := dSw.regs ++ bRegs, pkts := ks, reqs := qs, bud := [(3, (100, 0))] }
def rq (op : Nat) : Req :=
  { slot := 0, die := 0, corr := false, ing := 1, op := op, src := 3, slice := 0, tag := 7, addr := 0x140, len := 128, cplUnits := 1, resId := 0, retCid := 0, operand := 5, swap := 9 }

/-- What a presentation came to: 0 granted, 1 not granted, 2 lost. -/
def gKind : Grant → Nat
  | .done _ => 0
  | .wait _ => 1
  | .lost _ _ => 2
theorem gKind_done (g : Grant) (h : gKind g = 0) : ∃ x, g = .done x := by cases g <;> simp_all [gKind]
theorem gKind_wait (g : Grant) (h : gKind g = 1) : ∃ x, g = .wait x := by cases g <;> simp_all [gKind]
theorem gKind_lost (g : Grant) (h : gKind g = 2) : ∃ x p, g = .lost x p := by cases g <;> simp_all [gKind]

def rdWr : List Byte := bRd 0 0 ++ zeros 64
def bMr : List Byte := leBytes 5 0x140 ++ [0] ++ leBytes 2 7 ++ leBytes 2 1 ++ [1, 0, 7, 0] ++ zeros 50
def dBm : Dev := { dB [] [] with regs := dSw.regs ++ bRegs ++ [(ra 4 (0x800000 + 8 * 7), 0x3F03), (ra 4 (0x800004 + 8 * 7), 0x00FE0000)] }
theorem witness_BasinRequestsAreTestedAndAdmitted :
    (let d (k : Pkt) := dB [k] []
     let fresh (op : Byte) (k : Pkt) : Prop := (d k).pkt 4 = some k ∧ k.pk.hdr.op = op ∧ k.st = .engine ∧ k.conf = true ∧ k.rank = 0 ∧ 4 < (d k).nextId
     fresh 0x10 (kB 0x10 6 0 (bRd 2 1)) ∧ (d (kB 0x10 6 0 (bRd 2 1))).basTest (kB 0x10 6 0 (bRd 2 1)) = none ∧
     fresh 0x11 (kB 0x11 6 0 rdWr) ∧ (d (kB 0x11 6 0 rdWr)).basTest (kB 0x11 6 0 rdWr) = none ∧
     fresh 0x12 (kB 0x12 6 0 bMr) ∧ ({ dBm with pkts := [kB 0x12 6 0 bMr] } : Dev).basTest (kB 0x12 6 0 bMr) = none ∧
     fresh 0x13 (kB 0x13 6 0 (bRd 0 0)) ∧ (d (kB 0x13 6 0 (bRd 0 0))).basTest (kB 0x13 6 0 (bRd 0 0)) = none ∧
     fresh 0x14 (kB 0x14 6 0 (bRd 0 0)) ∧ (d (kB 0x14 6 0 (bRd 0 0))).basTest (kB 0x14 6 0 (bRd 0 0)) = none ∧
     fresh 0x10 (kB 0x10 6 0 (bRd 0 1)) ∧ (d (kB 0x10 6 0 (bRd 0 1))).basTest (kB 0x10 6 0 (bRd 0 1)) = some (1, 1)) ∧
    (let k := kB 0x10 6 2 (bRd 2 1)
     (dB [k] []).pkt 4 = some k ∧ k.st = .engine ∧ (dB [k] []).basHead k = true ∧ (dB [k] []).basTurns = k :: [] ∧ 4 < (dB [k] []).nextId ∧
       (dB [k] []).bit (rp 5 0x300 1) 30 = false ∧ 0 < (dB [k] []).plainFree ((dB [k] []).owner 1)) ∧
    (let k := kB 0x11 6 2 rdWr
     (dB [k] []).pkt 4 = some k ∧ (dB [k] []).basHead k = true ∧ (dB [k] []).basTurns = k :: [] ∧ ((dB [k] []).reserve (basDa k.pk) (basLen k.pk)).isSome = true) ∧
    (let k := kB 0x10 6 2 (bRd 2 1)
     let d := dB [k] (List.replicate 1024 (rq 0x10))
     d.basHead k = true ∧ d.basTurns = k :: [] ∧ d.plainFree (d.owner 1) = 0 ∧ (k.pk.hdr.cls == 1) = false) := by decide +kernel

def atomD (d : Dev) : Option Nat := (d.reserve 0x140 8).map (fun d1 => gKind (d1.present (rq 0x13) (d.cplPkt (rq 0x13) 0 true 0x140 0 0 [])))
theorem witness_BasinAnswersAndScrubs :
    (let d := dB [] [rq 0x10]
     d.reqs.find? (fun r => r.slot == 0) = some (rq 0x10) ∧ (rq 0x10).last = false ∧
       (d.reserve 0x140 64).map (fun d1 => gKind (d1.present (rq 0x10) (d.cplPkt (rq 0x10) 0 false 0x140 0 0 (readBytes [] 0x140 64)))) = some 0 ∧
       d.badIn (0x140 / 256 * 256) ((0x140 % 256 + 64 + 255) / 256 * 256) = [] ∧ (d.dt 3).ty = 1) ∧
    (let d := dB [] [rq 0x11]
     gKind (d.present (rq 0x11) (d.cplPkt (rq 0x11) 0 true 0x140 0 0 [])) = 0) ∧
    (dB [] [rq 0x13]).badIn 0x140 8 = [] ∧ atomD (dB [] [rq 0x13]) = some 0 ∧ atomD { dB [] [rq 0x13] with bud := [] } = some 1 ∧
    atomD { dB [] [rq 0x13] with ports := [] } = some 2 ∧
    (up.fld (ra 9 4) 0 16 ≠ 0 ∧ (0x140 : BitVec 38).toNat < basTop ∧ up.hbms.getD (stackOf 0x140) .off = .up ∧ rowOf 0x140 ∉ up.dueRows ∧ 0x140 / 16 ∉ up.bad) ∧
    (rowOf 0x140 ∈ ({ up with dueRows := [rowOf 0x140] } : Dev).dueRows) := by decide +kernel

/-- Spare rows are fused; a stack with one left and none used has a row to use. -/
theorem witness_spareLeft (h : Config.spareRows (stackOf 0x140) = 1) : spareLeft ({} : Nv) (stackOf 0x140) ≠ 0 := by
  simp [spareLeft, h, mapGet]

/-! ## A signed plat -/

/-- The key of an owner, and its signature of `platMsg`, both made outside the model from R369. -/
def ownerN : Nat :=
  0xd1b626d377fa10a371f0456f531082d0294c3d891ceccdddf67fa00172b150d14f152945b39d9ec41c4ff9ef327601104dcca0e647e7f3cbe553ef860f71e85e0b1c0cc934d8c73a7c9262d55c48784e032ac4194a12321db0ac658d1d4e724a34d1bd92d4c79ec867f617e5c422ff91d6e88d16760fd085fab4008699434ea927a063e7aaa1de16ad5183962b516d73f0f396b2c2b13eac6cb4e4f88c5ac7621e335d03d0bd9362a12077c65564f44a3da32b0f90325da29669ebae2452c6a7b52cd4e5e27abca0222670d04ca3a936b2b365fd59f959aba412a64cef9370a72212fb1271ed8d83b107c9ef83f00b76018157233de0cf87b4a395943ce538927b9757adab9b08c27c878b90b4fc2ba0aface5fd22f526fc231ee9584f806351a2f20462338faa8617b0a8a269611b9458e400455b9a78bc2b0564e30f33bb33f6aeedff3febb01942a180ff8b3f19e53c6ab6b9a3344d41c7e67012f82b89f329e7fe618be119592cae0c4542ddd7938f22ef57ce448d66d33eb4e6b3e6c1bf
def platSig : Nat :=
  0x804fac522cb96812a87750e0bdda1df78f4c03bb54e6fd9f8107d514160caaa5c40286c6e26b7c35d5586d164affb523151c729be3d2dd9cc5bac901acbb69967cdf1c721c3293636ecba39e0a132fc7dfc8ffdc88d2df442346a1996753157706f4ddcbbd09a20cf2eb11e0ea2e070d6e84eff0224a043402720ba39de405b9b77b5c1205a1f6e3bb83e8a8e1a9764a4216b41debe32c88064a13c02f06b97fba0b93886e96f28265ac19f208439a20ef8583a57f7f3b94d188b46530a73879633c32b60058cf250c46a10a27680efebd756d5c0e3c014ccf39106d285c7723f5369eaca5c3336e28090c7bd4ec514ddc14fce2e12b133510d0f432e9f09a65a3d55d32f4ccb5cb05e376165545c491fb067ab9cb098d9a3638048bcba1b12728b233d88c19d29d05389192844e2d35c832065940bedc90f61121175963ad4a2b198645dbf5274927776acebae78bd4880bbe68926d6aff2ea4987a912607fbd5accbb33ed5d2787adbda7202435f973bc44354fdc18d9ae94a2ff4d8e08c9b
def ownerDigest : List Byte := beBytes 32 0x17a9ef76f20ef623e8ad4b874450906d83ed79d83e93a7e4b312d84ef4518837
/-- A FULL plat with epoch 2, fabric 5 and the five sections each one must carry: four devices in X, and nothing else. -/
def platMsg : List Byte :=
  leBytes 4 0x54414C50 ++ [1, 0, 0, 5] ++ leBytes 8 2 ++ zeros 8 ++ leBytes 4 600 ++ leBytes 2 0x9464 ++ leBytes 2 0x1A57 ++ zeros 8 ++
  leBytes 4 5 ++ zeros 12 ++ ownerDigest.take 8 ++ zeros 64 ++
  [1, 0, 0, 0, 208, 0, 0, 0, 8] ++ zeros 7 ++ [2, 0, 0, 0, 216] ++ zeros 11 ++ [3, 0, 0, 0, 216] ++ zeros 11 ++ [4, 0, 0, 0, 216] ++ zeros 11 ++
  [5, 0, 0, 0, 216] ++ zeros 11 ++ leBytes 4 (ra 6 4) ++ leBytes 4 3
def plat : List Byte := platMsg ++ beBytes 384 platSig
def nvPl : Nv := { stage := plat, stageOk := true, owners := [ownerDigest], moduli := [beBytes 384 ownerN], boot := [plat] }

/-- The digest of SHA-256's published example "abc" (FIPS 180-4). -/
theorem test_sha256_abc : sha256 [0x61, 0x62, 0x63] = beBytes 32 0xBA7816BF8F01CFEA414140DE5DAE2223B00361A396177A9CB410FF61F20015AD := by decide +kernel

def dPl (l : LoadSt) : Dev := { up with plat := { load := l, len := 600 } }
theorem plat_passes : (dPl .verifying).platTests nvPl plat = none := by decide +kernel
theorem plat_boots : bootOk (dPl .empty) nvPl = true := by decide +kernel

theorem witness_PlatIsLoadedAndVerified :
    (up.writeRefusal .obvo (ra 0xA 4) = none ∧ up.stageLocked = false ∧ isTrail .obvo = false ∧ loading up.plat.load = false ∧ ({} : Nv).stageTrail = false) ∧
    ({ up with plat := { up.plat with act := some { t := 5, drain := 0 } } } : Dev).stageLocked = true ∧
    (¬ (isTrail .obvo = true ∨ (¬ (loading up.plat.load = true ∧ up.plat.trail = true) ∧ ({ stageTrail := true } : Nv).stageTrail = false))) ∧
    ((dPl .staged).plat.load = .staged ∧ cKind plat = 0) ∧ (dPl .verifying).plat.load = .verifying ∧
    (dPl .verifying).platTests nvPl plat = none ∧ (dPl .verifying).platTests {} [] = some (1, 0x100, []) :=
  ⟨by decide, by decide, by decide, by decide, rfl, plat_passes, by decide⟩

def dFr (active : Bool) : Dev := { up with plat := { load := .staged, active := active, digest := sha256 plat }, regs := [(ra 0xA 0x44, 2000)] }
def aNow (first : Bool) : Act := { t := 1000, drain := 64, first := first }
def dRs : Dev := { up with col := { up.col with restoreDue := true }, plat := { len := 600 } }
def dIn (b : Option (List Byte)) : Dev := { dRs with inService := false, plat := { apply := b } }
theorem witness_PlatTakesEffectInItsFrame_new : (dFr true).plat.act = none ∧ (dFr true).ract = none ∧ (dFr true).plat.digest = sha256 plat ∧
    (dFr true).plat.load = .staged ∧ (dFr true).plat.active = true ∧ (dFr true).aligned = true ∧ (dFr true).fno + drainOf (Machine.fld 0x7F 0 6) < 2000 ∧
    (dFr true).rd64 (ra 0xA 0x44) % 2 ^ 48 = 2000 ∧ (dFr false).plat.active = false ∧ Machine.bit 0x8000007F 31 = true ∧ Machine.bit 0x8000007F 30 = false ∧
    (dFr true).writeRefusal .obvo (ra 0xA 0x40) = none := by
  refine ⟨rfl, rfl, by simp only [dFr], rfl, rfl, ?_, ?_, ?_, rfl, ?_, ?_, ?_⟩ <;> decide +kernel
theorem witness_PlatTakesEffectInItsFrame :
    (Machine.bit 0x40000000 31 = false ∧ Machine.bit 0x40000000 30 = true ∧ dPul.writeRefusal .obvo (ra 0xA 0x40) = none ∧
      ({ dFr true with plat := { (dFr true).plat with act := some { aNow false with t := 1001 } } } : Dev).actDue = false) ∧
    ((aNow false).draining = false ∧ (1001 : Nat) ≤ up.fno + (aNow false).drain ∧ up.fno < 1001) ∧
    up.tapHeld = false ∧ ({ up with tapHeld := true } : Dev).tapHeld = true ∧ up.obvo.held = [] ∧ (aNow false).restore = false ∧ (aNow false).structural = false ∧
    (aNow false).t ≤ up.fno ∧ (aNow true).t ≤ up.now ∧ up.aligned = true ∧
    ((0 : Nat) < cEpoch plat ∧ (up.withPlat plat).inShape up.own = true ∧ up.ruleFour (up.withPlat plat) = none ∧ cEpoch plat ≤ 2) ∧
    (dRs.col.restoreDue = true ∧ dRs.col.st = .ready ∧ dRs.inService = true ∧ dRs.plat.active = false ∧ dRs.plat.act = none ∧ dRs.tapHeld = false ∧
      bootOk dRs {} = false) ∧
    ((∀ x ∈ (dIn none).dies ++ (dIn none).hbms ++ (dIn none).bridges, x = .up) ∧ (dIn none).inService = false ∧ (dIn none).rails = true ∧ (dIn none).obvo.held = [] ∧
      (dIn none).pwr.trip = false ∧ (dIn (some plat)).plat.apply = some plat) := by decide +kernel
theorem witness_restores : bootOk dRs nvPl = true := by decide +kernel

/-! ## Witnesses: the Obvo link -/

def rsp : Resp := { cond := 0, frame := 5, data := [] }
/-- Both Obvo ports UP. -/
def dOv (x : Obvo) : Dev := { up with obvo := { x with inSt := .up, outSt := .up } }
def pOv : ObvoPkt := { ty := 1, inbound := false, hop := 1, tag := 9, arg := 0, body := [], crcOk := true }
theorem witness_ObvoCommandsAreTaken :
    ((dOv {}).sideUp .obIn = true ∧ (dOv {}).sideUp .obOut = true) ∧
    ((dOv { kept := [(9, some rsp)] }).obvo.kept.find? (fun e => e.1 == (9 : BitVec 16).toNat) = some ((9 : BitVec 16).toNat, some rsp)) ∧
    ((dOv {}).obvo.kept.find? (fun e => e.1 == (9 : BitVec 16).toNat) = none ∧ (dOv {}).outstanding < 32) ∧
    ((0x11FFFFFC : Word).toNat % 4 = 0 ∧ (dOv {}).regTests (0x11FFFFFC : Word).toNat 1 0xB 3 = none ∧ (dOv {}).regTests (0 : Word).toNat 1024 0xB 3 = none) ∧
    ((0x37FFFFFFC0 : BitVec 40).toNat % 64 = 0 ∧ (0x37FFFFFFC0 : BitVec 40).toNat + (zeros 64).length ≤ basTop ∧
      (0x37FFFFF000 : BitVec 40).toNat + (4096 : BitVec 16).toNat ≤ basTop ∧ (dOv {}).bad = []) ∧
    (let d : Dev := { dOv {} with plat := { load := .receiving, len := 600, got := 592 } }
     d.plat.load = .receiving ∧ d.plat.trail = false ∧ (592 : BitVec 40).toNat = d.plat.got ∧ d.plat.got + (zeros 8).length ≤ d.plat.len) := by decide +kernel

theorem witness_ObvoChainAndEvents : (dOv {}).sideUp .obOut = true ∧ ({ dOv {} with obvo := { inSt := .up } } : Dev).sideUp .obOut = false ∧
    ({ pOv with crcOk := false } : ObvoPkt).crcOk = false ∧ ({ pOv with inbound := true } : ObvoPkt).inbound = true ∧ pOv.ty ≠ 0x20 ∧ pOv.hop ≠ 0 ∧
    ({ pOv with hop := 0 } : ObvoPkt).hop = 0 ∧ up.dies.getD 0 .off ≠ .off ∧ up.dpBusy = false ∧ up.frm.st ≠ .lost ∧ up.sideUp .obIn = false ∧
    4096 ≤ ({ dOv {} with frm := { up.frm with elapsed := 4096 } } : Dev).age (dOv {}).obvo.tA ∧ (dOv { due := [(.obIn, .down)] }).obvo.due = [(.obIn, .down)] ∧
    (let d := dOv { evSide := 1, events := [zeros 16] }
     d.obvo.evSide = sideBit .obIn + 1 ∧ d.obvo.events = [zeros 16] ∧ (zeros 16).length ≤ 4096) := by decide


/-! ## Witnesses: the trail port -/

def dLd (x : Col) : Dev := { up with stby := true, col := x, obvo := { up.obvo with eid := 9, alert := true } }
theorem witness_AlertFollowsPending : (condAddr 0xB 1, condWord 0xB 1 0) ∉ up.raised ∧ Machine.bit (dAl.rd (ra 0xC 8)) 0xB = true ∧
    Machine.bit (dAl.rd (condAddr 0xB 1 + 4)) 0 = false ∧ Machine.bit (({ up with regs := [(ra 0xC 8, 0)] } : Dev).rd (ra 0xC 8)) 0xD = false ∧
    (dLd { st := .ready }).service ≠ .none ∧ (dLd { st := .ready }).obvo.alert = true ∧ (dLd { st := .ready }).writeRefusal .obvo (ra 0xD 4) = none ∧ (dLd { st := .fwStart }).writeRefusal (.col true) (ra 0xD 4) = none := by decide

theorem witness_TrailPortAnswers : (let d := dLd { st := .ready }
     d.service ≠ .none ∧ d.service = .full ∧ d.obvo.eid ≠ 0 ∧ (dLd { st := .ready, certValid := true }).col.certValid = true ∧
       d.regTests (0x11FFFFFC : Word).toNat 1 0xC 2 = none ∧ (0 : BitVec 16).toNat ≤ d.ceilW ∧ recovLenOk 2 800 = true ∧
       d.col.st = .ready) ∧
    (let d : Dev := { dLd { st := .ready } with plat := { load := .receiving, trail := true, len := 600, got := 592 } }
     d.plat.load = .receiving ∧ d.plat.trail = true ∧ (592 : Word).toNat = d.plat.got ∧ d.plat.got + (zeros 8).length ≤ d.plat.len) ∧
    (let d := dLd { st := .recovery, lst := .receiving, lkind := 2, llen := 800, lbuf := zeros 792, lsrc := 1 }
     d.service = .loader ∧ d.col.lst = .receiving ∧ d.col.lsrc = 1 ∧ (792 : Word).toNat = d.col.lbuf.length ∧ d.col.lbuf.length + (zeros 8).length ≤ d.col.llen) := by
  refine ⟨⟨by decide, by decide, by decide, by decide, by decide +kernel, Nat.zero_le _, by decide, by decide⟩, by decide, by decide +kernel⟩

/-! ## Witnesses: Col, Narrows and the recovery loader -/

def imgSig : Nat :=
  0x22edbf361157d8f72effde0399f0da1c61635a288cf54fe215e536307b64a62f350a2b79c5a016d9acc45f0f6804d2f8af0e046f4fba81833e0ede73ad0072e25d21396b18a0da2602cb8283994040d83226c5c261949d4482f4ac6ced89b06725f4c92519663ec6f0c9997a69b04e6a00b4e10026dfa05f7295a7048fa370714759abe64cbeabe23d68e383f526866f996c645b25d36b6aa105087d1c38eea41bef8951ae6d926dfefc925a1036deeec556461da948a21ebe3d0e13b727d762a2b633dcebe38304c732dd77d583a33fec341b5e756ef02c9e700b566bae8b6eb51728b4abe55f4544c055951a08cca3a05474f8fc95649a02b4990001802c8d969ed1eea5c0cc052bdf1cb367318c87c3401e35945471fb5f39e81a0df14fdadb855d6ec6d35abbdceb88069a0f2e48f6b41dc88df8d3bdebb864af4f3496e97777b779a21c8dceab308a72ef6c5e84d3bb7b01fdb8632bf6e93719d471a1b80ba6a2dba43725814cae526bb12f2ad34503a0eb51bd633a9a6bfdb1eb8eddcc
def tokSig : Nat :=
  0x7f3d08aafb28d921573e6261987ca26aee44fe61f9ea078b823ec9fe5253a31f006c06bd893028a41dd5ddadc770cc92e26c188fa321a982767802fe3c8dba0e3a942efc2bad796e52dde7ea695f11e6d20b22ee745f417686a85515efc0a84a316bdd62be8b6c2c4952e5e4cfb206fa210900a286f31d40aa044deb61498ef19ca3eaf4f6edad295269cdee7c8646878516738de17fae50a4d186ae0d52a41162c08ae1986700ab6d709b2bffd702db21bc146221fcf5bc1ec702ad2f5d33a7a5296d0b414e5e94ed22a7b79d9b1623519ba291b17e56ffba2584ecbd1229aea9bf4cc7d6d335af731ae4d6b17332a1112ad8d170a29b577ee0b50074a42efb9276fcb0d30a698a146ee075c250637c03ab792e138e0818a004b4be9381d4c2e7e9124a043144dc3cdd06097b101f78492ab62566cc218c2cbeecd2a8779cba9e66acc7c26658b5935cce7f0dec5d36ebff9154d7b71d4fc9cb5a13eb6c3424d90b4864d988e72f25b29bd2004341e2706851841e234fb214ad515161e3fb0c
/-- A firmware image of 64 bytes of body, SVN 3 and version 6; a token for port 0, cause 1, of the part with serial 7. -/
def imgMsg : List Byte := leBytes 4 0x57464C43 ++ leBytes 4 1 ++ leBytes 4 6 ++ [3, 0, 0, 0] ++ leBytes 4 64 ++ zeros 44 ++ beBytes 384 ownerN ++
  leBytes 4 0x00010001 ++ zeros 60 ++ (List.range 64).map (BitVec.ofNat 8)
def img : List Byte := imgMsg ++ beBytes 384 imgSig
def tokMsg : List Byte := leBytes 4 0x4B4F5451 ++ [1, 0, 1, 0] ++ leBytes 8 7 ++ leBytes 8 0x1122 ++ leBytes 8 2000 ++ leBytes 8 9 ++ ownerDigest.take 8 ++ zeros 16
def tok : List Byte := tokMsg ++ beBytes 384 tokSig

/-- The signature of the image verifies; with the key's hash in the fuses, as every part has it, the image is good. -/
theorem image_is_good (h : Config.paltiaKeyHash = ownerDigest) : imgBad img 3 true = none := by
  have f : imgFormBad img = false := by decide +kernel
  have k : sha256 ((img.drop 64).take 388) = ownerDigest := by decide +kernel
  have g : imgSigBad img = false := by decide +kernel
  have v : ¬ leAt img 12 1 < 3 := by decide +kernel
  unfold imgBad imgKeyBad
  rw [f, g, h, k, if_neg v]
  simp

/-- The token is accepted on the part it names. -/
def dTk : Dev := { pIs { st := .quar, cause := 1, ident := some idnt } with
  regs := (List.range 112).map (fun w => (ra 0xE (0x200 + 4 * w), BitVec.ofNat 32 (leAt tok (4 * w) 4)))
  col := { up.col with nonce := 0x1122, checking := true } }
theorem token_is_good (h : Config.serial = 7) : tokenRefusal dTk nvPl tok = none := by
  have e : leAt tok 8 8 = Config.serial.toNat := by rw [h]; decide +kernel
  unfold tokenRefusal
  simp only [e, ne_eq, not_true_eq_false, if_false]
  decide +kernel

def dCol (x : Col) : Dev := { up with col := x }
/-- Slot 0 of the owner slots, as an OWNR record loaded over the trail port programs it first. -/
def ownerRec : List Byte := leBytes 4 0x524E574F ++ [2, 0, 0, 0] ++ leBytes 8 7 ++ beBytes 384 ownerN ++ leBytes 4 0x00010001 ++ zeros 396
def ldr (ls : RecovSt) (kind : Nat) (b : List Byte) : Col := { st := .recovery, lst := ls, lkind := kind, llen := 800, lbuf := b, lsrc := 1 }
theorem owner_record_is_good (h : Config.serial = 7) : recovBad {} (ldr .loaded 2 ownerRec) = none := by
  have e : leAt ownerRec 8 8 = Config.serial.toNat := by rw [h]; decide +kernel
  unfold recovBad
  simp only [ldr, e, ne_eq, not_true_eq_false, or_false]
  decide +kernel

def kCol : Pkt := { kMsg with pk := { kMsg.pk with payload := [0xD] ++ zeros 63 } }
/-- The watchdog's period is over. -/
def dWd : Dev := { dCol { st := .ready, wdogOn := true } with frm := { up.frm with elapsed := 16000000 } }
theorem witness_ColBootsRecoversAndIsGuarded :
    ((dCol { st := .rom }).col.st = .rom ∧ (dCol { st := .rom }).col.recovReq = none ∧ (dCol { st := .rom }).col.bootFails ≠ 3 ∧
      imgBad [] 0 true = some 2 ∧ imgBad [] 0 false = some 1) ∧
    (up.writeRefusal (.col false) (ra 0xD 4) = none ∧ up.col.st = .ready ∧ up.writeRefusal .obvo (ra 0xD 4) = none ∧ up.wdogDue = false ∧ dWd.wdogDue = true ∧ dWd.col.st ≠ .reset) ∧
    (up.writeRefusal (.col true) (ra 0xE 0x10) = none ∧ Machine.fld 0x5AC3 0 16 = 0x5AC3 ∧ (dCol { wdogOn := true }).col.wdogOn = true ∧
      dWd.col.wdogOn = true ∧ dWd.wdogFrames ≤ dWd.age dWd.col.wdogAt) ∧
    (isCol .obvo = false ∧ up.writeRefusal .obvo (ra 0xE 4) = none ∧ Machine.bit 1 0 = true) ∧
    (up.writeRefusal .obvo (ra 0xE 0x20) = none ∧ Machine.bit 0x80000000 31 = true ∧ up.col.checking = false) ∧
    (dTk.col.checking = true ∧ tokenRefusal (dCol { checking := true }) {} (dCol { checking := true }).tokenBytes = some 1) ∧
    (((0 : BitVec 7).toNat, 1, 5, 900) ∈ (dCol { tokens := [(0, 1, 5, 900)] }).col.tokens ∧ 5 < up.fno) ∧
    (up.colPkBad { hdC with cls := 2 } = some 1 ∧ up.colPkBad { hdC with srcId := 0 } = none ∧ up.colQueued + cellsOfPkt hdC ≤ 64) ∧
    ({ dSw with pkts := [kCol] }.pkt 4 = some kCol ∧ ctlMsg 0xD kCol = true) ∧
    (0x01C20000 ≤ (0x01C20000 : Word).toNat ∧ (0x03FFFFFF : Word).toNat + 1 ≤ 0x04000000 ∧ 0x04000000 < (0x03FFFFFF : Word).toNat + 2) ∧
    (let d : Dev := { dCol (ldr .idle 0 []) with regs := [(ra 0xD 0xC, 800)] }
     d.writeRefusal .obvo (ra 0xD 8) = none ∧ d.col.st = .recovery ∧ Machine.bit 0x80000002 31 = true ∧ Machine.bit 0x80000002 30 = false ∧
       trailLoads d.col = false ∧ recovLenOk (Machine.fld 0x80000002 0 8) (d.fld (ra 0xD 0xC) 0 22) = true) ∧
    (Machine.bit 0x40000000 31 = false ∧ Machine.bit 0x40000000 30 = true ∧ (ldr .loaded 2 ownerRec).lst = .loaded ∧ isTrail (.trail 9) = true) ∧
    ((ldr .writing 1 img).lkind = 1 ∧ (ldr .writing 2 ownerRec).lkind ≠ 1) := by decide +kernel

/-! ## Witnesses: power and heat -/

def dPw (x : Pwr) : Dev := { up with pwr := x }
def wetX : Pwr := { leakA := .wet }
theorem witness_PowerAndHeatAreHeldDown :
    (up.pwr.avsFault.getD 3 false = false ∧ (700 : Nat) ≤ (800 : BitVec 10).toNat ∧ (800 : BitVec 10).toNat ≤ up.avsNow 3 + 10 ∧ up.avsNow 3 ≤ (800 : BitVec 10).toNat + 10 ∧
      up.pwr.avsTarget.getD 3 0 = 0 ∧ ∃ p ∈ up.dies, p ≠ .off) ∧
    ((dPw { excess := some (601, 7) }).pwr.excess = some (601, 7) ∧ (dPw { excess := some (601, 7) }).pwr.viol = false ∧ 399 ≤ (dPw { excess := some (601, 7) }).age 601) ∧
    (0 < (dPw { stageBrake := 1, okRun := 801 }).pwr.stageBrake ∧ 800 < (dPw { stageBrake := 1, okRun := 801 }).pwr.okRun) ∧ (dPw { brakePin := true }).pwr.brakePin ≠ (dPw { brakePin := true }).pwr.brakeLow ∧
    (dPw { brakeLow := true }).pwr.brakeLow = true ∧
    (let temps : List Int := 601 :: List.replicate 79 200
     up.pwr.dfault.getD 0 0 = 0 ∧ 600 < temps.getD 0 0 ∧
       hottest ((List.range 12).filterMap (fun j => (dieTj j temps (1 :: List.replicate 79 0)).map (fun v => (j, v)))) = some (0, 200)) ∧
    (hottest ((List.range 12).filterMap (fun j => (dieTj j (List.replicate 80 400) (List.replicate 80 0)).map (fun v => (j, v)))) = some (0, 400)) ∧
    ((dPw { coolAt := some 200, stageTherm := 1 }).pwr.coolAt = some 200 ∧ 0 < (dPw { coolAt := some 200, stageTherm := 1 }).pwr.stageTherm ∧
      800 ≤ (dPw { coolAt := some 200, stageTherm := 1 }).age 200) ∧
    (let d := dPw { trip := true }
     d.writeRefusal (.trail 9) (ra 0xF 0x20) = none ∧ isTrail (.trail 9) = true ∧ d.pwr.trip = true ∧ d.pwr.hot = false ∧ .trip ∉ d.level1 ∧ d.rails = true ∧
       ({ d with rails := false } : Dev).writeRefusal (.trail 9) (ra 0xF 0x20) = none ∧ (dPw { hot := true }).pwr.hot = true ∧ (∀ i < 80, d.pwr.dfault.getD i 0 = 0 → d.pwr.temps.getD i 0 < 360)) ∧
    (up.pwr.leakA = .dry ∧ up.pwr.leakB = .dry ∧ ¬ ((dPw wetX).pwr.leakA = .dry ∧ (dPw wetX).pwr.leakB = .dry)) ∧
    ((up.writeRefusal .obvo (ra 0xF 0x10) = none) ∧ (0 : Word).toNat % 65536 ≤ up.ceilW ∧ up.writeRefusal (.trail 9) (ra 0xF 0x14) = none) ∧
    (Machine.bit 0x80000000 31 = true ∧ Machine.bit 0x80000000 30 = false ∧ Machine.bit 0x80000000 29 = false ∧ Machine.bit 0x40000000 30 = true ∧
      Machine.bit 0x20000000 29 = true) := by
  refine ⟨by decide, by decide, by decide, by decide, by decide, by decide, by decide +kernel, by decide, by decide +kernel, by decide, ⟨by decide, Nat.zero_le _, by decide⟩, by decide⟩

/-- A cap above the ceiling: every fused ceiling lies below it. -/
theorem witness_cap_above_ceiling : up.ceilW < (2000 : Word).toNat % 65536 := by
  have h : up.ceilW ≤ 1500 := Nat.min_le_right _ _
  exact Nat.lt_of_le_of_lt h (by decide)

/-! ## Witnesses: resets, counters, witness functions, service -/

theorem witness_ResetsLeaveTheirState : State.reset.dev.stby = true ∧ ({} : Dev).stby = false ∧ ({ up with stby := true, resetLow := true } : Dev).resetLow = true ∧
    (State.reset.dev.rails = false ∧ State.reset.dev.resetLow = false ∧ State.reset.dev.pwr.trip = false) ∧
    ({ State.reset.dev with pwr := { trip := true } } : Dev).pwr.trip = true ∧
    (up.writeRefusal .obvo (ra 0 0x40) = none ∧ Machine.bit 0x80000000 31 = true ∧ isCol .obvo = false ∧ up.rails = true ∧ up.dpBusy = false ∧ up.pwr.trip = false) ∧
    (up.age up.pwr.powerAt < 4000000 ∧
      (let d : Dev := { up with frm := { up.frm with elapsed := 4000000 } }
       4000000 ≤ d.age d.pwr.powerAt) ∧
      (let d : Dev := { up with dpBusy := true, frm := { up.frm with elapsed := 320000 } }
       d.stackLost = false ∧ 320000 ≤ d.age d.dpAt)) := by decide

def kCt (set : Byte) : Pkt := { kC with st := .engine, pk := { pkC with hdr := { hdC with op := 0x41, slice := 2 }, payload := [3, set] ++ zeros 62 } }
def dCt (set : Byte) : Dev := { dSw with pkts := [kCt set], regs := dSw.regs ++ [(ra 0x10 0x400040, 1), (ra 0x10 0x400044, 8)] }
theorem witness_CountersSnapAndAnswer :
    (up.writeRefusal .obvo (ra 0x10 0) = none ∧ Machine.fld 0x80000000 0 5 = ({ up with regs := [(ra 0x10 0, 0)] } : Dev).fld (ra 0x10 0) 0 5) ∧
    (isLive (rp 0x10 0x100 127) = true ∧ isLive (rp 0x10 0xFFC 0) = true ∧ isShadow (ra 0x10 4) = false ∧ 3 ∈ ({ up with regs := [pv 3] } : Dev).validPorts) ∧
    (let d : Dev := { up with regs := [(ra 0x10 0, 3)] }
     d.fno % 2 ^ 3 = 0 ∧ d.bwAt ≠ some d.now ∧ (d.bwAt = none) ∧ ({ d with frm := { d.frm with no := 1001 } } : Dev).fno % 2 ^ 3 ≠ 0 ∧
       min 20 (d.fld (ra 0x10 0) 0 5) = 3 ∧ ({ d with bwWin := 3, bwAt := some 992 } : Dev).bwAt ≠ some d.now) ∧
    (isView (ra 0x10 0x401FFC) = true ∧ up.writeRefusal .obvo (ra 0x10 0x401FFC) = none ∧ isCol (.col true) = true ∧
      up.writeRefusal (.col true) (ra 0x10 0x401FFC) = none) ∧
    ((dCt 1).pkt 4 = some (kCt 1) ∧ 4 < (dCt 1).nextId ∧ zeroAt (kCt 1).pk.payload 4 60 = true ∧ (kCt 1).pk.hdr.len = 0 ∧ (dCt 1).cntServed < 16 ∧ (kCt 1).rank = 0 ∧
      ({ dCt 1 with pkts := [{ kCt 1 with rank := 1 }] } : Dev).pkts.filter (fun x => x.pk.hdr.op == 0x41 && x.st == .engine && x.rank == 1) = [{ kCt 1 with rank := 1 }] ∧
      (dCt 1).bit (ra 0x10 (0x400000 + 0x20 * 2)) 0 = true ∧ (dCt 1).bit (ra 0x10 (0x400004 + 0x20 * 2)) 3 = true ∧ leAt (kCt 0).pk.payload 1 1 = 0 ∧
      dSw.bit (ra 0x10 (0x400000 + 0x20 * 2)) 0 = false ∧ (16 : Nat) ≤ ({ dCt 1 with cntServed := 16 } : Dev).cntServed) := by decide +kernel

/-- A list of one entry in region 1, for pattern source 0 on port 0. -/
def wRegs (purpose : Word) : List (Nat × Word) :=
  [(ra 9 0x800014, 1 ||| purpose <<< 16), (ra 9 0x80001C, 1), (patReg 0 0, 0), (patReg 4 0, 1), (capReg 0 0, 0x00400000), (capReg 4 0, 1)]
def dWi (purpose : Word) : Dev := { dSw with regs := dSw.regs ++ wRegs purpose }
def wPlen : Nat := pktLen (hdrOf (zeros 16))
def wEnt (delay : Nat) : List Byte := leBytes 2 wPlen ++ [0, 0] ++ leBytes 4 (256 * delay) ++ leBytes 4 1 ++ zeros (wPlen + 4)
def wBytes (delay : Nat) : List Byte := readBytes (writeBytes [] 0 (wEnt delay)) 0 32
def recd : List Byte := zeros 16 ++ leBytes 4 7 ++ zeros 44
def capR : Cap := { st := .run, staged := [recd] }
theorem witness_WitnessSourcesAndCaptures :
    ((dWi 5).writeRefusal .obvo (patReg 0 0) = none ∧ (dWi 5).goRefusal ((dWi 5).fld (patReg 4 0) 0 12) 5 0 0 false = none ∧
      (dWi 4).goRefusal ((dWi 4).fld (patReg 4 0) 0 12) 5 0 0 false = some 1 ∧ (dWi 4).goRefusal 1 4 0 1002 false = none ∧
      (dWi 4).writeRefusal .obvo (capReg 0 7) = none ∧ (dWi 4).goRefusal 1 4 0 0 true = some 3) ∧
    ((dWi 5).isUp 0 = true ∧ (dWi 5).badIn 0 (16 + wPlen) = [] ∧ entryBad (wBytes 0) 0 ((dWi 5).rt 1).size = none ∧
      entryBad (zeros 32) 0 ((dWi 5).rt 1).size = some 1 ∧ 0 + leAt (wBytes 0) 4 4 / 256 ≤ (dWi 5).now ∧ (dWi 5).now < 990 + leAt (wBytes 20) 4 4 / 256 ∧
      (dWi 5).bit (patReg 0 0) 22 = false ∧ ((dWi 5).reserve 0 (16 + wPlen)).isSome = true ∧ ((dWi 5).rt 1).base = 0 ∧ (dWi 5).pkts = []) ∧
    (let d : Dev := { dWi 4 with caps := [(0, capR)] }
     (d.cap_ 0).staged = [recd] ∧ (d.cap_ 0).st = .run ∧ recd.length = 64 ∧ (d.rd (capReg 0xC 0)).toNat + 1 ≤ (d.rt 1).size / 64 ∧
       (d.reserve (d.rt 1).base 64).isSome = true) ∧
    (let d : Dev := { dWi 4 with regs := (dWi 4).regs ++ [(capReg 0xC 0, BitVec.ofNat 32 (((dWi 4).rt 1).size / 64))] }
     (d.rt 1).size / 64 < (d.rd (capReg 0xC 0)).toNat + 1 ∧ (d.rd (capReg 0xC 0)).toNat ≤ (d.rt 1).size / 64 ∧ d.bit (capReg 0 0) 22 = true ∧
       d.fld (capReg 4 0) 0 12 = 1 ∧ ({ d with regs := dSw.regs } : Dev).bit (capReg 0 0) 22 = false) ∧
    (let d : Dev := { dSw with regs := dSw.regs ++ [(rp 0x11 0x100 0, 5)] }
     d.writeRefusal .obvo (rp 0x11 0x110 0) = none ∧ d.injRefusal 0 1 1 = none ∧ d.injRefusal 0 2 3 = none ∧ d.injRefusal 0 4 2 = none ∧ d.injRefusal 0 4 3 = none ∧
       d.injRefusal 0 4 4 = none ∧ d.injRefusal 0 2 2 = none ∧ d.injRefusal 0 3 1 = none ∧ dSw.injRefusal 0 1 1 = some 1) := by decide +kernel

theorem witness_ServiceAndTheTestPort :
    (up.writeRefusal .obvo (ra 0 0x5C) = none ∧ (∀ i < 32, Machine.bit 0x80000000 i = true → up.pvalid (32 * 3 + i) = false) ∧
      ((0x80000000 : Word).toNat = 2 ^ 31 ∧ ({ up with regs := [pv 127] } : Dev).pvalid (32 * 3 + 31) = true)) ∧
    (({} : Dev).col.st ≠ .ready ∧ up.col.st = .ready ∧ up.bit (ra 0 0x70) 0 = false ∧ ({ up with regs := [(ra 0 0x70, 1)] } : Dev).bit (ra 0 0x70) 0 = true) ∧
    up.writeRefusal .obvo (ra 0 0x74) = none ∧ State.reset.dev.stby = true ∧ State.reset.dev.col.cfgLock = false ∧
    ({ State.reset.dev with col := { cfgLock := true } } : Dev).col.cfgLock = true ∧ ({} : Dev).stby = false := by decide

/-! ## Worked examples of the spec, each named by its file and rule -/

/-- 00_scope.md, R9: the per-lane register at offset 40h of lane 37, and the per-port one of port 37 in LINK. -/
theorem test_register_addresses : rl 0x40 37 = 0x02025040 ∧ rp 3 0x40 37 = 0x03094040 := by decide
/-- 00_scope.md, R18. -/
theorem test_abort_word : abortWord (condWord 7 3 0) 0x0A41 0x3C00 = 0x070300000A413C00 := by decide
/-- 01_architecture.md, R23: octets 5 and 20 are CD_1's, octets 36 to 39 CD_3's. -/
theorem test_owners : ownerOfLane (8 * 5) = 1 ∧ ownerOfLane (8 * 20) = 1 ∧ (∀ o < 4, ownerOfLane (8 * (36 + o)) = 3) := by decide

/-- Port 40, X−, 8 lanes, with the class settings of 06_switch_core.md (R181): W, G, L for five classes. -/
def d40 : Dev := { up with
  regs := [(rp 0xA 0x100 40, 0x80030140), (rp 6 0x100 40, 2), (rp 5 0x304 40, 0x00080000), (rp 3 0x20 40, 0x01080204), (rp 3 0x24 40, 1),
           (rp 5 0x120 40, 0x0E00071F), (rp 5 0x130 40, 0x0700071F), (rp 5 0x140 40, 0x1C00071F), (rp 5 0x150 40, 0x0300071F), (rp 5 0x160 40, 0x0300071F)]
  ports := [(40, { st := .up, delay := some 41 })] }
/-- 02_frame_tick.md, R68: the hop bound of LL-GEN at port 40 and the register it is read in. -/
theorem test_hop_bound : d40.cap 40 = 97 ∧ d40.hopBound 40 4 = 2600 ∧ d40.hopBound 40 0 = 250 ∧ d40.hopBound 40 1 = 0 ∧ rp 1 0x10C 40 = 0x010A010C := by decide
/-- 06_switch_core.md, R180: TRAIN_MAX of the five widths (cells per frame 12, 24, 48, 97, 194), and CAP of the classes. -/
theorem test_class_caps : d40.trainMax 40 = 17 ∧ [2, 3, 4, 5, 6].map (d40.capOf 40) = [263, 131, 526, 56, 56] ∧ [2, 5].map (d40.vcs 40) = [4, 1] ∧
    d40.chkPort 40 = [] := by decide +kernel
/-- 04_links_discovery.md, R132: XOFF_AT and XON_AT of port 40 at a delay of 41 cycles. -/
theorem test_xoff : d40.xoffAt 40 = 259 ∧ d40.xonAt 40 = 129 := by decide
/-- 05_packets_addressing.md, R146: the encoding example, as the endpoint sends it and read back; and the entry of 0C2Ah (R154). -/
def hdrEx : Header := { seq := 5, srcId := 0x107, dstId := 0xC2A, slice := 5, op := 1, len := 22, vc := 10, cls := 4, order := true, spec := false,
                        mark := false, echo := false, hops := 0, viaV := false, via := 0, rsv := 0, fmt := 1 }
theorem test_header_bytes : hdrBytesFull hdrEx = [1, 0, 0, 0, 0, 0, 0xA4, 0x5A, 1, 5, 0x2A, 0x0C, 7, 1, 5, 0] ∧ hdrOf (hdrBytesFull hdrEx) = hdrEx ∧
    leNat ((hdrBytesFull { hdrEx with hops := 0x10 }).drop 4 |>.take 2) = 0x2000 ∧ pktLen hdrEx = 1496 ∧ cellsOfPkt hdrEx = 6 := by decide
theorem test_dest_entry : ra 4 (0x800000 + 8 * 0xC2A) = 0x04806150 ∧
    ({ up with regs := [(0x04806150, 0x21303F01), (0x04806154, 0x05380016)] } : Dev).dt 0xC2A =
      { slice := 5, classes := 0x1C, ref := 22, coord := 0x213, maxlen := 0x3F, ty := 1 } := by decide
/-- 07_torus_routing.md, R207: the 61st coordinate of a 4 × 4 × 4 torus. -/
theorem test_via : ({ up with regs := [(ra 6 4, 0x333)] } : Dev).coords.getD (0xF1234567 * 64 / 2 ^ 32) 0 = 0x330 := by decide

/-- 08_catchment.md, R244 and R252: four BF32 members end at 4040_0001h, in any order. -/
def bf (l : List Nat) : Nat := (resElt 0 0 4 false ((l.map (eltOf 0 0)).foldl addFin {})).enc
theorem test_bf32_sum : bf [0x4C000000, 0x40400000, 0xCC000000, 0x34800000] = 0x40400001 ∧ bf [0x34800000, 0xCC000000, 0x40400000, 0x4C000000] = 0x40400001 ∧
    (eltOf 0 0 0x4C000000).fin = 2 ^ 174 ∧ (eltOf 0 0 0xCC000000).fin = - 2 ^ 174 ∧ (eltOf 0 0 0x34800000).fin = 2 ^ 127 := by decide +kernel
/-- 08_catchment.md, R253: the MX4 block of A and B re-quantised to scale 81h, data bytes 05h, 69h, flags INEXACT and ZERO_LOSS. -/
def mxG : GtE := { members := [], spillRegion := 0, spillEn := false, mTotal := 2, inDirs := [], outDir := 0, slice := 5, units := 1, sparseOk := false,
                   sat := false, op := 0, fmt := 7, mask := 0, valid := true, catchId := 0 }
def mxOf (x b0 b1 : Byte) : List Elt := contribElts 7 1 false 0 ([b0, b1] ++ zeros 62 ++ [x] ++ zeros 63)
def mxRes (a b : List Elt) : List Byte × Nat := resultOf mxG (zipAccs addFin 0 b (zipAccs addFin 0 a (List.replicate 128 {})))
theorem test_mx4_block : (let r := mxRes (mxOf 0x7F 0xB7 0x51) (mxOf 0x81 0x13 0x69)
     r.1.take 2 = [0x05, 0x69] ∧ r.1.getD 64 0 = 0x81 ∧ r.2 = 4 + 8) ∧
    (mxRes (mxOf 0x81 0x13 0x69) (mxOf 0x7F 0xB7 0x51)).1.take 2 = [0x05, 0x69] := by decide +kernel
/-- 08_catchment.md, R240: chunk 2 of group 0A41h is reduced in CD_3. -/
theorem test_chunk_die : chunkDie 0xA41 2 = 3 ∧ perUnit 0 * 15 = 240 := by decide

/-- 10_fan.md, R301: RANK and END; and element 0 of token 17, whose two terms cancel exactly (R316). -/
def rdEx : RDesc := { close := 0x20040, rankLag := 24, endLag := 400, vfmt := 2, units := 1 }
theorem test_fan_frames : rdRank rdEx = 0x20058 ∧ rdEnd rdEx = 0x201D0 := by decide
theorem test_fan_terms : (fanTerm (gateVal false 0x3F20) (decF (ffOf 2) 0x3FC0) (fanShift 2)).fin = 15 * 2 ^ 147 * 2 ^ 147 ∧
    (fanTerm (gateVal false 0x3EC0) (decF (ffOf 2) 0xC020) (fanShift 2)).fin = - (15 * 2 ^ 147 * 2 ^ 147) := by decide
/-- 10_fan.md, R312 to R314: expert 1 (CAP 3, REDIRECT to expert 2) and expert 2 (CAP 4, DROP_NOTIFY) at RANK and the frame after. -/
def rkCopies : List Copy := [30, 4, 17, 12, 9].map (fun t => { cp1 with token := t, src := if t = 17 then 0x209 else 0x107 }) ++
  [2, 21, 40].map (fun t => { cp1 with expert := 2, first := 2, token := t })
def dRk : Dev := { dSw with
  regs := dSw.regs ++ [(ra 8 0x800014, 0x71), (ra 8 0x800018, 0x00080009), (ra 8 0x80001C, 0x00030003), (ra 8 0x800024, 0x71), (ra 8 0x80002C, 0x00030004),
                       (ra 4 (0x800000 + 8 * 6), 0x3F05), (ra 4 (0x800004 + 8 * 6), 0x00FE0007)]
  rounds := [(3, { rdK with copies := rkCopies, combos := rkCopies.map (fun c => { cmb with token := c.token }) })] }
def outcome (o : Host.Outcome State Fault Refusal) : State := match o with | .next t => t | _ => State.reset
def admitted (s : State) (e : Nat) : List Nat := ((s.dev.rnd 3).copies.filter (fun c => c.expert == e && c.st != .held)).map (·.token)
def redirected (s : State) : List Nat := ((s.dev.rnd 3).copies.filter (fun c => c.expert == 2 && c.st == .held)).map (·.token)
def rkd : State := outcome (exec (.rank 3) (on dRk))
theorem test_rank : admitted rkd 1 = [4, 9, 12] ∧ admitted rkd 2 = [2, 21, 40] ∧ redirected rkd = [17, 30] := by decide +kernel
theorem test_rank_fallback : (let s := outcome (exec (.rankFallback 3) { rkd with dev := { rkd.dev with frm := { rkd.dev.frm with no := 1030 } } })
     admitted s 2 = [2, 21, 40, 17] ∧ redirected s = []) := by decide +kernel
/-- 11_basin.md, R333: DA 01_2345_6F80h lies on HS_2 in row segment 340,870. -/
theorem test_basin_address : stackOf 0x123456F80 = 2 ∧ rowOf 0x123456F80 = 340870 * 8 + 2 := by decide
/-- 19_package_pins_electrical.md, R38: GLB_STRAP of coordinate (2,1,3), TRAY_POS 2. -/
theorem test_strap : strapWord { coord := 0x312, trayPos := 2, coordSrc := false, pwrCeil := 1 } = 0x2312 := by decide
/-- 18_witness.md, R513: the head of the record of the example packet; the cycle byte is the model's free value. -/
theorem test_capture_record : (let r := d40.capRecord {} 1 22 1 (some hdrEx) 0x32004 0 (zeros 1496)
     r.length = 1536 ∧ r.take 6 = [4, 0x20, 3, 0, 0, 0] ∧ (r.drop 7).take 9 = [1, 0x16, 9, 0xD8, 5, 0x18, 0, 0xA, 0]) := by decide +kernel
/-- A step runs the command at the front of the queue (log 1). -/
theorem test_step_front : step { State.reset with pending := [.mainRailsUp, .railLoss] } = exec .mainRailsUp { State.reset with pending := [.railLoss] } := rfl
/-- 03_lanes.md, R96: the openings of the example window and their EQI. -/
theorem test_eqi : eyeOpen [(76, 2)] [(44, 2)] = 31 ∧ eyeOpen [(141, 2)] [(112, 2)] = 28 ∧ eyeOpen [(207, 2)] [(176, 2)] = 30 ∧ eqiOf 31 28 30 = 112 := by decide
/-- 02_frame_tick.md, the worked frame: the trail disables port 12, and the host's enable of it is refused with 0104_0203h. -/
theorem test_worked_frame : (on up).settleActs
      [{ who := .sw .obvo, op := .write (rp 3 0 12) fullMask 0, cmd := 0, idx := 0 }, { who := .sw (.trail 9), op := .write (rp 3 0 12) fullMask 1, cmd := 1, idx := 0 }] =
    ([{ who := .sw (.trail 9), op := .write (rp 3 0 12) fullMask 1, cmd := 1, idx := 0 }],
     [({ who := .sw .obvo, op := .write (rp 3 0 12) fullMask 0, cmd := 0, idx := 0 }, 0x01040203)]) := by decide +kernel
/-- 01_architecture.md, R27: CD_1 to CD_3 over CB_2 or CB_3, CD_1 to CD_2 over CB_6 alone; CB_c is bridge 8 + c. -/
theorem test_bridges : coreBridges 1 3 = [8 + 2, 8 + 3] ∧ coreBridges 1 2 = [8 + 6] ∧ bridgeFor 1 3 false = some (8 + 2) ∧ bridgeFor 1 3 true = some (8 + 3) := by decide
/-- An IDENT block and a sideband word are read as they were laid out (R84, R112). -/
theorem test_layouts : identOf (BitVec.ofNat 256 (identBlk idnt)) = idnt ∧
    (let w : Lsw := { rop := 1, reqId := 9, ack := 0xABC, xoff := 0x8001, bad0 := some 5, upToV := true, upTo := 77, markFrame := 0x1234, markCycle := 200, cwSeq := 3, laneInPort := 15, width := 4 }
     lswOf w.bits = w) := by decide +kernel
/-- What is scrambled is descrambled with the same history (R80). -/
theorem test_scrambler : (descramble 0x155 (scramble 0x155 0xABCDEF).1).1 % 2 ^ 5102 = 0xABCDEF := by decide +kernel

end Sys2Proof.Tests
end

section
/-! PROOFS. Facts about fields, addresses and raised words, and what raising a condition holds (R6, R8, R16, R75, R415). -/

namespace Sys2Proof.Machine

/-! ## Fields and addresses (R6, R8, R9) -/

/-- The bits of a field are those of its register. -/
theorem testBit_fld (w : Word) (lo len i : Nat) :
    (fld w lo len).testBit i = (decide (i < len) && w.getLsbD (lo + i)) := by
  simp [fld, Nat.testBit_mod_two_pow, BitVec.getLsbD]

/-- A field replaced: its bits are the value's, the others stay. -/
theorem getLsbD_setFld (w : Word) (lo len v : Nat) {i : Nat} (hi : i < 32) :
    (setFld w lo len v).getLsbD i = if lo ≤ i ∧ i < lo + len then v.testBit (i - lo) else w.getLsbD i := by
  simp only [setFld, BitVec.getLsbD_or, BitVec.getLsbD_and, BitVec.getLsbD_not, BitVec.getLsbD_shiftLeft, BitVec.getLsbD_ofNat,
    Nat.testBit_two_pow_sub_one, Nat.testBit_mod_two_pow, hi, show i - lo < 32 by omega, decide_true, Bool.true_and]
  by_cases hlo : lo ≤ i
  · by_cases hup : i < lo + len
    · simp [hlo, hup, show i - lo < len by omega, Nat.not_lt.2 hlo]
    · simp [hlo, hup, show ¬ i - lo < len by omega]
  · simp [hlo, show i < lo by omega]

theorem fld_setFld_self (w : Word) {lo len : Nat} (v : Nat) (h : lo + len ≤ 32) :
    fld (setFld w lo len v) lo len = v % 2 ^ len := by
  refine Nat.eq_of_testBit_eq fun i => ?_
  rw [testBit_fld, Nat.testBit_mod_two_pow]
  by_cases hi : i < len
  · rw [getLsbD_setFld _ _ _ _ (by omega), if_pos (by omega), Nat.add_sub_cancel_left]
  · simp [hi]

theorem fld_setFld_of_disjoint (w : Word) {lo len a n : Nat} (v : Nat) (hn : a + n ≤ 32) (h : a + n ≤ lo ∨ lo + len ≤ a) :
    fld (setFld w lo len v) a n = fld w a n := by
  refine Nat.eq_of_testBit_eq fun i => ?_
  rw [testBit_fld, testBit_fld]
  by_cases hi : i < n
  · rw [getLsbD_setFld _ _ _ _ (by omega), if_neg (by omega)]
  · simp [hi]

theorem fld_lt (w : Word) (lo len : Nat) : fld w lo len < 2 ^ len := Nat.mod_lt _ (Nat.two_pow_pos len)

/-- A mask that covers a field keeps it. -/
theorem fld_and_of_covered (v m : Word) {lo len : Nat} (h : fld m lo len = 2 ^ len - 1) :
    fld (v &&& m) lo len = fld v lo len := by
  refine Nat.eq_of_testBit_eq fun i => ?_
  have hm : (decide (i < len) && m.getLsbD (lo + i)) = decide (i < len) := by
    rw [← testBit_fld, h, Nat.testBit_two_pow_sub_one]
  simp only [testBit_fld, BitVec.getLsbD_and]
  rw [Bool.and_comm (v.getLsbD _), ← Bool.and_assoc, hm]

theorem bit_and (v m : Word) (i : Nat) : Machine.bit (v &&& m) i = (Machine.bit v i && Machine.bit m i) :=
  BitVec.getLsbD_and

theorem blk_ra (b : Nat) {o : Nat} (h : o < 0x1000000) : blk (ra b o) = b := by unfold blk ra; omega
theorem off_ra (b : Nat) {o : Nat} (h : o < 0x1000000) : off (ra b o) = o := by unfold off ra; omega
/-- The window of a lane is part of the LANE block's (R9). -/
theorem rl_eq_ra (o l : Nat) : rl o l = ra 2 (o + l * 0x1000) := by unfold rl ra; omega

/-! ## Raising a condition (R16, R75, R415) -/

theorem topWord_concat (a : Nat) (l : List (Nat × Word)) (e : Nat × Word) :
    topWord a (l ++ [e]) = if e.1 = a ∧ (topWord a l).toNat < e.2.toNat then e.2 else topWord a l := by
  rw [topWord, List.foldl_append]; rfl

/-- The top word is at least as high as every word raised at its register. -/
theorem le_topWord {a : Nat} {l : List (Nat × Word)} {w : Word} (h : (a, w) ∈ l) : w.toNat ≤ (topWord a l).toNat := by
  induction l using List.reverseRecOn with
  | nil => cases h
  | append_singleton l e ih =>
    rw [topWord_concat]
    rcases List.mem_append.1 h with h | h
    · have := ih h
      split <;> omega
    · obtain rfl : (a, w) = e := by simpa using h
      split
      · exact Nat.le_refl _
      · next hn => simpa using hn

/-- The top word is one of those raised at its register, where there are any. -/
theorem topWord_mem_or_zero (a : Nat) (l : List (Nat × Word)) : (a, topWord a l) ∈ l ∨ topWord a l = 0 := by
  induction l using List.reverseRecOn with
  | nil => exact .inr rfl
  | append_singleton l e ih =>
    obtain ⟨b, w⟩ := e
    rw [topWord_concat]
    split
    · next h => obtain ⟨rfl, _⟩ := h; simp
    · exact ih.imp_left (List.mem_append_left _)

section
variable (d : Dev) (b c det i : Nat) (h : (condAddr b i, condWord b c det) ∉ d.raised)
include h

theorem Dev.raiseAt_raised_of_first :
    (d.raiseAt b c det i).raised = d.raised ++ [(condAddr b i, condWord b c det)] := by
  simp only [Dev.raiseAt, Dev.holdAt, if_neg h, Dev.wr_raised]

/-- ALERT_N follows PENDING of the condition's register, and the enable of its block (R415; log 97). -/
theorem Dev.raiseAt_obvo_of_first :
    let a := condAddr b i
    let e := d.wr a ((d.raiseAt b c det i).rd a)
    (d.raiseAt b c det i).obvo = d.obvo.pends (! Machine.bit (e.rd (a + 4)) 0 &&
      Machine.bit ((e.wr (a + 4) (e.rd (a + 4) ||| 1)).rd (ra 0xC 8)) b) (d.col.st == .ready) := by
  dsimp only
  rw [d.raiseAt_cond b c det i h]
  unfold Dev.raiseAt Dev.holdAt
  dsimp only
  rw [if_neg h]
  rfl

end

end Sys2Proof.Machine

namespace Sys2Proof.Claim
open Sys2Proof Sys2Proof.Machine

theorem raisedOn_raiseAt (d : Dev) (b c det i : Nat) : RaisedOn d (d.raiseAt b c det i) b c det i := by
  refine ⟨?_, d.raiseAt_mem b c det i, fun a ha => ?_⟩
  · obtain ⟨_, _, _, _, h⟩ := d.raiseAt_eq b c det i
    rw [h]
  · simp only [condRegs, List.mem_cons, List.not_mem_nil, or_false, not_or] at ha
    exact d.raiseAt_rd b c det i ha.1 ha.2

/-- Settles O7: the COND register takes the top word of the frame, and ALERT_N follows PENDING. -/
theorem conditionIsHeld : Obligations.ConditionIsHeld := by
  unfold Obligations.ConditionIsHeld
  intro d b c det i h a e
  have htop : e.rd a = topWord a e.raised := by
    rw [d.raiseAt_raised_of_first b c det i h, d.raiseAt_cond b c det i h]
  refine ⟨raisedOn_raiseAt d b c det i, d.raiseAt_pending b c det i h, fun w hw => ?_, ?_, fun hpend hen hne => ?_⟩
  · rw [htop]; exact le_topWord hw
  · rw [htop]; exact topWord_mem_or_zero a e.raised
  · have hobvo := d.raiseAt_obvo_of_first b c det i h
    dsimp only at hobvo
    rw [Dev.rd_wr_ne _ _ (by omega), Dev.rd_wr_ne _ _ hne, hpend, hen] at hobvo
    split
    · next hready => simp [e, hobvo, Obvo.pends, hready]
    · next hready => simp [e, hobvo, Obvo.pends, hready]

end Sys2Proof.Claim
end

section
/-! PROOFS. Writes as commands: they wait, a boundary samples each as one control action, and as it takes effect an unrefused one
reaches its block (R12, R55, R65, R414, R420). -/

namespace Sys2Proof.Machine

/-! ## Writes that take effect (R12, R55) -/

/-- A write of every bit leaves nothing of what the register held. -/
theorem or_and_fullMask (old v : Word) : (old &&& ~~~ fullMask) ||| (v &&& fullMask) = v := by
  rw [show fullMask = BitVec.allOnes 32 from rfl, BitVec.not_allOnes, BitVec.and_zero, BitVec.zero_or, BitVec.and_allOnes]

theorem State.merged_fullMask (s : State) (a : Nat) (v : Word) : s.merged a fullMask v = v := or_and_fullMask _ v

/-- A write that nothing refuses reaches its block. -/
theorem State.regWrite_of_unrefused {s : State} {src : Src} {a : Nat} (v : Word) (hr : s.dev.writeRefusal src a = none)
    (ha : a < 0x12000000) (h4 : a % 4 = 0) (hl : isRwl a = false) :
    (s.regWrite src a fullMask v).2 = s.writeAt src a v := by
  unfold State.regWrite
  rw [if_neg (by omega), hr, hl, State.merged_fullMask]
  rfl

theorem State.runOp_write (s : State) (src : Src) (a : Nat) (m v : Word) (cmd idx : Nat) (later : Bool) :
    (s.runOp { who := .sw src, op := .write a m v, cmd := cmd, idx := idx, deferred := later }).2 = (s.regWrite src a m v).2 := rfl

theorem Dev.not_colProtected_of_unrefused {d : Dev} {src : Src} {a : Nat} (h : d.writeRefusal src a = none) :
    (isCol src && colProtected a) = false := by
  unfold Dev.writeRefusal at h
  split at h
  · cases h
  · next hn => simpa using hn

end Sys2Proof.Machine

namespace Sys2Proof.Claim
open Sys2Proof Sys2Proof.Machine

/-- The command writes `v` to the register at `a` for `src`: it waits, and a boundary samples that write and nothing else. -/
structure WriteCmd (c : Instr) (src : Src) (a : Nat) (v : Word) : Prop where
  waits : ∀ s, exec c s = .next (s.waitFrom src c)
  writes : writeOf c = some (src, a, v)
  seen : ∀ d : Dev, d.seen c = d

/-- An access that reaches the device waits for the boundary (R55, R414). -/
theorem Heard.waitFrom {s : State} {src : Src} (h : Heard s src) (c : Instr) : s.waitFrom src c = s.wait c := by
  unfold State.waitFrom
  cases ht : isTrail src with
  | false => rfl
  | true =>
    obtain ⟨hs, he⟩ := h ht
    have hears : s.dev.hears false = true := by simpa [Dev.hears, hs] using he
    simp [hears]

/-- The boundary samples an unprotected write as one control action. -/
theorem Heard.takeWrite {s : State} {src : Src} (h : Heard s src) {a : Nat} (hc : (isCol src && colProtected a) = false) (v : Word) :
    s.dev.takeWrite src a v = s.dev.addAct (.sw src) (.write a fullMask v) := by
  unfold Dev.takeWrite
  cases ht : isTrail src with
  | false => simp [hc]
  | true => simp [hc, (h ht).1]

theorem WriteCmd.exec_eq {c : Instr} {src : Src} {a : Nat} {v : Word} (hc : WriteCmd c src a v) {s : State} (h : Heard s src) :
    exec c s = .next (s.wait c) := by rw [hc.waits, h.waitFrom]

theorem WriteCmd.takeInput_eq {c : Instr} {src : Src} {a : Nat} {v : Word} (hc : WriteCmd c src a v) {s : State} (h : Heard s src)
    (hp : (isCol src && colProtected a) = false) :
    s.takeInput c = s.onDev (fun d => d.addAct (.sw src) (.write a fullMask v)) := by
  unfold State.takeInput
  rw [hc.writes]
  simp only [State.onDev, hc.seen, h.takeWrite hp]

/-- A write that reaches its block does there what its address says. -/
theorem WriteCmd.takes {c : Instr} {src : Src} {a : Nat} {v : Word} (hc : WriteCmd c src a v) {s : State} (h : Reached s src a)
    (ha : a < 0x12000000) (h4 : a % 4 = 0) (hl : isRwl a = false) {P : State → Prop} (hP : P (s.writeAt src a v)) :
    Takes c s P := by
  obtain ⟨hh, hr⟩ := h
  refine ⟨hc.exec_eq hh, { who := .sw src, op := .write a fullMask v, cmd := s.dev.obvo.nextCmd, idx := 0 }, ?_, ?_⟩
  · rw [hc.takeInput_eq hh (Dev.not_colProtected_of_unrefused hr)]
    rfl
  · rw [State.runOp_write, State.regWrite_of_unrefused v hr ha h4 hl]
    exact hP

end Sys2Proof.Claim
end

section
/-! PROOFS. Registers without behaviour of their own, the sample ring and the watermarks (R12, R13, R192, R193). -/

namespace Sys2Proof.Machine

/-! ## Plain registers (R12, R13) -/

theorem Dev.plainWrite_eq {d : Dev} {a : Nat} (v : Word) (h : d.keepsW1c a = false) :
    d.plainWrite a v = d.wr a (((d.rd a &&& ~~~ regRw a) ||| (v &&& regRw a)) &&& ~~~ (v &&& regW1c a)) := by
  simp [Dev.plainWrite, h]

/-- A register without W1C bits takes the written bits of its RW fields, whatever was raised in the frame. -/
theorem Dev.plainWrite_eq_of_no_w1c (d : Dev) {a : Nat} (v : Word) (h : regW1c a = 0) :
    d.plainWrite a v = d.wr a ((d.rd a &&& ~~~ regRw a) ||| (v &&& regRw a)) := by
  have hclr : (if d.keepsW1c a then 0 else v &&& regW1c a) = 0#32 := by simp [h]
  unfold Dev.plainWrite
  dsimp only
  rw [hclr, BitVec.not_zero, BitVec.and_allOnes]

theorem State.writeAt_frm (s : State) (src : Src) {a : Nat} (v : Word) (h : blk a = 1) :
    s.writeAt src a v = s.onDev (fun d => d.plainWrite a v) := by
  simp [State.writeAt, h]

theorem State.writeAt_scratch (s : State) (src : Src) (v : Word) :
    s.writeAt src (ra 0 0x38) v = s.onDev (fun d => d.plainWrite (ra 0 0x38) v) := rfl

theorem State.writeAt_cat (s : State) (src : Src) {a : Nat} (v : Word) (hb : blk a = 7) (ho : off a ≠ 0x58) :
    s.writeAt src a v = s.onDev (fun d => d.plainWrite a v) := by
  simp [State.writeAt, hb, ho]

/-- GLB and FRM lie on the Col die (R29): no die refuses an access there. -/
theorem Dev.dieRefusal_of_blk_le_one (d : Dev) {a : Nat} (h : blk a ≤ 1) : d.dieRefusal a = none := by
  have : d.accDie a = none := by
    unfold Dev.accDie
    rcases (by omega : blk a = 0 ∨ blk a = 1) with hb | hb <;> simp [hb]
  simp [Dev.dieRefusal, this]

theorem isRwl_of_blk_ne {a : Nat} (h : blk a ≠ 0xE) : isRwl a = false := by simp [isRwl, h]

/-! ## The sample ring and the watermarks (R192, R193) -/

theorem State.writeAt_shead (s : State) (src : Src) {k : Nat} (v : Word) (h : k < 4) :
    s.writeAt src (ra 5 (0x400F14 + 0x1000 * k)) v = s.onDev (fun d => d.sheadWrite k v) := by
  have hb := blk_ra 5 (o := 0x400F14 + 0x1000 * k) (by omega)
  have ho := off_ra 5 (o := 0x400F14 + 0x1000 * k) (by omega)
  have hk : (0x400F14 + 0x1000 * k - 0x400000) / 0x1000 = k := by omega
  have hctl : ¬ 0x400F14 + 0x1000 * k = 0 := by omega
  have hhead : 0x400000 ≤ 0x400F14 + 0x1000 * k ∧ 0x400F14 + 0x1000 * k < 0x404000 ∧ (0x400F14 + 0x1000 * k) % 0x1000 = 0xF14 := by
    omega
  simp only [State.writeAt, hb, ho, Dev.writeCore, if_neg hctl, if_pos hhead, hk]

theorem State.writeAt_coreCtl (s : State) (src : Src) : s.writeAt src (ra 5 0) 1 = s.onDev Dev.coreClr := rfl

theorem mapGet_filter {α : Type} (d : α) (m : List (Nat × α)) (p : Nat → Bool) (k : Nat) :
    mapGet d (m.filter (fun e => p e.1)) k = if p k then mapGet d m k else d := by
  induction m with
  | nil => simp [mapGet]
  | cons e m ih =>
    by_cases hk : e.1 = k
    · subst hk
      cases hp : p e.1 <;> simp [mapGet, hp, ih]
    · cases hp : p e.1 <;> simp [mapGet, hp, ih, hk]

theorem Dev.rd_coreClr (d : Dev) (a : Nat) : d.coreClr.rd a = if isCoreWmark a then regRst a else d.rd a := by
  unfold Dev.coreClr Dev.rd
  rw [mapGet_filter _ _ (fun x => ! isCoreWmark x)]
  cases isCoreWmark a <;> rfl

end Sys2Proof.Machine

namespace Sys2Proof.Claim
open Sys2Proof Sys2Proof.Machine

theorem regsOnly_wr (s : State) (a : Nat) (v : Word) : RegsOnly s (s.onDev (fun d => d.wr a v)) := ⟨⟨rfl, rfl, rfl⟩, rfl⟩

theorem regsBut_wr (s : State) (a : Nat) (v : Word) : RegsBut s (s.onDev (fun d => d.wr a v)) [a] :=
  fun _ hb => Dev.rd_wr_ne _ _ (by simpa using hb)

/-- What a plain write of a register may change, and what the register reads afterwards. -/
theorem regsOnly_regsBut_plainWrite (s : State) {a : Nat} {v w : Word} (h : s.dev.plainWrite a v = s.dev.wr a w) :
    let t := s.onDev (fun d => d.plainWrite a v)
    RegsOnly s t ∧ RegsBut s t [a] ∧ t.dev.rd a = w := by
  have : s.onDev (fun d => d.plainWrite a v) = s.onDev (fun d => d.wr a w) := by simp only [State.onDev, h]
  dsimp only
  rw [this]
  exact ⟨regsOnly_wr s a w, regsBut_wr s a w, by simp⟩

/-- No source but Col is refused a register of a block on the Col die. -/
theorem Heard.reached {s : State} {src : Src} (h : Heard s src) (hc : isCol src = false) {a : Nat} (ha : blk a ≤ 1) : Reached s src a :=
  ⟨h, by simp [Dev.writeRefusal, hc, Dev.dieRefusal_of_blk_le_one _ ha]⟩

/-- Settles O11: FRM and GLB_SCRATCH are plain registers that no die refuses, and an unprotected Col write is sampled as it came. -/
theorem registerWriteSetsFields : Obligations.RegisterWriteSetsFields := by
  unfold Obligations.RegisterWriteSetsFields
  refine ⟨fun s src v hc hh => ?_, fun s src addr v hc hh h4 hb hk => ?_, fun s core addr v hp _ _ => ?_⟩
  · refine WriteCmd.takes ⟨fun _ => rfl, rfl, fun _ => rfl⟩ (hh.reached hc (by decide)) (by decide) (by decide) (by decide) ?_
    rw [State.writeAt_frm _ _ _ (by decide)]
    obtain ⟨honly, hbut, hrd⟩ := regsOnly_regsBut_plainWrite s (s.dev.plainWrite_eq_of_no_w1c v (a := ra 1 0xC) (by decide))
    refine ⟨honly, hbut, ?_⟩
    rw [Dev.bit, hrd, show regRw (ra 1 0xC) = 1 by decide]
    simp [Machine.bit]
  · have hblk : blk addr.toNat ≤ 1 := by
      rcases hb with hb | hb
      · omega
      · rw [hb]; decide
    have hlt : addr.toNat < 0x12000000 := by unfold blk at hblk; omega
    refine WriteCmd.takes ⟨fun _ => rfl, rfl, fun _ => rfl⟩ (hh.reached hc hblk) hlt h4 (isRwl_of_blk_ne (by omega)) ?_
    have hw : s.writeAt src addr.toNat v = s.onDev (fun d => d.plainWrite addr.toNat v) := by
      rcases hb with hb | hb
      · exact State.writeAt_frm s src v hb
      · rw [hb]; exact State.writeAt_scratch s src v
    rw [hw]
    exact regsOnly_regsBut_plainWrite s (Dev.plainWrite_eq v hk)
  · have hcmd : WriteCmd (.registerWrite (.col core) addr v) (.col core) addr.toNat v := ⟨fun _ => rfl, rfl, fun _ => rfl⟩
    have hh : Heard s (.col core) := fun h => by cases h
    refine ⟨hcmd.exec_eq hh, ?_⟩
    rw [hcmd.takeInput_eq hh (by simp [hp])]
    exact ⟨⟨rfl, rfl, rfl⟩, rfl⟩

/-- Settles O33: the head is a field of its register, and the clear forgets exactly the watermark registers. -/
theorem sampleRingAndWatermarks : Obligations.SampleRingAndWatermarks := by
  unfold Obligations.SampleRingAndWatermarks
  refine ⟨?_, fun s src hr => ?_⟩
  · intro s src k v a hr
    have hk : k.toNat < 4 := k.isLt
    have hb : blk a = 5 := blk_ra 5 (by omega)
    have takes {P : State → Prop} (hP : P (s.onDev (fun d => d.sheadWrite k.toNat v))) : Takes (.sampleConsume src k v) s P := by
      refine WriteCmd.takes (a := a) ⟨fun _ => rfl, rfl, fun _ => rfl⟩ hr ?_ ?_ (isRwl_of_blk_ne (by omega)) ?_
      · simp only [a, ra]; omega
      · simp only [a, ra]; omega
      · rwa [State.writeAt_shead s src v hk]
    refine ⟨fun hlt => takes ?_, fun hle => takes ?_⟩
    · have hw : s.onDev (fun d => d.sheadWrite k.toNat v) = s.onDev (fun d => d.setFld a 0 10 (Machine.fld v 0 10)) := by
        simp only [State.onDev, Dev.sheadWrite, if_pos hlt, a]
      rw [hw]
      refine ⟨regsOnly_wr s a _, regsBut_wr s a _, ?_, ?_⟩
      · simp only [State.onDev_dev, Dev.fld, Dev.setFld, Dev.rd_wr_self]
        rw [fld_setFld_self _ _ (by omega), Nat.mod_eq_of_lt (fld_lt v 0 10)]
      · simp only [State.onDev_dev, Dev.fld, Dev.setFld, Dev.rd_wr_self]
        exact fld_setFld_of_disjoint _ _ (by omega) (by omega)
    · simp only [State.onDev, Dev.sheadWrite, if_neg (Nat.not_lt.2 hle)]
  · refine WriteCmd.takes ⟨fun _ => rfl, rfl, fun _ => rfl⟩ hr (by decide) (by decide) (by decide) ?_
    rw [State.writeAt_coreCtl]
    exact ⟨⟨⟨rfl, rfl, rfl⟩, rfl⟩, s.dev.rd_coreClr⟩

end Sys2Proof.Claim
end

section
/-! PROOFS. A lane under control: what ENABLE, the test selections and the moves of a lane that carries no port change (R95, R98). -/

namespace Sys2Proof.Machine

/-! ## What lane control looks at -/

/-- The plat structure of ports stands in block PLAT: a write below it leaves every lane its port. -/
theorem Dev.portOf_wr_of_lt (d : Dev) {a : Nat} (v : Word) (h : a < 0xA000000) (l : Nat) : (d.wr a v).portOf l = d.portOf l := by
  have hrd (p : Nat) : (d.wr a v).rd (rp 0xA 0x100 p) = d.rd (rp 0xA 0x100 p) := d.rd_wr_ne v (by unfold rp; omega)
  have hvalid : (d.wr a v).pvalid = d.pvalid := funext fun p => by rw [Dev.pvalid, Dev.bit, hrd]; rfl
  have hlane0 : (d.wr a v).lane0 = d.lane0 := funext fun p => by rw [Dev.lane0, Dev.fld, hrd]; rfl
  have hwidth : (d.wr a v).width = d.width := funext fun p => by rw [Dev.width, Dev.wcode, Dev.fld, hrd]; rfl
  simp only [Dev.portOf, Dev.validPorts, hvalid, hlane0, hwidth]

/-- The limits of Narrows stand in block NAR. -/
theorem Dev.clampTaps_wr_of_lt (d : Dev) {a : Nat} (v : Word) (h : a < 0xE000000) (l : Nat) (t : List Int) :
    (d.wr a v).clampTaps l t = d.clampTaps l t := by
  have hrd : (d.wr a v).rd (ra 0xE (0x100 + 4 * (l / 64))) = d.rd (ra 0xE (0x100 + 4 * (l / 64))) :=
    d.rd_wr_ne v (by unfold ra; omega)
  simp only [Dev.clampTaps, Dev.fld, hrd]

/-- The control bits of a lane in force: every condition of ENABLE but the bit itself holds (R21, R113, R362). -/
def Dev.laneServes (d : Dev) (l : Nat) : Prop :=
  d.inService = true ∧ d.plat.active = true ∧ ∀ p, d.portOf l = some p → (d.port p).st ≠ .disabled

theorem Dev.laneServes.laneEn {d : Dev} {l : Nat} (h : d.laneServes l) : d.laneEn l = d.bit (rl 0 l) 0 := by
  obtain ⟨hs, ha, hp⟩ := h
  unfold Dev.laneEn
  cases hl : d.portOf l with
  | none => simp [hs, ha]
  | some p => simp [hs, ha, hp p hl]

/-- With no pattern selected, loopback alone makes a test of a lane (R98). -/
theorem Dev.laneTest_of_no_pattern {d : Dev} {l : Nat} (hg : patOn (d.fld (rl 0x50 l) 0 3) = false)
    (hc : patOn (d.fld (rl 0x50 l) 4 3) = false) :
    d.laneTest l = decide (1 ≤ d.fld (rl 0 l) 5 2 ∧ d.fld (rl 0 l) 5 2 ≤ 2) := by
  simp [Dev.laneTest, hg, hc]

/-! ## Moves of a lane that carries no port (R98) -/

/-- The lane's move is a change of that lane alone: to the state asked for, its timeouts kept, and with the taps of its preset in ADAPT. -/
theorem Dev.moveLane_of_not_carries {d : Dev} {l : Nat} (st : LaneSt) (h : carries (d.lane l).st = false) :
    ∃ x, d.moveLane l st = d.setLane l x ∧ x.st = st ∧ x.timeouts = (d.lane l).timeouts ∧
      (st = .adapt → x.taps = d.clampTaps l (presetTaps (d.fld (rl 0 l) 2 3))) := by
  have hserv : (d.lane l).st ≠ .service := fun hs => by simp [carries, hs] at h
  have hquit : d.quitService l = d := by simp [Dev.quitService, hserv]
  by_cases hst : st = .adapt
  · simp only [Dev.moveLane, h, if_pos hst, Dev.toAdapt, hquit, Dev.onLane, Bool.false_eq_true, if_false]
    exact ⟨_, rfl, hst.symm, rfl, fun _ => rfl⟩
  · simp only [Dev.moveLane, h, if_neg hst, hquit, Dev.onLane, Bool.false_eq_true, if_false]
    exact ⟨_, rfl, rfl, rfl, fun ha => absurd ha hst⟩

theorem Dev.moveLane_st {d : Dev} {l : Nat} (st : LaneSt) (h : carries (d.lane l).st = false) : ((d.moveLane l st).lane l).st = st := by
  obtain ⟨x, hx, hst, _⟩ := d.moveLane_of_not_carries st h
  rw [hx, Dev.lane_setLane_self, hst]

/-- The state that control gives a lane whose ENABLE, test selections and state are known (R98, R99). -/
theorem Dev.evalLane_of_disabled {d : Dev} {l : Nat} (h : d.laneEn l = false) :
    d.evalLane l = if (d.lane l).st = .off then d else d.moveLane l .off := by simp [Dev.evalLane, h]

theorem Dev.evalLane_of_enabled {d : Dev} {l : Nat} (h : d.laneEn l = true) (ht : d.laneTest l = false) (hf : (d.lane l).st ≠ .fault) :
    d.evalLane l = if (d.lane l).st = .off ∨ (d.lane l).st = .test then d.moveLane l .adapt else d := by
  simp [Dev.evalLane, h, ht, hf]

theorem Dev.evalLane_of_test {d : Dev} {l : Nat} (h : d.laneEn l = true) (ht : d.laneTest l = true) (hf : (d.lane l).st ≠ .fault) :
    d.evalLane l = if (d.lane l).st = .test then d else d.moveLane l .test := by simp [Dev.evalLane, h, ht, hf]

/-- No change of the lane's port is due. -/
def Dev.portRests (d : Dev) (l : Nat) : Prop := ∀ p, d.portOf l = some p → (d.port p).due = []

theorem Dev.portRests.downLane {d : Dev} {l : Nat} (h : d.portRests l) : d.downLane l = d := by
  unfold Dev.downLane
  split
  · next p hp => simp [Dev.downNow, h p hp]
  · rfl

/-! ## One lane changes -/

/-- Of the device, only lane `l` differs. -/
def Dev.OnlyLane (d e : Dev) (l : Nat) : Prop := e = { d with lanes := e.lanes } ∧ ∀ m, m ≠ l → e.lane m = d.lane m

theorem Dev.OnlyLane.refl (d : Dev) (l : Nat) : d.OnlyLane d l := ⟨rfl, fun _ _ => rfl⟩

theorem Dev.onlyLane_setLane (d : Dev) (l : Nat) (x : Lane) : d.OnlyLane (d.setLane l x) l :=
  ⟨rfl, fun _ h => d.lane_setLane_ne x h⟩

theorem Dev.OnlyLane.setLane {d e : Dev} {l : Nat} (h : d.OnlyLane e l) (x : Lane) : d.OnlyLane (e.setLane l x) l := by
  obtain ⟨he, hl⟩ := h
  refine ⟨?_, fun m hm => (e.lane_setLane_ne x hm).trans (hl m hm)⟩
  rw [he]
  rfl

theorem Dev.OnlyLane.portRests {d e : Dev} {l m : Nat} (h : d.OnlyLane e l) (hd : d.portRests m) : e.portRests m := by
  rw [h.1]; exact hd

/-- A move of a lane that carries no port changes that lane alone. -/
theorem Dev.OnlyLane.moveLane {d e : Dev} {l : Nat} (h : d.OnlyLane e l) (st : LaneSt) (hc : carries (e.lane l).st = false) :
    d.OnlyLane (e.moveLane l st) l := by
  obtain ⟨x, hx, _⟩ := e.moveLane_of_not_carries st hc
  rw [hx]; exact h.setLane x

theorem Dev.OnlyLane.evalLane {d e : Dev} {l : Nat} (h : d.OnlyLane e l) (hc : carries (e.lane l).st = false) :
    d.OnlyLane (e.evalLane l) l := by
  unfold Dev.evalLane
  dsimp only
  split_ifs
  · exact h
  · exact h.moveLane .off hc
  · exact h
  · exact h
  · exact h.moveLane .test hc
  · exact h.moveLane .adapt hc
  · exact h

/-! ## A write of LANE_CTL (R98, R106) -/

/-- The register takes the written fields. -/
def Dev.laneCtlSet (d : Dev) (l : Nat) (v : Word) : Dev := d.wr (rl 0 l) (v &&& 0x00FFFFFD)

/-- The run of training timeouts of a lane ends (R99). -/
def Dev.forgetTimeouts (d : Dev) (l : Nat) : Dev := d.onLane l (fun x => { x with timeouts := 0 })

@[simp] theorem Dev.lane_forgetTimeouts (d : Dev) (l : Nat) : (d.forgetTimeouts l).lane l = { d.lane l with timeouts := 0 } := by
  simp [Dev.forgetTimeouts, Dev.onLane]

/-- What the write asks for before ENABLE and the test selections count: RETRAIN takes a lane that is enabled and not OFF to ADAPT. -/
def Dev.laneRetrained (d : Dev) (l : Nat) (v : Word) : Dev :=
  let d1 := d.laneCtlSet l v
  if Machine.bit v 1 && d1.laneEn l && (d1.lane l).st != .off then
    (d1.forgetTimeouts l).moveLane l .adapt
  else d1

theorem Dev.laneCtlWrite_eq (d : Dev) (l : Nat) (v : Word) :
    d.laneCtlWrite l v = ((d.laneRetrained l v).evalLane l).downLane l := rfl

theorem rl_lt {l : Nat} (h : l < 512) : rl 0 l < 0x3000000 := by unfold rl; omega

section
variable {d : Dev} {l : Nat} (v : Word)

@[simp] theorem Dev.lane_laneCtlSet (m : Nat) : (d.laneCtlSet l v).lane m = d.lane m := rfl

@[simp] theorem Dev.rd_laneCtlSet : (d.laneCtlSet l v).rd (rl 0 l) = v &&& 0x00FFFFFD := by simp [Dev.laneCtlSet]

theorem Dev.bit_laneCtlSet : (d.laneCtlSet l v).bit (rl 0 l) 0 = Machine.bit v 0 := by
  rw [Dev.bit, Dev.rd_laneCtlSet, bit_and, show Machine.bit 0x00FFFFFD 0 = true by decide, Bool.and_true]

theorem Dev.lpbk_laneCtlSet : (d.laneCtlSet l v).fld (rl 0 l) 5 2 = Machine.fld v 5 2 := by
  rw [Dev.fld, Dev.rd_laneCtlSet, fld_and_of_covered _ _ (by decide)]

theorem Dev.preset_laneCtlSet : (d.laneCtlSet l v).fld (rl 0 l) 2 3 = Machine.fld v 2 3 := by
  rw [Dev.fld, Dev.rd_laneCtlSet, fld_and_of_covered _ _ (by decide)]

theorem Dev.pattern_laneCtlSet (lo len : Nat) : (d.laneCtlSet l v).fld (rl 0x50 l) lo len = d.fld (rl 0x50 l) lo len := by
  rw [Dev.fld, Dev.laneCtlSet, Dev.rd_wr_ne _ _ (by unfold rl; omega)]; rfl

theorem Dev.laneServes.laneCtlSet (hl : l < 512) (h : d.laneServes l) : (d.laneCtlSet l v).laneServes l := by
  obtain ⟨hs, ha, hp⟩ := h
  refine ⟨hs, ha, fun p h => hp p ?_⟩
  rwa [Dev.laneCtlSet, d.portOf_wr_of_lt _ (by have := rl_lt hl; omega)] at h

theorem Dev.portRests.laneCtlSet (hl : l < 512) (h : d.portRests l) : (d.laneCtlSet l v).portRests l := by
  refine fun p hp => h p ?_
  rwa [Dev.laneCtlSet, d.portOf_wr_of_lt _ (by have := rl_lt hl; omega)] at hp

end

/-- Of a lane that carries no port, a write of LANE_CTL changes the register and that lane alone. -/
theorem Dev.laneRetrained_onlyLane {d : Dev} {l : Nat} (v : Word) (hc : carries (d.lane l).st = false) :
    (d.laneCtlSet l v).OnlyLane (d.laneRetrained l v) l ∧ carries ((d.laneRetrained l v).lane l).st = false := by
  have hrefl := Dev.OnlyLane.refl (d.laneCtlSet l v) l
  unfold Dev.laneRetrained
  dsimp only
  split
  · have hc1 : carries (((d.laneCtlSet l v).forgetTimeouts l).lane l).st = false := by simpa using hc
    exact ⟨(hrefl.setLane _).moveLane .adapt hc1, by rw [Dev.moveLane_st _ hc1]; rfl⟩
  · exact ⟨hrefl, hc⟩

theorem Dev.laneCtlWrite_onlyLane {d : Dev} {l : Nat} (v : Word) (hl : l < 512) (hc : carries (d.lane l).st = false)
    (hr : d.portRests l) :
    (d.laneCtlSet l v).OnlyLane (d.laneCtlWrite l v) l ∧ d.laneCtlWrite l v = (d.laneRetrained l v).evalLane l := by
  obtain ⟨hretr, hcr⟩ := d.laneRetrained_onlyLane v hc
  have heval := hretr.evalLane hcr
  have hdown : d.laneCtlWrite l v = (d.laneRetrained l v).evalLane l := (heval.portRests (hr.laneCtlSet v hl)).downLane
  exact ⟨hdown ▸ heval, hdown⟩

theorem State.writeAt_laneCtl (s : State) (src : Src) {l : Nat} (v : Word) (h : l < 512) :
    s.writeAt src (rl 0 l) v = s.onDev (fun d => d.laneCtlWrite l v) := by
  have hb : blk (rl 0 l) = 2 := by rw [rl_eq_ra, blk_ra _ (by omega)]
  have ho : off (rl 0 l) = l * 0x1000 := by rw [rl_eq_ra, off_ra _ (by omega), Nat.zero_add]
  simp [State.writeAt, hb, ho, Dev.writeLane, show l * 0x1000 < 0x200000 by omega]

end Sys2Proof.Machine

namespace Sys2Proof.Claim
open Sys2Proof Sys2Proof.Machine

/-- A device that differs from the written one in one lane alone. -/
theorem laneAnd_of_onlyLane {s : State} {l : Nat} {v : Word} {f : Dev → Dev} (h : (s.dev.laneCtlSet l v).OnlyLane (f s.dev) l) :
    LaneAnd s (s.onDev f) l [rl 0 l] ∧ (s.onDev f).dev.rd (rl 0 l) = v &&& 0x00FFFFFD := by
  obtain ⟨he, hl⟩ := h
  have hregs : (f s.dev).regs = (s.dev.laneCtlSet l v).regs := by rw [he]
  refine ⟨⟨⟨rfl, rfl, rfl⟩, ?_, hl, fun a ha => ?_⟩, ?_⟩
  · rw [State.onDev_dev, hregs]; exact he
  · exact (Dev.rd_congr hregs a).trans (Dev.rd_wr_ne _ _ (by simpa using ha))
  · exact (Dev.rd_congr hregs _).trans (Dev.rd_laneCtlSet v)

end Sys2Proof.Claim
end

section
/-! PROOFS. The four commands of LANE_CTL on a lane that is free to move (R98, R99, R106). -/

namespace Sys2Proof.Machine

/-! ## What the written control bits make of a lane (R98, R99, R106) -/

/-- A lane that its control moves freely: it carries no port in service, its port is neither DISABLED nor about to change, the data path
and a plat are in force, and no pattern is selected. -/
structure Dev.LaneFree (d : Dev) (l : Nat) : Prop where
  lt : l < 512
  serves : d.laneServes l
  rests : d.portRests l
  idle : carries (d.lane l).st = false
  noGen : patOn (d.fld (rl 0x50 l) 0 3) = false
  noChk : patOn (d.fld (rl 0x50 l) 4 3) = false

section
variable {d : Dev} {l : Nat} (h : d.LaneFree l) {v : Word}
include h

theorem Dev.LaneFree.write_eq : d.laneCtlWrite l v = (d.laneRetrained l v).evalLane l :=
  (Dev.laneCtlWrite_onlyLane v h.lt h.idle h.rests).2

theorem Dev.LaneFree.laneEn : (d.laneCtlSet l v).laneEn l = Machine.bit v 0 := by
  rw [(h.serves.laneCtlSet v h.lt).laneEn, Dev.bit_laneCtlSet]

theorem Dev.LaneFree.laneTest : (d.laneCtlSet l v).laneTest l = decide (1 ≤ Machine.fld v 5 2 ∧ Machine.fld v 5 2 ≤ 2) := by
  rw [Dev.laneTest_of_no_pattern, Dev.lpbk_laneCtlSet]
  · rw [Dev.pattern_laneCtlSet]; exact h.noGen
  · rw [Dev.pattern_laneCtlSet]; exact h.noChk

omit h in
theorem Dev.laneRetrained_of_not (hb : Machine.bit v 1 = false ∨ (d.laneCtlSet l v).laneEn l = false) :
    d.laneRetrained l v = d.laneCtlSet l v := by
  rcases hb with hb | hb <;> simp [Dev.laneRetrained, hb]

/-- ENABLE without RETRAIN or a test: an OFF or TEST lane enters ADAPT with the taps of its preset. -/
theorem Dev.LaneFree.write_enable (h0 : Machine.bit v 0 = true) (h1 : Machine.bit v 1 = false)
    (hlp : Machine.fld v 5 2 = 0 ∨ Machine.fld v 5 2 = 3) (hst : (d.lane l).st = .off ∨ (d.lane l).st = .test) :
    let x := (d.laneCtlWrite l v).lane l
    x.st = .adapt ∧ x.taps = d.clampTaps l (presetTaps (Machine.fld v 2 3)) := by
  have hen : (d.laneCtlSet l v).laneEn l = true := h.laneEn.trans h0
  have htest : (d.laneCtlSet l v).laneTest l = false := by rw [h.laneTest]; simp; omega
  have hfault : ((d.laneCtlSet l v).lane l).st ≠ .fault := by rcases hst with hst | hst <;> simp [hst]
  obtain ⟨x, hx, hxst, _, htaps⟩ := (d.laneCtlSet l v).moveLane_of_not_carries (l := l) .adapt h.idle
  rw [h.write_eq, Dev.laneRetrained_of_not (.inl h1), Dev.evalLane_of_enabled hen htest hfault,
    Dev.lane_laneCtlSet, if_pos hst, hx, Dev.lane_setLane_self]
  refine ⟨hxst, (htaps rfl).trans ?_⟩
  rw [Dev.preset_laneCtlSet, Dev.laneCtlSet, Dev.clampTaps_wr_of_lt _ _ (by have := rl_lt h.lt; omega)]

/-- ENABLE 0b: the lane is OFF. -/
theorem Dev.LaneFree.write_disable (h0 : Machine.bit v 0 = false) : ((d.laneCtlWrite l v).lane l).st = .off := by
  have hen : (d.laneCtlSet l v).laneEn l = false := h.laneEn.trans h0
  rw [h.write_eq, Dev.laneRetrained_of_not (.inr hen), Dev.evalLane_of_disabled hen]
  split
  · assumption
  · exact Dev.moveLane_st _ h.idle

/-- RETRAIN: a lane that is neither OFF nor under test enters ADAPT again, its timeouts forgotten. -/
theorem Dev.LaneFree.write_retrain (h0 : Machine.bit v 0 = true) (h1 : Machine.bit v 1 = true)
    (hlp : Machine.fld v 5 2 = 0 ∨ Machine.fld v 5 2 = 3) (hst : (d.lane l).st ≠ .off) :
    let x := (d.laneCtlWrite l v).lane l
    x.st = .adapt ∧ x.timeouts = 0 := by
  have hen : (d.laneCtlSet l v).laneEn l = true := h.laneEn.trans h0
  have htest : (d.laneCtlSet l v).laneTest l = false := by rw [h.laneTest]; simp; omega
  obtain ⟨x, hx, hxst, htime, _⟩ := ((d.laneCtlSet l v).forgetTimeouts l).moveLane_of_not_carries (l := l) .adapt
    (by simpa using h.idle)
  have hretr : d.laneRetrained l v = ((d.laneCtlSet l v).forgetTimeouts l).setLane l x := by simp [Dev.laneRetrained, h1, hen, hst, hx]
  have heval : (d.laneRetrained l v).evalLane l = d.laneRetrained l v := by
    rw [hretr, Dev.evalLane_of_enabled (d := ((d.laneCtlSet l v).forgetTimeouts l).setLane l x) hen htest (by simp [hxst])]
    simp [hxst]
  rw [h.write_eq, heval, hretr, Dev.lane_setLane_self]
  exact ⟨hxst, htime.trans (by simp)⟩

/-- Loopback takes a lane that is not in FAULT to TEST. -/
theorem Dev.LaneFree.write_loopback (h0 : Machine.bit v 0 = true) (h1 : Machine.bit v 1 = false)
    (hlp : Machine.fld v 5 2 = 1 ∨ Machine.fld v 5 2 = 2) (hst : (d.lane l).st ≠ .fault) :
    ((d.laneCtlWrite l v).lane l).st = .test := by
  have hen : (d.laneCtlSet l v).laneEn l = true := h.laneEn.trans h0
  have htest : (d.laneCtlSet l v).laneTest l = true := by rw [h.laneTest]; simp; omega
  rw [h.write_eq, Dev.laneRetrained_of_not (.inl h1), Dev.evalLane_of_test hen htest hst]
  split
  · assumption
  · exact Dev.moveLane_st _ h.idle

end
end Sys2Proof.Machine

namespace Sys2Proof.Claim
open Sys2Proof Sys2Proof.Machine

/-- A write of LANE_CTL of a free lane: what every such command changes, and what it leaves in the lane. -/
theorem takes_laneCtl {c : Instr} {s : State} {src : Src} {l : Nat} {v : Word} (hc : WriteCmd c src (rl 0 l) v)
    (hr : Reached s src (rl 0 l)) (h : s.dev.LaneFree l) {P : State → Prop}
    (hP : ∀ t, t.dev = s.dev.laneCtlWrite l v → LaneAnd s t l [rl 0 l] → t.dev.rd (rl 0 l) = v &&& 0x00FFFFFD → P t) : Takes c s P := by
  have hlt := rl_lt h.lt
  refine hc.takes hr (by omega) (by unfold rl; omega) (isRwl_of_blk_ne (by unfold blk; omega)) ?_
  rw [State.writeAt_laneCtl s src v h.lt]
  obtain ⟨hand, hrd⟩ := laneAnd_of_onlyLane (s := s) (v := v) (f := fun d => d.laneCtlWrite l v)
    (Dev.laneCtlWrite_onlyLane v h.lt h.idle h.rests).1
  exact hP _ rfl hand hrd

/-- Settles O14: the lane is free to move, so each command's bits alone choose its state. -/
theorem laneControlMovesLane : Obligations.LaneControlMovesLane := by
  unfold Obligations.LaneControlMovesLane
  intro s src l v hr hserv hact hport hidle hgen hchk Done lp st
  have hfree : s.dev.LaneFree l.toNat :=
    ⟨l.isLt, ⟨hserv, hact, fun p hp => (hport p hp).1⟩, fun p hp => (hport p hp).2, hidle, hgen, hchk⟩
  refine ⟨fun h0 h1 hlp hst => ?_, fun h0 => ?_, fun h0 h1 hlp hst => ?_, fun h0 h1 hlp hst => ?_⟩
  · refine takes_laneCtl ⟨fun _ => rfl, rfl, fun _ => rfl⟩ hr hfree fun t ht hand hrd => ?_
    obtain ⟨hadapt, htaps⟩ := hfree.write_enable h0 h1 hlp hst
    exact ⟨⟨hand, hrd, ht ▸ hadapt⟩, ht ▸ htaps⟩
  · refine takes_laneCtl ⟨fun _ => rfl, rfl, fun _ => rfl⟩ hr hfree fun t ht hand hrd => ?_
    exact ⟨hand, hrd, ht ▸ hfree.write_disable h0⟩
  · refine takes_laneCtl ⟨fun _ => rfl, rfl, fun _ => rfl⟩ hr hfree fun t ht hand hrd => ?_
    obtain ⟨hadapt, htime⟩ := hfree.write_retrain h0 h1 hlp hst.1
    exact ⟨⟨hand, hrd, ht ▸ hadapt⟩, ht ▸ htime⟩
  · refine takes_laneCtl ⟨fun _ => rfl, rfl, fun _ => rfl⟩ hr hfree fun t ht hand hrd => ?_
    exact ⟨hand, hrd, ht ▸ hfree.write_loopback h0 h1 hlp hst⟩

end Sys2Proof.Claim
end

section
/-! PROOFS. Packets the device originates, and a result copy received (R158, R161, R280, R282). -/

namespace Sys2Proof.Machine

/-! ## Packets in the device -/

theorem Dev.id_of_pkt {d : Dev} {id : Nat} {k : Pkt} (h : d.pkt id = some k) : k.id = id := by
  simpa using List.find?_some h

theorem Dev.pkt_congr {d e : Dev} (h : d.pkts = e.pkts) (id : Nat) : d.pkt id = e.pkt id := by simp [Dev.pkt, h]

/-- A change of one packet that keeps its number: the packet with a number is the changed one, or the same as before. -/
theorem Dev.pkt_onPkt (d : Dev) (n id : Nat) {f : Pkt → Pkt} (hf : ∀ k, (f k).id = k.id) :
    (d.onPkt n f).pkt id = (d.pkt id).map (fun k => if k.id = n then f k else k) := by
  have hid : (fun k : Pkt => k.id == id) ∘ (fun k => if k.id = n then f k else k) = fun k => k.id == id := by
    funext k
    by_cases hk : k.id = n <;> simp [hk, hf]
  rw [Dev.pkt, Dev.onPkt, List.find?_map, hid]
  rfl

theorem Dev.pkt_onPkt_ne (d : Dev) {n id : Nat} {f : Pkt → Pkt} (hf : ∀ k, (f k).id = k.id) (h : id ≠ n) :
    (d.onPkt n f).pkt id = d.pkt id := by
  rw [d.pkt_onPkt n id hf]
  cases hk : d.pkt id with
  | none => rfl
  | some k => simp [Dev.id_of_pkt hk, h]

theorem Dev.pkt_addPkt_ne (d : Dev) (k : Pkt) {id : Nat} (h : id ≠ d.nextId) : (d.addPkt k).pkt id = d.pkt id := by
  simp [Dev.pkt, Dev.addPkt, List.find?_append, h.symm]

theorem Dev.not_mem_rmPkt (d : Dev) (id : Nat) : ∀ x ∈ (d.rmPkt id).pkts, x.id ≠ id := by
  intro x hx
  simpa using (List.mem_filter.1 hx).2

theorem Dev.onPacket_of_pkt {d : Dev} {id : Nat} {k : Pkt} (ok : Pkt → Bool) (f : Dev → Pkt → Dev) (h : d.pkt id = some k) :
    d.onPacket id ok f = if ok k then f d k else d := by simp [Dev.onPacket, h]

/-! ## Counting, raising and originating (R158, R161) -/

/-- Of the device, only registers, the conditions of the frame and the Obvo side differ: what counting and raising may change. -/
def Dev.OnlyReports (d e : Dev) : Prop := ∃ r q w o, e = { d with regs := r, raised := q, words := w, obvo := o }

namespace Dev.OnlyReports

theorem refl (d : Dev) : d.OnlyReports d := ⟨_, _, _, _, rfl⟩

theorem trans {d e f : Dev} (h : d.OnlyReports e) (k : e.OnlyReports f) : d.OnlyReports f := by
  obtain ⟨_, _, _, _, rfl⟩ := h
  obtain ⟨r, q, w, o, rfl⟩ := k
  exact ⟨r, q, w, o, rfl⟩

theorem pkts {d e : Dev} (h : d.OnlyReports e) : e.pkts = d.pkts := by obtain ⟨_, _, _, _, rfl⟩ := h; rfl
theorem nextId {d e : Dev} (h : d.OnlyReports e) : e.nextId = d.nextId := by obtain ⟨_, _, _, _, rfl⟩ := h; rfl
theorem launches {d e : Dev} (h : d.OnlyReports e) : e.launches = d.launches := by obtain ⟨_, _, _, _, rfl⟩ := h; rfl

theorem raiseAt (d : Dev) (b c det i : Nat) : d.OnlyReports (d.raiseAt b c det i) := by
  obtain ⟨r, q, a, x, h⟩ := d.raiseAt_eq b c det i
  exact ⟨_, _, _, _, h⟩

theorem raiseOnce (d : Dev) (m : Word) (b c det : Nat) : d.OnlyReports (d.raiseOnce m b c det) := by
  unfold Dev.raiseOnce
  dsimp only
  split
  · exact refl d
  · exact raiseAt d b c det 0

theorem add64 (d : Dev) (a n : Nat) : d.OnlyReports (d.add64 a n) := ⟨_, _, _, _, rfl⟩

theorem countDrop (d : Dev) (p c k pkts cells : Nat) : d.OnlyReports (d.countDrop p c k pkts cells) := by
  unfold Dev.countDrop
  split
  · exact ⟨_, _, _, _, rfl⟩
  · exact refl d

theorem countPkt (d : Dev) (c : Nat) (ing : Option Nat) : d.OnlyReports (d.countPkt c ing) := by
  cases ing <;> exact ⟨_, _, _, _, rfl⟩

/-- A drop is counted and raised, and nothing else (R158, R191). -/
theorem settleDrop (d : Dev) (ing : Option Nat) (h : Header) (dr : Drop) : d.OnlyReports (d.settleDrop ing h dr) := by
  unfold Dev.settleDrop
  split
  · split
    · exact (countPkt d _ _).trans (raiseAt _ _ _ _ _)
    · exact (countPkt d _ _).trans (raiseOnce _ _ _ _ _)
  · exact (add64 d _ _).trans (raiseOnce _ _ _ _ _)
  · exact (countDrop d _ _ _ _ _).trans (raiseOnce _ _ _ _ _)
  · exact (countDrop d _ _ _ _ _).trans (raiseOnce _ _ _ _ _)
  · exact refl d
  · exact countDrop d _ _ _ _ _

theorem foldl_settleDrop (d : Dev) (ing : Option Nat) (h : Header) (f : Cause → Drop) (l : List Cause) :
    d.OnlyReports (l.foldl (fun x c => x.settleDrop ing h (f c)) d) := by
  induction l generalizing d with
  | nil => exact refl d
  | cons c l ih => exact (settleDrop d ing h (f c)).trans (ih _)

end Dev.OnlyReports

/-- Originating a packet adds it, or counts and raises why it does not; a copy of a multicast may be lost beside it. -/
theorem Dev.originate_cases (d : Dev) (pk : Packet) (dir cin : Option Nat) (col : Bool) :
    ∃ e, d.OnlyReports e ∧ (d.originate pk dir cin col = e ∨ ∃ k, d.originate pk dir cin col = e.addPkt k) := by
  unfold Dev.originate
  dsimp only
  split
  · exact ⟨_, .settleDrop d _ _ _, .inl rfl⟩
  · split_ifs
    · exact ⟨_, .settleDrop d _ _ _, .inl rfl⟩
    · exact ⟨_, .foldl_settleDrop d _ _ _ _, .inl rfl⟩
    · exact ⟨_, .foldl_settleDrop d _ _ _ _, .inr ⟨_, rfl⟩⟩

theorem Dev.originate_launches (d : Dev) (pk : Packet) (dir cin : Option Nat) (col : Bool) :
    (d.originate pk dir cin col).launches = d.launches := by
  obtain ⟨e, he, h | ⟨k, h⟩⟩ := d.originate_cases pk dir cin col
  · rw [h, he.launches]
  · rw [h]; exact he.launches

/-- Every packet the device held is still there, but for one that has the number of the next. -/
theorem Dev.originate_pkt_ne (d : Dev) (pk : Packet) (dir cin : Option Nat) (col : Bool) {id : Nat} (hid : id ≠ d.nextId) :
    (d.originate pk dir cin col).pkt id = d.pkt id := by
  obtain ⟨e, he, h | ⟨k, h⟩⟩ := d.originate_cases pk dir cin col
  · rw [h, Dev.pkt_congr he.pkts]
  · rw [h, e.pkt_addPkt_ne k (by rwa [he.nextId]), Dev.pkt_congr he.pkts]

/-! ## A result copy received (R280, R282) -/

theorem Dev.launch_congr {d e : Dev} (h : d.launches = e.launches) (g : Nat) : d.launch g = e.launch g := by simp [Dev.launch, h]

theorem Dev.launch_setLaunch_ne (d : Dev) {g m : Nat} (l : Launch) (h : m ≠ g) : (d.setLaunch g l).launch m = d.launch m := by
  simp [Dev.launch, Dev.setLaunch, h]

/-- Group and launch that a result names here. -/
def resGroup (k : Pkt) : Nat := catGroup k.pk % 0x1000
def Dev.resLaunch (d : Dev) (k : Pkt) : Launch := d.launch (resGroup k)

/-- The result is of a launch held here, and came in over a port. -/
def Dev.ResOurs (d : Dev) (k : Pkt) : Prop :=
  (d.resLaunch k).st ≠ .idle ∧ (d.resLaunch k).d.launch.toNat = catLaunch k.pk ∧ k.ing ≠ none

/-- The device is a recipient: the result is for it, or for the group it is in. -/
def Dev.ResHere (d : Dev) (k : Pkt) : Prop :=
  let e := d.dt k.pk.hdr.dstId.toNat
  (k.mcast = true ∧ e.ty = 3) ∨ (e.ty = 1 ∧ e.coord = d.own)

/-- The result is the tree's copy for a device that is no root, and has not been relayed. -/
def Dev.ResRelays (d : Dev) (k : Pkt) : Prop :=
  let l := d.resLaunch k
  l.st = .run ∧ (d.gt (resGroup k)).outDir ≠ 0 ∧ l.d.resId ≠ 0 ∧ k.pk.hdr.viaV = true ∧ k.pk.hdr.dstId.toNat ≠ l.d.resId ∧
    catChunk k.pk ∉ l.relayed

/-- A launch with one copy more, and its flags. -/
def Launch.counting (l : Launch) (k : Pkt) : Launch :=
  { l with copies := l.copies + 1, flags := l.flags ||| (leAt k.pk.payload 8 1 % 16) }

/-- The device with the copy counted, where it is a recipient. -/
def Dev.ResCounted (d : Dev) (k : Pkt) (e : Dev) : Prop :=
  (d.ResHere k ∧ e = d.setLaunch (resGroup k) ((d.resLaunch k).counting k)) ∨ (¬ d.ResHere k ∧ e = d)

/-- The launch notes the chunk as relayed. -/
def Launch.relaying (l : Launch) (k : Pkt) : Launch := { l with relayed := catChunk k.pk :: l.relayed }

/-- The packet is noted as seen. -/
def Pkt.seen (k : Pkt) : Pkt := { k with rank := 1 }

theorem Pkt.seen_id (k : Pkt) : k.seen.id = k.id := rfl

/-- The relayed copy: the chunk is noted, and the packet sent under the launch's own identifier is seen already (R282). -/
def Dev.resRelay (e : Dev) (k : Pkt) (pk : Packet) : Dev :=
  ((e.setLaunch (resGroup k) ((e.launch (resGroup k)).relaying k)).originate pk none none false).onPkt e.nextId Pkt.seen

section
variable {d e : Dev} {k : Pkt} (h : d.ResCounted k e)
include h

theorem Dev.ResCounted.nextId : e.nextId = d.nextId := by obtain ⟨_, rfl⟩ | ⟨_, rfl⟩ := h <;> rfl

theorem Dev.ResCounted.pkts : e.pkts = d.pkts := by obtain ⟨_, rfl⟩ | ⟨_, rfl⟩ := h <;> rfl

theorem Dev.ResCounted.launch_ne {m : Nat} (hm : m ≠ resGroup k) : e.launch m = d.launch m := by
  obtain ⟨_, rfl⟩ | ⟨_, rfl⟩ := h
  · exact d.launch_setLaunch_ne _ hm
  · rfl

theorem Dev.ResCounted.launch_of_here (hh : d.ResHere k) : e.launch (resGroup k) = (d.resLaunch k).counting k := by
  obtain ⟨_, rfl⟩ | ⟨hn, _⟩ := h
  · exact Dev.launch_setLaunch_self _ _ _
  · exact absurd hh hn

theorem Dev.ResCounted.relayed : (e.launch (resGroup k)).relayed = (d.resLaunch k).relayed := by
  obtain ⟨_, rfl⟩ | ⟨_, rfl⟩ := h
  · rw [Dev.launch_setLaunch_self]; rfl
  · rfl

/-- Counting leaves what decides whether to relay. -/
theorem Dev.ResCounted.relays_iff :
    (let l := e.launch (resGroup k)
     l.st = .run ∧ (d.gt (resGroup k)).outDir ≠ 0 ∧ l.d.resId ≠ 0 ∧ k.pk.hdr.viaV = true ∧ k.pk.hdr.dstId.toNat ≠ l.d.resId ∧
      catChunk k.pk ∉ l.relayed) ↔ d.ResRelays k := by
  obtain ⟨_, rfl⟩ | ⟨_, rfl⟩ := h
  · rw [Dev.launch_setLaunch_self]; rfl
  · rfl

end

theorem Dev.resultSeen_of_not_ours {d : Dev} {k : Pkt} (h : ¬ d.ResOurs k) : d.resultSeen k = d := by
  unfold Dev.resultSeen
  dsimp only
  rw [if_pos]
  simp only [Dev.ResOurs, not_and_or, not_not] at h
  rcases h with h | h | h
  · exact .inl h
  · exact .inr (.inl h)
  · exact .inr (.inr (by simp [h]))

/-- A copy of a launch held here is counted by a recipient and, beside that, relayed or not (R280, R282). -/
theorem Dev.resultSeen_of_ours {d : Dev} {k : Pkt} (h : d.ResOurs k) :
    ∃ e, d.ResCounted k e ∧ (¬ d.ResRelays k → d.resultSeen k = e) ∧ (d.ResRelays k → ∃ pk, d.resultSeen k = e.resRelay k pk) := by
  obtain ⟨hst, hla, hing⟩ := h
  have hours : ¬ ((d.launch (catGroup k.pk % 0x1000)).st = .idle ∨
      (d.launch (catGroup k.pk % 0x1000)).d.launch.toNat ≠ catLaunch k.pk ∨ k.ing.isNone = true) := by
    rintro (hs | hl | hi)
    · exact hst hs
    · exact hl hla
    · exact hing (Option.isNone_iff_eq_none.1 hi)
  unfold Dev.resultSeen
  dsimp only
  rw [if_neg hours]
  have hcounted : d.ResCounted k (if (k.mcast && (d.dt k.pk.hdr.dstId.toNat).ty == 3) ||
        ((d.dt k.pk.hdr.dstId.toNat).ty == 1 && (d.dt k.pk.hdr.dstId.toNat).coord == d.own)
      then d.setLaunch (resGroup k) ((d.resLaunch k).counting k) else d) := by
    split
    · next hb => exact .inl ⟨by simpa [Dev.ResHere] using hb, rfl⟩
    · next hb => exact .inr ⟨by simpa [Dev.ResHere] using hb, rfl⟩
  exact ⟨_, hcounted, fun hr => if_neg fun hc => hr (hcounted.relays_iff.1 hc), fun hr => ⟨_, if_pos (hcounted.relays_iff.2 hr)⟩⟩

section
variable (e : Dev) (k : Pkt) (pk : Packet)

theorem Dev.resRelay_launch_self :
    (e.resRelay k pk).launch (resGroup k) =
      (e.launch (resGroup k)).relaying k :=
  (Dev.launch_congr (Dev.originate_launches _ _ _ _ _) _).trans (Dev.launch_setLaunch_self _ _ _)

theorem Dev.resRelay_launch_ne {m : Nat} (h : m ≠ resGroup k) : (e.resRelay k pk).launch m = e.launch m :=
  (Dev.launch_congr (Dev.originate_launches _ _ _ _ _) _).trans (Dev.launch_setLaunch_ne _ _ h)

theorem Dev.resRelay_pkt_ne {id : Nat} (h : id ≠ e.nextId) : (e.resRelay k pk).pkt id = e.pkt id := by
  rw [Dev.resRelay, Dev.pkt_onPkt_ne _ Pkt.seen_id h, Dev.originate_pkt_ne (e.setLaunch _ _) pk none none false (id := id) h]
  rfl

end

theorem Dev.resultSeen_launch_ne (d : Dev) (k : Pkt) {m : Nat} (h : m ≠ resGroup k) : (d.resultSeen k).launch m = d.launch m := by
  by_cases ho : d.ResOurs k
  · obtain ⟨e, he, hnot, hrel⟩ := Dev.resultSeen_of_ours ho
    by_cases hr : d.ResRelays k
    · obtain ⟨pk, hpk⟩ := hrel hr
      rw [hpk, e.resRelay_launch_ne k pk h, he.launch_ne h]
    · rw [hnot hr, he.launch_ne h]
  · rw [Dev.resultSeen_of_not_ours ho]

/-- The copy itself stays as it was, whatever is relayed. -/
theorem Dev.resultSeen_pkt_ne (d : Dev) (k : Pkt) {id : Nat} (h : id ≠ d.nextId) : (d.resultSeen k).pkt id = d.pkt id := by
  by_cases ho : d.ResOurs k
  · obtain ⟨e, he, hnot, hrel⟩ := Dev.resultSeen_of_ours ho
    by_cases hr : d.ResRelays k
    · obtain ⟨pk, hpk⟩ := hrel hr
      rw [hpk, e.resRelay_pkt_ne k pk (by rwa [he.nextId]), Dev.pkt_congr he.pkts]
    · rw [hnot hr, Dev.pkt_congr he.pkts]
  · rw [Dev.resultSeen_of_not_ours ho]

/-! ## CAT_RESULT and the fence registers -/

theorem regRw_regW1c_catFence : ∀ w < 4, regRw (ra 7 (0x80 + 4 * w)) = fullMask ∧ regW1c (ra 7 (0x80 + 4 * w)) = 0 := by decide

/-- The copy is noted as seen, or leaves where its admission is over. -/
def Dev.resNoted (d : Dev) (k : Pkt) : Dev :=
  if k.st = .accepted then d.rmPkt k.id else d.onPkt k.id Pkt.seen

theorem execCatResult_of_new {s : State} {id : Nat} {k : Pkt} (hk : s.dev.pkt id = some k) (hop : k.pk.hdr.op = 0x22)
    (hc : k.conf = true) (hr : k.rank = 0) :
    execCatResult id s = .next (s.onDev (fun d => (d.resultSeen k).resNoted k)) := by
  simp only [execCatResult, devStep, State.onDev, Dev.onPacket_of_pkt _ _ hk]
  rw [if_pos (by simp [hop, hc, hr])]
  rfl

theorem execCatResult_of_seen {s : State} {id : Nat} {k : Pkt} (hk : s.dev.pkt id = some k) (hr : k.rank ≠ 0) :
    execCatResult id s = .next s := by
  simp only [execCatResult, devStep, State.onDev, Dev.onPacket_of_pkt _ _ hk]
  rw [if_neg (by simp [hr])]

theorem Dev.resNoted_launches (d : Dev) (k : Pkt) : (d.resNoted k).launches = d.launches := by
  unfold Dev.resNoted; split <;> rfl

end Sys2Proof.Machine

namespace Sys2Proof.Claim
open Sys2Proof Sys2Proof.Machine

/-- A copy seen for the first time: what it counts, relays and leaves (R280, R282). -/
theorem runs_catResult_of_new {s : State} {id : Nat} {k : Pkt} (hk : s.dev.pkt id = some k) (hop : k.pk.hdr.op = 0x22)
    (hc : k.conf = true) (hid : id < s.dev.nextId) (hr : k.rank = 0) :
    Runs (.catResult id) s fun t => Kept s t ∧ (∀ g, g ≠ resGroup k → t.dev.launch g = s.dev.launch g) ∧
      (k.st = .accepted → ∀ x ∈ t.dev.pkts, x.id ≠ id) ∧ (k.st ≠ .accepted → t.dev.pkt id = some { k with rank := 1 }) ∧
      t.dev.launches = (s.dev.resultSeen k).launches := by
  have hkid := Dev.id_of_pkt hk
  have hlaunches := (s.dev.resultSeen k).resNoted_launches k
  refine ⟨_, execCatResult_of_new hk hop hc hr, ⟨rfl, rfl, rfl⟩, fun g hg => ?_, fun hacc => ?_, fun hacc => ?_, hlaunches⟩
  · rw [State.onDev_dev, Dev.launch_congr hlaunches, Dev.resultSeen_launch_ne _ _ hg]
  · rw [State.onDev_dev, Dev.resNoted, if_pos hacc, hkid]
    exact Dev.not_mem_rmPkt _ id
  · rw [State.onDev_dev, Dev.resNoted, if_neg hacc, Dev.pkt_onPkt _ _ _ Pkt.seen_id, Dev.resultSeen_pkt_ne _ _ (by omega), hk,
      Option.map_some, if_pos rfl]
    rfl

/-- Settles O42: a result copy is counted and relayed by the launch it names alone, and the fences and selections are plain registers. -/
theorem resultsFencesAndSelection : Obligations.ResultsFencesAndSelection := by
  unfold Obligations.ResultsFencesAndSelection
  refine ⟨?_, fun s src w v hr => ?_, fun s src addr v hr haddr => ?_⟩
  · intro s id k d g l e here ours relay hk hop hc hid
    refine ⟨fun hrank => ?_, fun hrank => ⟨s, execCatResult_of_seen hk hrank, rfl⟩⟩
    obtain ⟨t, ht, hkept, hothers, hgone, hseen, hl⟩ := runs_catResult_of_new hk hop hc hid hrank
    have hlaunch := Dev.launch_congr hl g
    refine ⟨t, ht, hkept, hothers, hgone, hseen, fun ho => ?_, fun ho hr hh => ?_, fun ho hr hh => ?_, fun ho hr => ?_⟩
    · rw [hl, Dev.resultSeen_of_not_ours ho]
    · obtain ⟨x, hx, hnot, _⟩ := Dev.resultSeen_of_ours ho
      rw [hlaunch, hnot hr]
      exact hx.launch_of_here hh
    · obtain ⟨x, hx, hnot, _⟩ := Dev.resultSeen_of_ours ho
      rcases hx with ⟨hyes, _⟩ | ⟨_, hsame⟩
      · exact absurd hyes hh
      · rw [hl, hnot hr, hsame]
    · obtain ⟨x, hx, _, hrel⟩ := Dev.resultSeen_of_ours ho
      obtain ⟨pk, hpk⟩ := hrel hr
      rw [hlaunch, hpk, show g = resGroup k from rfl, x.resRelay_launch_self k pk]
      exact ⟨congrArg _ hx.relayed, fun hh => congrArg Launch.copies (hx.launch_of_here hh)⟩
  · have hw : w.toNat < 4 := w.isLt
    have hb : blk (ra 7 (0x80 + 4 * w.toNat)) = 7 := blk_ra 7 (by omega)
    have ho : off (ra 7 (0x80 + 4 * w.toNat)) = 0x80 + 4 * w.toNat := off_ra 7 (by omega)
    refine WriteCmd.takes ⟨fun _ => rfl, rfl, fun _ => rfl⟩ hr (by unfold ra; omega) (by unfold ra; omega)
      (isRwl_of_blk_ne (by omega)) ?_
    rw [State.writeAt_cat s src v hb (by omega)]
    obtain ⟨hrw, hw1c⟩ := regRw_regW1c_catFence w.toNat hw
    obtain ⟨honly, hbut, hrd⟩ := regsOnly_regsBut_plainWrite s (s.dev.plainWrite_eq_of_no_w1c v hw1c)
    refine ⟨honly, hbut, hrd.trans ?_⟩
    rw [hrw, or_and_fullMask]
  · have hcmd : WriteCmd (.scoreboardSelect src addr v) src addr.toNat v :=
      ⟨fun _ => rfl, by simp [writeOf, haddr], fun _ => rfl⟩
    have hfacts : addr.toNat < 0x12000000 ∧ addr.toNat % 4 = 0 ∧ blk addr.toNat = 7 ∧ off addr.toNat ≠ 0x58 ∧ regW1c addr.toNat = 0 := by
      rcases haddr with h | h <;> rw [h] <;> decide
    obtain ⟨hlt, h4, hb, ho, hw1c⟩ := hfacts
    refine hcmd.takes hr hlt h4 (isRwl_of_blk_ne (by omega)) ?_
    rw [State.writeAt_cat s src v hb ho]
    exact regsOnly_regsBut_plainWrite s (s.dev.plainWrite_eq_of_no_w1c v hw1c)

end Sys2Proof.Claim
end

section
/-! PROOFS. Resets, rails and parts: what each leaves of the device (R40, R198, R466-R470, R473-R476). -/

namespace Sys2Proof.Machine

/-! ## Straps and the beginning of INIT (R40, R198, R473) -/

theorem Dev.newNonce_nonce_ne_zero (d : Dev) : d.newNonce.col.nonce ≠ 0 := by
  have hhi := (Config.trng d.draws).isLt
  have hlo := (Config.trng (d.draws + 1)).isLt
  unfold Dev.newNonce
  dsimp only
  intro h
  have h64 := congrArg BitVec.toNat h
  rw [BitVec.toNat_ofNat] at h64
  split at h64
  · simp at h64
  · simp at h64; omega

/-- INIT can begin: the main rails are within tolerance and nothing holds the device (R473 step 4). -/
def Dev.inits (d : Dev) : Bool := d.rails && d.stby && ! d.resetLow && ! d.pwr.trip

theorem Dev.startInit_of_inits {d : Dev} (h : d.inits = true) :
    d.startInit = (d.allParts .init).onPwr (fun x => { x with powerAt := d.now }) := if_pos h

theorem Dev.startInit_of_not_inits {d : Dev} (h : d.inits = false) : d.startInit = d := if_neg (by rw [← Dev.inits, h]; exact Bool.false_ne_true)

/-- The device as the straps are sampled, INIT not yet begun. -/
def Dev.strapped (d : Dev) (st : Straps) : Dev :=
  { d with
    straps := strapWord st, coordV := ! st.coordSrc, coord := if st.coordSrc then 0 else st.coord
    pwr := { d.pwr with strap := st.pwrCeil }, col := { d.newNonce.col with st := .rom }, draws := d.draws + 2 }

theorem Dev.sampleStraps_eq (d : Dev) (st : Straps) : d.sampleStraps st = (d.strapped st).startInit := rfl

/-! ## The data path cleared (R468, R469) -/

/-- Lanes that sent fall silent: the outputs alone grow. -/
theorem Dev.foldl_emit_eq {α : Type} (l : List α) (f : α → Out) (d : Dev) :
    ∃ o, l.foldl (fun (x : Dev) e => x.emit (f e)) d = { d with out := o } := by
  induction l generalizing d with
  | nil => exact ⟨d.out, rfl⟩
  | cons a l ih => exact ih (d.emit (f a))

theorem Dev.dpClear_kept (d : Dev) :
    d.dpClear.frm = d.frm ∧ d.dpClear.pwr = d.pwr ∧ d.dpClear.rails = d.rails := by
  obtain ⟨o, h⟩ := Dev.foldl_emit_eq (d.lanes.filter (fun e => e.2.sending)) (fun e => .line e.1 0 none) d
  unfold Dev.dpClear
  dsimp only
  rw [h]
  exact ⟨rfl, rfl, rfl⟩

/-- Registers kept over a data-path reset read as before. -/
theorem Dev.rd_dpClear (d : Dev) {a : Nat} (h : dpKeeps a = true) : d.dpClear.rd a = d.rd a := by
  have hf := mapGet_filter (regRst a) d.regs dpKeeps a
  rwa [if_pos h] at hf

/-- The device as a data-path reset begins, before what a lost stack adds (R469). -/
def Dev.dpStart (d : Dev) (cause : Nat) (lost : Bool) : Dev :=
  { ((d.dpClear.allParts .init).wr (ra 0 0x44) (at32 24 8 cause ||| at32 0 16 (d.fno % 65536))).addSat (ra 0 0x48) 1 with
    dpBusy := true, dpAt := d.now, stackLost := lost }

/-- A stack was in FAULT: what was known of Basin is forgotten, and its loss raised (R358). -/
def Dev.basinLost (d : Dev) : Dev := (({ d with bad := [], weak := [], dueRows := [] } : Dev).wr (ra 9 8) 1).raiseAt 9 0xD 0 0

theorem State.dpBegin_of_fault {s : State} (cause : Nat) (h : PartSt.fault ∈ s.dev.hbms) :
    s.dpBegin cause = { s with dev := (s.dev.dpStart cause true).basinLost, mem := [] } := by
  have hl : s.dev.hbms.any (· == .fault) = true := by simpa using h
  unfold State.dpBegin
  dsimp only
  rw [hl]
  rfl

theorem State.dpBegin_of_no_fault {s : State} (cause : Nat) (h : PartSt.fault ∉ s.dev.hbms) :
    s.dpBegin cause = { s with dev := s.dev.dpStart cause false } := by
  have hl : s.dev.hbms.any (· == .fault) = false := by
    simpa using fun x hx (hxf : x = PartSt.fault) => h (hxf ▸ hx)
  unfold State.dpBegin
  dsimp only
  rw [hl]
  rfl

theorem Dev.rd_dpStart (d : Dev) (cause : Nat) (lost : Bool) {a : Nat} (h : dpKeeps a = true) (h4 : a ≠ ra 0 0x44) (h8 : a ≠ ra 0 0x48) :
    (d.dpStart cause lost).rd a = d.rd a :=
  (Dev.rd_wr_ne _ _ h8).trans ((Dev.rd_wr_ne _ _ h4).trans (d.rd_dpClear h))

theorem Dev.rd_dpStart_cause (d : Dev) (cause : Nat) (lost : Bool) :
    (d.dpStart cause lost).rd (ra 0 0x44) = at32 24 8 cause ||| at32 0 16 (d.fno % 65536) :=
  (Dev.rd_wr_ne _ _ (by decide)).trans (Dev.rd_wr_self _ _ _)

theorem Dev.rd_dpStart_count (d : Dev) (cause : Nat) (lost : Bool) :
    (d.dpStart cause lost).rd (ra 0 0x48) = sat32 ((d.rd (ra 0 0x48)).toNat + 1) := by
  refine (Dev.rd_wr_self _ _ _).trans ?_
  rw [Dev.rd_wr_ne _ _ (by decide)]
  exact congrArg (fun w : Word => sat32 (w.toNat + 1)) (d.rd_dpClear (by decide))

/-- Beside what was known of Basin, only registers and what the raised condition tells change. -/
theorem Dev.basinLost_eq (d : Dev) : ∃ r q w o, d.basinLost =
    { d with regs := r, raised := q, words := w, obvo := o, bad := [], weak := [], dueRows := [] } := by
  obtain ⟨r, q, _, _, h⟩ := (({ d with bad := [], weak := [], dueRows := [] } : Dev).wr (ra 9 8) 1).raiseAt_eq 9 0xD 0 0
  exact ⟨r, q, _, _, h⟩

/-- Kept registers read as before where Basin was lost too: its conditions are not among them. -/
theorem Dev.rd_basinLost (d : Dev) {a : Nat} (h : dpKeeps a = true) : d.basinLost.rd a = d.rd a := by
  have hne {b : Nat} (hb : dpKeeps b = false) : a ≠ b := fun hab => by rw [hab, hb] at h; cases h
  unfold Dev.basinLost
  rw [Dev.raiseAt_rd _ _ _ _ _ (hne (by decide)) (hne (by decide)), Dev.rd_wr_ne _ _ (hne (by decide))]
  rfl

/-! ## Parts (R41-R43, R469) -/

/-- The word of the condition a part's fault raises (R42, R43). -/
def faultWord : Part → Word
  | .die i => condWord 0 2 i.val
  | .stack i => condWord 0 3 i.val
  | .bridge i => condWord 0 5 (i.val * 256)

/-- The DETAIL that a part's fault raises its condition with: the condition's code and DETAIL. -/
theorem Dev.partFails_eq (d : Dev) (pt : Part) : ∃ c det, condWord 0 c det = faultWord pt ∧
    d.partFails pt = (d.setPart pt .fault).raiseAt 0 c det 0 := by
  cases pt <;> exact ⟨_, _, rfl, rfl⟩

theorem getD_set_self {α : Type} (l : List α) {i : Nat} {v x : α} (h : l.getD i x ≠ x) : (l.set i v).getD i x = v := by
  have hi : i < l.length := by
    refine Nat.lt_of_not_le fun hle => h ?_
    simp [List.getD_eq_getElem?_getD, List.getElem?_eq_none hle]
  simp [List.getD_eq_getElem?_getD, hi]

theorem getD_set_ne {α : Type} (l : List α) {i j : Nat} (v x : α) (h : i ≠ j) : (l.set i v).getD j x = l.getD j x := by
  simp [List.getD_eq_getElem?_getD, List.getElem?_set_ne h]

theorem Dev.partSt_setPart_self {d : Dev} {pt : Part} (v : PartSt) (h : d.partSt pt ≠ .off) : (d.setPart pt v).partSt pt = v := by
  cases pt <;> exact getD_set_self _ h

theorem Dev.partSt_setPart_ne (d : Dev) (v : PartSt) :
    ∀ {pt qt : Part}, qt ≠ pt → (d.setPart pt v).partSt qt = d.partSt qt
  | .die _, .die _, h => getD_set_ne _ _ _ fun hv => h (congrArg _ (Fin.ext hv.symm))
  | .stack _, .stack _, h => getD_set_ne _ _ _ fun hv => h (congrArg _ (Fin.ext hv.symm))
  | .bridge _, .bridge _, h => getD_set_ne _ _ _ fun hv => h (congrArg _ (Fin.ext hv.symm))
  | .die _, .stack _, _ | .die _, .bridge _, _ | .stack _, .die _, _ | .stack _, .bridge _, _
  | .bridge _, .die _, _ | .bridge _, .stack _, _ => rfl

theorem Dev.partSt_congr {d e : Dev} (hd : d.dies = e.dies) (hh : d.hbms = e.hbms) (hb : d.bridges = e.bridges) (pt : Part) :
    d.partSt pt = e.partSt pt := by
  cases pt <;> simp only [Dev.partSt, hd, hh, hb]

theorem Dev.partSt_partFails (d : Dev) (pt qt : Part) : (d.partFails pt).partSt qt = (d.setPart pt .fault).partSt qt := by
  obtain ⟨c, det, _, h⟩ := d.partFails_eq pt
  rw [h]
  exact Dev.partSt_congr (by simp) (by simp) (by simp) qt

theorem Dev.setPart_regs (d : Dev) (pt : Part) (v : PartSt) : (d.setPart pt v).regs = d.regs := by cases pt <;> rfl
theorem Dev.setPart_words (d : Dev) (pt : Part) (v : PartSt) : (d.setPart pt v).words = d.words := by cases pt <;> rfl

theorem Dev.partFails_words (d : Dev) (pt : Part) : (d.partFails pt).words = d.words ++ [faultWord pt] := by
  obtain ⟨c, det, hw, h⟩ := d.partFails_eq pt
  rw [h, Dev.raiseAt_words, d.setPart_words, hw]

theorem Dev.partFails_rd (d : Dev) (pt : Part) {a : Nat} (ha : a ∉ [condAddr 0 0, condAddr 0 0 + 4]) :
    (d.partFails pt).rd a = d.rd a := by
  simp only [List.mem_cons, List.not_mem_nil, or_false, not_or] at ha
  obtain ⟨c, det, _, h⟩ := d.partFails_eq pt
  rw [h, Dev.raiseAt_rd _ _ _ _ _ ha.1 ha.2]
  exact Dev.rd_congr (d.setPart_regs pt _) a

section
variable (l : List Part) (d : Dev)

theorem Dev.foldl_partFails_words :
    (l.foldl (fun (x : Dev) pt => x.partFails pt) d).words = d.words ++ l.map faultWord := by
  induction l generalizing d with
  | nil => simp
  | cons pt l ih => simp [ih, d.partFails_words]

theorem Dev.foldl_partFails_rd {a : Nat} (ha : a ∉ [condAddr 0 0, condAddr 0 0 + 4]) :
    (l.foldl (fun (x : Dev) pt => x.partFails pt) d).rd a = d.rd a := by
  induction l generalizing d with
  | nil => rfl
  | cons pt l ih => exact (ih _).trans (d.partFails_rd pt ha)

/-- Each of some parts fails; the others stay. -/
theorem Dev.foldl_partFails_partSt (h : ∀ pt ∈ l, d.partSt pt ≠ .off) (qt : Part) :
    (l.foldl (fun (x : Dev) pt => x.partFails pt) d).partSt qt = if qt ∈ l then .fault else d.partSt qt := by
  induction l generalizing d with
  | nil => rfl
  | cons pt l ih =>
    have hpt : (d.partFails pt).partSt pt = .fault := by
      rw [d.partSt_partFails, Dev.partSt_setPart_self _ (h pt (List.mem_cons_self ..))]
    have hother {x : Part} (hx : x ≠ pt) : (d.partFails pt).partSt x = d.partSt x := by
      rw [d.partSt_partFails, d.partSt_setPart_ne _ hx]
    have hl : ∀ x ∈ l, (d.partFails pt).partSt x ≠ .off := fun x hx => by
      by_cases hxp : x = pt
      · rw [hxp, hpt]; decide
      · rw [hother hxp]; exact h x (List.mem_cons_of_mem _ hx)
    rw [List.foldl_cons, ih _ hl]
    by_cases hq : qt = pt
    · simp [hq, hpt]
    · simp [hq, hother hq]

end

theorem State.onDev_onDev (s : State) (f g : Dev → Dev) : (s.onDev f).onDev g = s.onDev (fun d => g (f d)) := rfl

theorem mem_allPartsList (pt : Part) : pt ∈ allPartsList := by
  cases pt <;> simp [allPartsList]

end Sys2Proof.Machine

namespace Sys2Proof.Claim
open Sys2Proof Sys2Proof.Machine

/-- A command whose outcome is the state it leaves. -/
theorem runs_of_eq {c : Instr} {s t u : State} {P : State → Prop} (hex : exec c s = .next u) (hu : u = t) (hP : P t) : Runs c s P :=
  ⟨u, hex, hu ▸ hP⟩

/-! ## Resets of the standby domain (R40, R198, R466-R468, R473) -/

/-- What a reset of the standby domain leaves: the waiting commands, flash and fuses, and the TAP; of the rest nothing. -/
def Bared (s t : State) : Prop :=
  t.pending = s.pending ∧ t.mem = [] ∧ t.nv = s.nv ∧ t.dev.frm = {} ∧
  t.dev.lanes = [] ∧ t.dev.ports = [] ∧ t.dev.pkts = [] ∧ t.dev.queue = [] ∧ t.dev.launches = [] ∧ t.dev.rounds = [] ∧ t.dev.reqs = [] ∧
  t.dev.caps = [] ∧ t.dev.pats = [] ∧ t.dev.plat.active = false ∧ t.dev.obvo = {} ∧ t.dev.pwr.trip = false ∧ t.dev.dpBusy = false ∧
  t.dev.ir = s.dev.ir ∧ t.dev.tapHeld = s.dev.tapHeld

/-- The straps are sampled, the ROM runs, and the parts are in INIT where the main rails are up. -/
def Strapped (s : State) (st : Straps) (t : State) : Prop :=
  t.dev.stby = true ∧ t.dev.resetLow = false ∧ t.dev.rails = s.dev.rails ∧
  t.dev.straps = strapWord st ∧ t.dev.coordV = (! st.coordSrc) ∧ t.dev.pwr.strap = st.pwrCeil ∧ t.dev.col.st = .rom ∧ t.dev.col.nonce ≠ 0 ∧
  t.dev.dies = List.replicate 12 (if s.dev.rails then .init else .off) ∧
  t.dev.hbms = List.replicate 8 (if s.dev.rails then .init else .off) ∧
  t.dev.bridges = List.replicate 15 (if s.dev.rails then .init else .off)

theorem bared_wipe (s : State) (low : Bool) : Bared s (s.wipe low) :=
  ⟨rfl, rfl, rfl, rfl, rfl, rfl, rfl, rfl, rfl, rfl, rfl, rfl, rfl, rfl, rfl, rfl, rfl, rfl, rfl⟩

/-- A reset that ends with RESET_N high: its registers are at reset, whatever the rails. -/
theorem wipe_sampleStraps (s : State) (st : Straps) :
    let t := (s.wipe false).onDev (fun d => d.sampleStraps st)
    Bared s t ∧ Strapped s st t ∧ t.dev.regs = [] := by
  have hnonce := (s.wipe false).dev.newNonce_nonce_ne_zero
  have hinits : ((s.wipe false).dev.strapped st).inits = s.dev.rails := by simp [Dev.inits, Dev.strapped, State.wipe]
  dsimp only [State.onDev]
  rw [Dev.sampleStraps_eq]
  cases hr : s.dev.rails with
  | true =>
    rw [Dev.startInit_of_inits (hinits.trans hr)]
    refine ⟨bared_wipe s false, ⟨rfl, rfl, rfl, rfl, rfl, rfl, rfl, hnonce, ?_, ?_, ?_⟩, rfl⟩ <;> rw [hr] <;> rfl
  | false =>
    rw [Dev.startInit_of_not_inits (hinits.trans hr)]
    refine ⟨bared_wipe s false, ⟨rfl, rfl, rfl, rfl, rfl, rfl, rfl, hnonce, ?_, ?_, ?_⟩, rfl⟩ <;> rw [hr] <;> rfl

/-- RESET_N_RELEASE samples the straps and records the cause (R40, R466, R546). -/
theorem release_of_held {s : State} (st : Straps) (hs : s.dev.stby = true) (hl : s.dev.resetLow = true) :
    execResetNRelease st s = .next (((s.wipe false).onDev (fun d => d.sampleStraps st)).onDev
      (fun d => d.wr (ra 0 0x44) (at32 24 8 (if s.dev.coldHeld then 1 else 2)))) := by
  rw [execResetNRelease, if_pos ⟨hs, hl⟩, State.onDev_onDev]

/-- A register written leaves what a reset left of everything else. -/
theorem wr_after_reset {s t : State} {st : Straps} (hbare : Bared s t) (hst : Strapped s st t) (hregs : t.dev.regs = []) (a : Nat) (v : Word) :
    let u := t.onDev (fun d => d.wr a v)
    Bared s u ∧ Strapped s st u ∧ u.dev.rd a = v ∧ ∀ b, b ≠ a → u.dev.rd b = regRst b :=
  ⟨hbare, hst, Dev.rd_wr_self _ _ _, fun b hb =>
    (Dev.rd_wr_ne t.dev v hb).trans (congrArg (fun m => mapGet (regRst b) m b) hregs)⟩

/-! ## The data-path reset and the rails (R469, R470, R474, R475) -/

/-- The data path is cleared; the registers it keeps read as before, those named apart. -/
def Cleared (s t : State) (as : List Nat) : Prop :=
  t.pending = s.pending ∧ t.nv = s.nv ∧ t.dev.lanes = [] ∧ t.dev.ports = [] ∧
  t.dev.pkts = [] ∧ t.dev.queue = [] ∧ t.dev.launches = [] ∧ t.dev.rounds = [] ∧ t.dev.reqs = [] ∧ t.dev.plat.active = false ∧
  t.dev.frm = s.dev.frm ∧ ∀ a, dpKeeps a = true → a ∉ as → t.dev.rd a = s.dev.rd a

/-- A data-path reset of cause `c` has begun. -/
def Begun (s t : State) (c : Nat) : Prop :=
  Cleared s t [ra 0 0x44, ra 0 0x48] ∧ t.dev.dpBusy = true ∧ t.dev.dpAt = s.dev.now ∧
  t.dev.rd (ra 0 0x44) = at32 24 8 c ||| at32 0 16 (s.dev.fno % 65536) ∧
  t.dev.rd (ra 0 0x48) = sat32 ((s.dev.rd (ra 0 0x48)).toNat + 1) ∧
  t.dev.dies = List.replicate 12 .init ∧ t.dev.hbms = List.replicate 8 .init ∧ t.dev.bridges = List.replicate 15 .init ∧
  t.mem = (if PartSt.fault ∈ s.dev.hbms then [] else s.mem)

/-- A data-path reset has begun, whatever a lost stack changes beside it. -/
theorem begun_of_start {s : State} {cause : Nat} {lost : Bool} {e : Dev} {m : List Host.Cell}
    (he : ∃ r q w o b k y, e =
      { s.dev.dpStart cause lost with regs := r, raised := q, words := w, obvo := o, bad := b, weak := k, dueRows := y })
    (hrd : ∀ a, dpKeeps a = true → e.rd a = (s.dev.dpStart cause lost).rd a)
    (hm : m = if PartSt.fault ∈ s.dev.hbms then [] else s.mem) :
    Begun s { s with dev := e, mem := m } cause ∧ e.rails = s.dev.rails ∧ e.pwr = s.dev.pwr := by
  obtain ⟨hfrm, hpwr, hrails⟩ := s.dev.dpClear_kept
  have hcause := (hrd (ra 0 0x44) (by decide)).trans (s.dev.rd_dpStart_cause cause lost)
  have hcount := (hrd (ra 0 0x48) (by decide)).trans (s.dev.rd_dpStart_count cause lost)
  have hkept : ∀ a, dpKeeps a = true → a ∉ [ra 0 0x44, ra 0 0x48] → e.rd a = s.dev.rd a := fun a ha hn => by
    simp only [List.mem_cons, List.not_mem_nil, or_false, not_or] at hn
    exact (hrd a ha).trans (s.dev.rd_dpStart cause lost ha hn.1 hn.2)
  obtain ⟨_, _, _, _, _, _, _, rfl⟩ := he
  exact ⟨⟨⟨rfl, rfl, rfl, rfl, rfl, rfl, rfl, rfl, rfl, rfl, hfrm, hkept⟩, rfl, rfl, hcause, hcount, rfl, rfl, rfl, hm⟩, hrails, hpwr⟩

theorem begun_dpBegin (s : State) (cause : Nat) :
    Begun s (s.dpBegin cause) cause ∧ (s.dpBegin cause).dev.rails = s.dev.rails ∧ (s.dpBegin cause).dev.pwr = s.dev.pwr := by
  by_cases hf : PartSt.fault ∈ s.dev.hbms
  · obtain ⟨r, q, w, o, h⟩ := (s.dev.dpStart cause true).basinLost_eq
    rw [State.dpBegin_of_fault cause hf]
    exact begun_of_start ⟨r, q, w, o, _, _, _, h⟩ (fun a ha => (s.dev.dpStart cause true).rd_basinLost ha) (if_pos hf).symm
  · rw [State.dpBegin_of_no_fault cause hf]
    exact begun_of_start ⟨_, _, _, _, _, _, _, rfl⟩ (fun _ _ => rfl) (if_neg hf).symm

theorem runs_railLoss (s : State) : Runs .railLoss s fun t =>
    Cleared s t [] ∧ t.mem = s.mem ∧ t.dev.rails = false ∧ t.dev.dpBusy = false ∧ t.dev.dies = List.replicate 12 .off ∧
      t.dev.hbms = List.replicate 8 .off ∧ t.dev.bridges = List.replicate 15 .off ∧ t.dev.level1 = s.dev.level1 ++ [.railLoss] ∧
      t.dev.pwr = s.dev.pwr := by
  obtain ⟨hfrm, hpwr, _⟩ := s.dev.dpClear_kept
  exact ⟨_, rfl, ⟨rfl, rfl, rfl, rfl, rfl, rfl, rfl, rfl, rfl, rfl, hfrm, fun a ha _ => s.dev.rd_dpClear ha⟩,
    rfl, rfl, rfl, rfl, rfl, rfl, rfl, hpwr⟩

/-- The rails return (R474, R475): with the device running a data-path reset begins, a trip apart. -/
theorem railReturn_of_return {s : State} (hr : s.dev.rails = false) (hs : s.dev.stby = true) (hl : s.dev.resetLow = false) :
    let t := s.onDev (fun d => { d with rails := true, pwr := { d.pwr with powerAt := d.now } })
    execRailReturn s = .next (if s.dev.pwr.trip then t else t.dpBegin 7) := by
  unfold execRailReturn
  rw [hl, if_neg Bool.false_ne_true, if_pos ⟨by simp [hr], hs⟩]
  rfl

/-! ## The time of parts passes (R41, R469, R473) -/

theorem execPartInitTimeout_eq (s : State) (lim : Nat) (h : lim = if s.dev.dpBusy && ! s.dev.stackLost then 320000 else 4000000) :
    execPartInitTimeout s = .next (s.onDev fun d => if lim ≤ d.age (if d.dpBusy then d.dpAt else d.pwr.powerAt) then
      (allPartsList.filter (fun pt => d.partSt pt == .init)).foldl (fun (x : Dev) pt => x.partFails pt) d else d) := by
  subst h
  simp only [execPartInitTimeout, devStep, State.onDev, Bool.and_eq_true]

/-- Every part still in INIT fails, and no other changes. -/
theorem initParts_fail (d : Dev) :
    let e := (allPartsList.filter (fun pt => d.partSt pt == .init)).foldl (fun (x : Dev) pt => x.partFails pt) d
    (∀ a, a ∉ condRegs 0 0 → e.rd a = d.rd a) ∧ (∀ pt, e.partSt pt = if d.partSt pt = .init then .fault else d.partSt pt) ∧
      ∀ pt, d.partSt pt = .init → faultWord pt ∈ e.words := by
  have hmem (pt : Part) : pt ∈ allPartsList.filter (fun pt => d.partSt pt == .init) ↔ d.partSt pt = .init := by
    simp [mem_allPartsList]
  refine ⟨fun a ha => Dev.foldl_partFails_rd _ d ha, fun pt => ?_, fun pt hpt => ?_⟩
  · rw [Dev.foldl_partFails_partSt _ d (fun x hx => by rw [(hmem x).1 hx]; decide)]
    simp only [hmem]
  · rw [Dev.foldl_partFails_words]
    exact List.mem_append_right _ (List.mem_map_of_mem ((hmem pt).2 hpt))

/-- A write of GLB_RST_CTL that is served reaches the reset (R470). -/
theorem takes_dpReset {s : State} {src : Src} {v : Word} (hr : Reached s src (ra 0 0x40)) {P : State → Prop}
    (hP : P (s.rstCtl src v)) : Takes (.dpReset src v) s P :=
  WriteCmd.takes ⟨fun _ => rfl, rfl, fun _ => rfl⟩ hr (by decide) (by decide) (isRwl_of_blk_ne (by decide)) hP

/-- Settles O57: each reset and each change of the rails leaves the state its rule names. -/
theorem resetsLeaveTheirState : Obligations.ResetsLeaveTheirState := by
  unfold Obligations.ResetsLeaveTheirState
  intro s
  dsimp only
  refine ⟨fun hl st => ?_, fun hl st => ?_, fun hs => ?_, fun hs => ?_, fun st hs hl => ?_, fun st h => ?_, ?_, fun hr => ?_, fun hr hs hl ht => ?_,
    fun hr h => ?_, runs_railLoss s, fun hr hs hl => ⟨fun ht => ?_, fun ht => ?_⟩, fun hl => ?_, fun hl h => ?_,
    fun src v hr => ⟨fun hb hc hrl hd ht => ?_, fun h => ?_⟩, fun h => ?_, fun h => ?_⟩
  · exact runs_of_eq rfl (if_neg (by simp [hl])) (wipe_sampleStraps s st)
  · exact runs_of_eq rfl (if_pos hl) ⟨bared_wipe s true, rfl, rfl, rfl, rfl, rfl⟩
  · exact runs_of_eq rfl (if_pos hs) ⟨bared_wipe s true, rfl, rfl, rfl, rfl, rfl, rfl⟩
  · exact runs_of_eq rfl (if_neg (by simp [hs])) ⟨⟨rfl, rfl, rfl⟩, rfl⟩
  · obtain ⟨hbare, hst, hregs⟩ := wipe_sampleStraps s st
    exact ⟨_, release_of_held st hs hl, wr_after_reset hbare hst hregs _ _⟩
  · refine runs_of_eq rfl (if_neg ?_) ⟨⟨rfl, rfl, rfl⟩, rfl⟩
    rintro ⟨hs, hl⟩
    rcases h with h | h
    · simp [h] at hs
    · simp [h] at hl
  · exact ⟨_, rfl, bared_wipe s false, rfl, rfl, rfl, rfl, rfl⟩
  · exact runs_of_eq rfl (by rw [State.onDev, if_pos hr]) rfl
  · refine runs_of_eq rfl (by rw [State.onDev, if_neg (by simp [hr]), Dev.startInit_of_inits (by simp [Dev.inits, hs, hl, ht])]) ?_
    exact ⟨⟨rfl, rfl, rfl⟩, rfl⟩
  · have hni : Dev.inits { s.dev with rails := true } = false := by rcases h with h | h | h <;> simp [Dev.inits, h]
    refine runs_of_eq rfl (by rw [State.onDev, if_neg (by simp [hr]), Dev.startInit_of_not_inits hni]) ?_
    exact ⟨⟨rfl, rfl, rfl⟩, rfl⟩
  · obtain ⟨hbegun, hrails, hpwr⟩ := begun_dpBegin
      (s.onDev (fun d => { d with rails := true, pwr := { d.pwr with powerAt := d.now } })) 7
    exact runs_of_eq (railReturn_of_return hr hs hl) (by rw [if_neg (by simp [ht])]) ⟨hbegun, hrails, hpwr⟩
  · exact runs_of_eq (railReturn_of_return hr hs hl) (if_pos ht) ⟨⟨rfl, rfl, rfl⟩, rfl⟩
  · exact runs_of_eq rfl (if_pos hl) ⟨⟨rfl, rfl, rfl⟩, rfl⟩
  · exact runs_of_eq rfl (by rw [if_neg (by simp [hl]), if_neg (by rcases h with h | h <;> simp [h])]) rfl
  · obtain ⟨hbegun, hd', hpwr⟩ := begun_dpBegin s 3
    refine takes_dpReset hr ?_
    rw [State.rstCtl, if_pos (by simp [Dev.rstTakes, hb, hc, hrl, hd, ht])]
    exact ⟨hbegun, hd'.trans hrl, hpwr⟩
  · refine takes_dpReset hr ?_
    rw [State.rstCtl, if_neg (by rcases h with h | h | h | h | h <;> simp [Dev.rstTakes, h])]
    exact ⟨⟨rfl, rfl, rfl⟩, rfl⟩
  · exact runs_of_eq (execPartInitTimeout_eq s _ rfl) rfl ⟨⟨rfl, rfl, rfl⟩, if_neg (Nat.not_le.2 h)⟩
  · obtain ⟨hrd, hst, hword⟩ := initParts_fail s.dev
    refine runs_of_eq (execPartInitTimeout_eq s _ rfl) (by rw [State.onDev, if_pos h]) ?_
    exact ⟨⟨rfl, rfl, rfl⟩, hrd, hst, fun i => hword (.die i), fun i => hword (.stack i), fun i => hword (.bridge i)⟩

end Sys2Proof.Claim
end

section
/-! PROOFS. Bridges and parts that fail: what is lost with them (R25, R27, R28, R42, R43). -/

namespace Sys2Proof.Machine

/-! ## What losing a packet leaves of the queue (R28, R177, R178) -/

/-- A step repeated over a list keeps what each of its steps keeps. -/
theorem foldl_keeps {α β γ : Type} (π : β → γ) (f : β → α → β) (l : List α) (b : β) (h : ∀ b a, π (f b a) = π b) :
    π (l.foldl f b) = π b := by
  induction l generalizing b with
  | nil => rfl
  | cons a l ih => exact (ih _).trans (h b a)

theorem Dev.OnlyReports.queue {d e : Dev} (h : d.OnlyReports e) : e.queue = d.queue := by obtain ⟨_, _, _, _, rfl⟩ := h; rfl

@[simp] theorem Dev.ptrFault_queue (d : Dev) (k j : Nat) (b : Option Nat) : (d.ptrFault k j b).queue = d.queue := by
  unfold Dev.ptrFault
  dsimp only
  split
  · split <;> simp [Dev.addSat, Dev.wr]
  · simp [Dev.addSat, Dev.wr]

@[simp] theorem Dev.takeBack_queue (d : Dev) (k j pid i : Nat) : (d.takeBack k j pid i).queue = d.queue := by
  unfold Dev.takeBack
  dsimp only
  split
  · rfl
  · split
    · rfl
    · split_ifs <;> simp

@[simp] theorem Dev.giveUp_queue (d : Dev) (k j pid m n : Nat) : (d.giveUp k j pid m n).queue = d.queue :=
  foldl_keeps Dev.queue _ _ _ fun b i => b.takeBack_queue k j pid i

@[simp] theorem Dev.freeEnt_queue (d : Dev) (q : QEnt) : (d.freeEnt q).queue = d.queue := d.giveUp_queue ..

@[simp] theorem Dev.noteLoss_queue (d : Dev) (pk : Packet) (dr : Drop) : (d.noteLoss pk dr).queue = d.queue := by
  unfold Dev.noteLoss
  split
  · split <;> rfl
  · rfl

@[simp] theorem Dev.dropEnt_queue (d : Dev) (q : QEnt) (c : Cause) : (d.dropEnt q c).queue = d.queue := by
  unfold Dev.dropEnt
  dsimp only
  split
  · rw [Dev.noteLoss_queue, (Dev.OnlyReports.settleDrop ..).queue]
  · rfl

@[simp] theorem Dev.endReq_queue (d : Dev) (slot port : Nat) : (d.endReq slot port).queue = d.queue := by
  unfold Dev.endReq
  split
  · simp [Dev.addSat, Dev.wr]
  · rfl

/-! ## Held packets counted anew (R178, R187) -/

/-- Beside the buffers, what flow control tells of them is all that changes. -/
def Dev.OnlyHolds (d e : Dev) : Prop := ∃ b n p o, e = { d with bufs := b, draws := n, ports := p, out := o }

namespace Dev.OnlyHolds

theorem refl (d : Dev) : d.OnlyHolds d := ⟨_, _, _, _, rfl⟩

theorem trans {d e f : Dev} (h : d.OnlyHolds e) (k : e.OnlyHolds f) : d.OnlyHolds f := by
  obtain ⟨_, _, _, _, rfl⟩ := h
  obtain ⟨b, n, p, o, rfl⟩ := k
  exact ⟨b, n, p, o, rfl⟩

theorem foldl {α : Type} (f : Dev → α → Dev) (l : List α) (d : Dev) (h : ∀ d a, Dev.OnlyHolds d (f d a)) : d.OnlyHolds (l.foldl f d) := by
  induction l generalizing d with
  | nil => exact refl d
  | cons a l ih => exact (h d a).trans (ih _)

theorem handOut (d : Dev) (k j pid n : Nat) : d.OnlyHolds (d.handOut k j pid n) := by
  unfold Dev.handOut
  split <;> exact ⟨_, _, _, _, rfl⟩

theorem refreshXoff (d : Dev) (p : Nat) : d.OnlyHolds (d.refreshXoff p) := by
  unfold Dev.refreshXoff
  extract_lets old bits
  split
  · exact refl d
  · exact ⟨_, _, _, _, rfl⟩

theorem holdsMoved (d : Dev) : d.OnlyHolds d.holdsMoved := by
  have hcut : d.OnlyHolds { d with bufs := d.bufs.filter (fun b => b.pool != 2 || d.pkts.any (fun k => k.id == b.pid && heldHere k)) } :=
    ⟨_, _, _, _, rfl⟩
  exact (hcut.trans (foldl _ _ _ fun x k => handOut ..)).trans (foldl _ _ _ fun x p => refreshXoff x p)

end Dev.OnlyHolds

@[simp] theorem Dev.holdsMoved_queue (d : Dev) : d.holdsMoved.queue = d.queue := by
  obtain ⟨_, _, _, _, h⟩ := Dev.OnlyHolds.holdsMoved d; rw [h]
@[simp] theorem Dev.holdsMoved_words (d : Dev) : d.holdsMoved.words = d.words := by
  obtain ⟨_, _, _, _, h⟩ := Dev.OnlyHolds.holdsMoved d; rw [h]
@[simp] theorem Dev.holdsMoved_pkts (d : Dev) : d.holdsMoved.pkts = d.pkts := by
  obtain ⟨_, _, _, _, h⟩ := Dev.OnlyHolds.holdsMoved d; rw [h]

/-! ## A copy lost (R28, R69) -/

/-- Lost before its train began, a copy is gone; begun, it is completed void. -/
theorem Dev.loseEnt_queue {d : Dev} {q : QEnt} (hs : q.stomped = false) (hn : d.sentOf q < q.n) :
    ∀ e ∈ (d.loseEnt q).queue, e.key = q.key → q.begun = true ∧ e.stomped = true := by
  have hq : (match q.use with | .cpl s => (d.dropEnt q .deviceFault).endReq s q.out | _ => d.dropEnt q .deviceFault).queue = d.queue := by
    split <;> simp
  unfold Dev.loseEnt
  rw [if_neg (by simp [hs, hn])]
  dsimp only
  intro e he hk
  split at he
  next hb =>
    refine ⟨hb, ?_⟩
    simp only [Dev.voidEnt, Dev.onPort, Dev.setPort, List.mem_map] at he
    obtain ⟨x, _, rfl⟩ := he
    by_cases hx : x.key = q.key
    · rw [if_pos hx]
    · rw [if_neg hx] at hk; exact absurd hk hx
  next => simp [hk] at he

theorem Dev.partFails_dpDue (d : Dev) (pt : Part) : (d.partFails pt).dpDue = d.dpDue := by
  cases pt <;> simp [Dev.partFails, Dev.setPart]

/-! ## Which item a bridge loses (R25-R28) -/

theorem Dev.owner_le (d : Dev) (p : Nat) : d.owner p ≤ 3 := by
  have hl : d.lane0 p < 2 ^ 9 := fld_lt _ _ _
  unfold Dev.owner ownerOfLane
  omega

/-- A word that a lane bridge takes to its own die is lost on its way out (R25, R27). -/
theorem Dev.loseCell_of_viaOut {d : Dev} {b die id out : Nat} {q : QEnt} (hq : d.queue.find? (fun e => e.pid == id && e.out == out) = some q)
    (hv : d.viaOut b die out = true) : d.loseCell b die id out = some (d.loseEnt q) := by
  obtain ⟨_, hdie⟩ : b = d.laneBridge out ∧ die = 4 + b := by simpa [Dev.viaOut] using hv
  have hcore (p : Nat) : (die == d.owner p) = false := by
    have := d.owner_le p
    simp; omega
  unfold Dev.loseCell
  extract_lets ing c pools crossed core inLane
  clear_value ing
  have hlane : inLane = false := by
    simp only [inLane, Dev.viaIn, hcore, Bool.and_false]
    cases ing <;> rfl
  have hcrossed (a : Nat) : crossed a = false := by simp only [crossed, c, hcore, Bool.and_false]
  have hc : core = false := by
    cases ing with
    | some p => exact hcrossed _
    | none => exact List.any_eq_false.2 fun a _ => by simp [hcrossed]
  rw [if_neg (by simp [hlane]), if_neg (by simp [hc]), if_pos hv, hq]
  rfl

/-- A word that a lane bridge takes in from a packet's own port: the packet leaves its hold (R28). -/
theorem Dev.loseCell_of_viaIn {d : Dev} {b die id out p : Nat} {k : Pkt} (hk : d.pkt id = some k) (hp : k.ing = some p) (hh : inHold k = true)
    (hv : d.viaIn b die p = true) :
    let d1 := (d.queue.filter (fun q => q.pid == id)).foldl (fun (x : Dev) q => x.loseEnt q) d
    d.loseCell b die id out = some (d1.dropPkt k { cause := .deviceFault, atOut := true, port := out }) := by
  unfold Dev.loseCell
  simp [hk, hp, hh, hv]

/-- A confirmed packet dropped is gone. -/
theorem Dev.dropPkt_of_conf {d : Dev} {k : Pkt} (h : k.conf = true) (dr : Drop) : ∀ x ∈ (d.dropPkt k dr).pkts, x.id ≠ k.id := by
  unfold Dev.dropPkt
  rw [if_pos h]
  exact Dev.not_mem_rmPkt _ _

/-- What a bridge lost of a copy of a cell, or nothing. -/
theorem execBridgeUncorr_cell {b : Fin 15} {die : Fin 12} {id : Nat} {out : BitVec 7} {s : State} {e : Dev}
    (h : s.dev.loseCell b.val die.val id out.toNat = some e) :
    execBridgeUncorr b die (.cell id out) s = .next (s.onDev fun _ => (e.raiseAt 0 1 (b.val * 256 + die.val) 0).holdsMoved) := by
  simp [execBridgeUncorr, devStep, State.onDev, h]

/-- The packet that the bridge takes data from: the condition carries the data away from what has not begun. -/
theorem execBridgeUncorr_data {b : Fin 15} {die : Fin 12} {id : Nat} {pk : Packet} {s : State}
    (h : s.dev.findPk id = some pk) (hop : pk.hdr.op = 0x15 ∨ pk.hdr.op = 0x01)
    (hx : s.dev.basCrosses b.val die.val ((s.dev.pkt id).bind (·.ing)) ((s.dev.queue.filter (fun q => q.pid == id)).map (·.out)) pk = true) :
    let w := condWord 0 1 (b.val * 256 + die.val)
    ∃ e : Dev, e.queue = s.dev.queue.map (fun q => if q.pid = id ∧ ! q.begun then { q with pk := noData w q.pk, n := 1 } else q) ∧
      execBridgeUncorr b die (.basin id) s = .next (s.onDev fun _ => (e.raiseAt 0 1 (b.val * 256 + die.val) 0).holdsMoved) := by
  refine ⟨_, ?_, by
    simp only [execBridgeUncorr, devStep, State.onDev, h, hx, hop, Dev.raise_eq, if_true, Bool.not_true, Bool.false_eq_true, if_false]
    rfl⟩
  dsimp only [Dev.onPkt]
  rw [foldl_keeps Dev.queue _ _ _ fun x q => x.giveUp_queue _ _ _ _ _]

end Sys2Proof.Machine

namespace Sys2Proof.Claim
open Sys2Proof Sys2Proof.Machine

/-- A part that fails is in FAULT under its condition, and no other part changes (R42, R43). -/
theorem partFails_leaves (s : State) (pt : Part) :
    faultWord pt ∈ (s.dev.partFails pt).words ∧ (∀ a, a ∉ condRegs 0 0 → (s.dev.partFails pt).rd a = s.dev.rd a) ∧
      ((s.dev.partFails pt).dies = match pt with | .die i => s.dev.dies.set i.val .fault | _ => s.dev.dies) ∧
      ((s.dev.partFails pt).hbms = match pt with | .stack i => s.dev.hbms.set i.val .fault | _ => s.dev.hbms) ∧
      ((s.dev.partFails pt).bridges = match pt with | .bridge i => s.dev.bridges.set i.val .fault | _ => s.dev.bridges) := by
  refine ⟨by simp [s.dev.partFails_words], fun a => s.dev.partFails_rd pt, ?_⟩
  cases pt <;> simp [Dev.partFails, Dev.setPart]

/-- Settles O34: what a bridge or a part that fails takes with it, clause by clause. -/
theorem faultsOfBridgesAndParts : Obligations.FaultsOfBridgesAndParts := by
  unfold Obligations.FaultsOfBridgesAndParts
  refine ⟨fun s b die id out q hq hs hv hn _ => ?_, fun s b die id out k p hk hp hc hh hv => ?_, fun s b die id out h => ?_,
    fun s b die id pk h hop hx => ?_, fun s pt => ?_⟩
  · exact ⟨_, execBridgeUncorr_cell (Dev.loseCell_of_viaOut hq hv), ⟨rfl, rfl, rfl⟩, by simp [State.onDev],
      by simpa [State.onDev] using Dev.loseEnt_queue hs hn⟩
  · exact ⟨_, execBridgeUncorr_cell (Dev.loseCell_of_viaIn hk hp hh hv), ⟨rfl, rfl, rfl⟩, by simp [State.onDev],
      by simpa [State.onDev, Dev.id_of_pkt hk] using Dev.dropPkt_of_conf hc _⟩
  · exact runs_of_eq rfl (by simp [State.onDev, h]) rfl
  · obtain ⟨e, he, hex⟩ := execBridgeUncorr_data h hop hx
    refine ⟨_, hex, ⟨rfl, rfl, rfl⟩, by simp [State.onDev], by simp [State.onDev, he], ?_⟩
    simp only [State.onDev, Dev.holdsMoved_queue, Dev.raiseAt_queue, he, List.mem_map]
    rintro _ ⟨q, _, rfl⟩ hid hb
    split at hid <;> simp_all [noData]
  · obtain ⟨hw, hrd, hparts⟩ := partFails_leaves s pt
    refine ⟨fun h => ?_, fun h => ?_⟩
    · refine runs_of_eq (t := s.onDev fun d => { d.partFails pt with dpDue := d.inService }) rfl ?_ ?_
      · rw [State.onDev, Dev.partFault, if_pos h]
        rfl
      exact ⟨⟨⟨rfl, rfl, rfl⟩, hw, hrd, hparts⟩, rfl⟩
    · refine runs_of_eq (t := s.onDev fun d => d.partFails pt) rfl (by rw [State.onDev, if_pos h]; rfl) ?_
      exact ⟨⟨⟨rfl, rfl, rfl⟩, hw, hrd, hparts⟩, s.dev.partFails_dpDue pt⟩

end Sys2Proof.Claim
end

section
/-! PROOFS. Ports under control: a quarantine cleared, a port disabled or enabled, and what becomes of its lanes (R21, R98, R113, R123). -/

namespace Sys2Proof.Machine

/-! ## Writes of a port's link registers (R12, R113, R123) -/

theorem State.writeAt_link (s : State) (src : Src) {o p : Nat} (v : Word) (ho : o < 0x4000) (hp : p < 128) :
    s.writeAt src (rp 3 o p) v = s.onDev (fun d => d.writeLink (o + p * 0x4000) v) := by
  have hb : blk (rp 3 o p) = 3 := by unfold blk rp; omega
  have hoff : off (rp 3 o p) = o + p * 0x4000 := by unfold off rp; omega
  simp [State.writeAt, hb, hoff, show o + p * 0x4000 < 0x200000 by omega]

theorem State.writeAt_linkCtl (s : State) (src : Src) {p : Nat} (v : Word) (hp : p < 128) :
    s.writeAt src (rp 3 0 p) v = s.onDev (fun d => d.linkCtlWrite p v) := by
  rw [State.writeAt_link s src v (by omega) hp]
  have hat : atPort (0 + p * 0x4000) 0 = true := by simp [atPort, pOff]; omega
  simp only [Dev.writeLink, hat, if_true, show pOf (0 + p * 0x4000) = p by unfold pOf; omega]

theorem State.writeAt_qclr (s : State) (src : Src) {p : Nat} (v : Word) (hp : p < 128) :
    s.writeAt src (rp 3 0x14 p) v = s.onDev (fun d => d.qclr p v) := by
  rw [State.writeAt_link s src v (by omega) hp]
  have h0 : atPort (0x14 + p * 0x4000) 0 = false := by simp [atPort, pOff]
  have hat : atPort (0x14 + p * 0x4000) 0x14 = true := by simp [atPort, pOff]; omega
  simp only [Dev.writeLink, h0, hat, if_true, Bool.false_eq_true, if_false, show pOf (0x14 + p * 0x4000) = p by unfold pOf; omega]

/-! ## A quarantine cleared (R120, R123) -/

theorem Dev.qclrTest_of_clears {d : Dev} {n c : Nat} (hq : (d.port n).st = .quar) (hc : c = (d.port n).cause) (ht : (d.port n).tQuar ≠ d.now)
    (h : (d.port n).cause = 6 ∨ ((d.port n).cause ≤ 3 ∧ d.tokenOk n (d.port n).cause = true)) :
    d.qclrTest n c = (d.dropToken n).later n .up := by
  subst hc
  refine if_neg ?_
  rcases h with h | ⟨hle, htok⟩
  · simp [hq, ht, h]
  · simp [hq, ht, htok]; omega

theorem Dev.qclrTest_of_fails {d : Dev} {n c : Nat} (h : (d.port n).st ≠ .quar ∨ c ≠ (d.port n).cause ∨ (d.port n).cause = 4 ∨
    (d.port n).cause = 5 ∨ ((d.port n).cause ≤ 3 ∧ d.tokenOk n c = false)) :
    d.qclrTest n c = d.raiseAt 3 0xE (c * 256 + n) n := by
  refine if_pos ?_
  rcases h with h | h | h | h | ⟨hle, htok⟩ <;> simp [*]

/-- Opening a port's budgets changes nothing else. -/
theorem Dev.openBud_eq (d : Dev) (o : Nat) : ∃ b c, d.openBud o = { d with bud := b, corr := c } := by
  have hbud (l : List Nat) (f : Dev → Nat → Nat × Nat) (x : Dev) (h : ∃ b c, x = { d with bud := b, corr := c }) :
      ∃ b c, l.foldl (fun (x : Dev) k => x.setBud o k (f x k)) x = { d with bud := b, corr := c } := by
    induction l generalizing x with
    | nil => exact h
    | cons k l ih => obtain ⟨b, c, rfl⟩ := h; exact ih _ ⟨_, _, rfl⟩
  have hcorr (l : List Nat) (f : Dev → Nat → Nat × Nat) (x : Dev) (h : ∃ b c, x = { d with bud := b, corr := c }) :
      ∃ b c, l.foldl (fun (x : Dev) i => { x with corr := mapSet (0, 0) x.corr i (f x i) }) x = { d with bud := b, corr := c } := by
    induction l generalizing x with
    | nil => exact h
    | cons k l ih => obtain ⟨b, c, rfl⟩ := h; exact ih _ ⟨_, _, rfl⟩
  exact hcorr _ (fun x i => _) _ (hbud _ (fun x c => _) d ⟨_, _, rfl⟩)

theorem Dev.sendPend_of_none {d : Dev} {p : Nat} (hc : d.bit (rp 7 0x100 p) 31 = false) (hf : d.bit (rp 8 0x108 p) 0 = false) :
    d.sendPend p = d := by simp [Dev.sendPend, hc, hf]

/-- A quarantined port to which no abort word is owed is UP again (R120). -/
theorem Dev.resumeUp_port {d : Dev} {p : Nat} (hc : d.bit (rp 7 0x100 p) 31 = false) (hf : d.bit (rp 8 0x108 p) 0 = false) :
    ((d.resumeUp p).port p).st = .up ∧ ((d.resumeUp p).port p).cause = 0 := by
  unfold Dev.resumeUp
  extract_lets d1
  obtain ⟨b, c, h⟩ := d1.openBud_eq p
  rw [Dev.sendPend_of_none (by rw [h]; exact hc) (by rw [h]; exact hf), h]
  simp [d1, Dev.port, Dev.setPort]

/-! ## A port that is DOWN leaves its link (R113, R128) -/

/-- Adding nothing to a counter: every register reads as before. -/
theorem Dev.rd_add64_zero (d : Dev) (a b : Nat) : (d.add64 a 0).rd b = d.rd b := by
  have hlo : BitVec.ofNat 32 (d.rd64 a) = d.rd a := by
    apply BitVec.eq_of_toNat_eq; simp [Dev.rd64, Nat.mod_eq_of_lt (BitVec.isLt _)]
  have hhi : BitVec.ofNat 32 (d.rd64 a / 2 ^ 32) = d.rd (a + 4) := by
    have := (d.rd a).isLt
    apply BitVec.eq_of_toNat_eq
    rw [BitVec.toNat_ofNat, Dev.rd64, Nat.add_mul_div_left _ _ (by decide), Nat.div_eq_of_lt this, Nat.zero_add,
      Nat.mod_eq_of_lt (BitVec.isLt _)]
  simp only [Dev.add64, Dev.wr64, Nat.add_zero, hlo, hhi, Dev.rd_wr]
  split_ifs with h4 h0 <;> simp [*]

/-- Nothing waits on the port's transmit side. -/
theorem Dev.dropReplay_of_idle {d : Dev} {p : Nat} (hr : (d.port p).replay = []) (ht : (d.port p).train = none) :
    d.dropReplay p = (d.add64 (rp 3 0x60 p) 0).onPort p (fun y => { y with replay := [], badTags := [], unsure := [] }) := by
  simp [Dev.dropReplay, hr, ht]

theorem Dev.stompPort_of_no_packet {d : Dev} {p : Nat} (h : ∀ k ∈ d.pkts, k.ing ≠ some p) : d.stompPort p = d := by
  have : d.pkts.filter (fun k => k.ing == some p && ! k.conf) = [] :=
    List.filter_eq_nil_iff.2 fun k hk => by simp [h k hk]
  rw [Dev.stompPort, this]; rfl

theorem Dev.settleLoss_of_none {d : Dev} (h : d.lost = []) : d.settleLoss = d := by
  rw [Dev.settleLoss, h]
  exact congrArg (fun l => ({ d with lost := l } : Dev)) h.symm

theorem Dev.launchPort_nil (d : Dev) (p : Nat) : d.launchPort p [] = d := rfl

theorem Dev.unmap_of_own {d : Dev} {p : Nat} (h : (d.port p).role = none) : d.unmap p = d := by simp [Dev.unmap, h]

theorem Dev.idleLanes_of_awake {d : Dev} {p : Nat} (h : ∀ l ∈ d.lanesOf p, (d.lane l).st ≠ .ei ∧ (d.lane l).st ≠ .wake) :
    d.idleLanes p = d := by
  have : (d.lanesOf p).filter (fun l => (d.lane l).st == .ei || (d.lane l).st == .wake) = [] :=
    List.filter_eq_nil_iff.2 fun l hl => by simp [h l hl]
  rw [Dev.idleLanes, this]; rfl

/-- Of the device, only port `p` differs, and how registers are kept, but not what they read. -/
def Dev.OnlyPort (d e : Dev) (p : Nat) : Prop :=
  e = { d with ports := e.ports, regs := e.regs } ∧ (∀ q, q ≠ p → e.port q = d.port q) ∧ ∀ a, e.rd a = d.rd a

theorem Dev.OnlyPort.setPort {d e : Dev} {p : Nat} (h : d.OnlyPort e p) (x : Port) : d.OnlyPort (e.setPort p x) p := by
  obtain ⟨he, hp, hrd⟩ := h
  refine ⟨?_, fun q hq => (e.port_setPort_ne x hq).trans (hp q hq), hrd⟩
  rw [he]
  rfl

theorem Dev.onlyPort_add64_zero (d : Dev) (p a : Nat) : d.OnlyPort (d.add64 a 0) p := ⟨rfl, fun _ _ => rfl, d.rd_add64_zero a⟩

theorem Dev.lanesOf_congr {d e : Dev} (h : ∀ a, e.rd a = d.rd a) (p : Nat) : e.lanesOf p = d.lanesOf p := by
  simp only [Dev.lanesOf, Dev.width, Dev.wcode, Dev.lane0, Dev.fld, h]

theorem Dev.portOf_congr {d e : Dev} (h : ∀ a, e.rd a = d.rd a) (l : Nat) : e.portOf l = d.portOf l := by
  have hvalid : e.pvalid = d.pvalid := funext fun p => by simp only [Dev.pvalid, Dev.bit, h]
  have hlane0 : e.lane0 = d.lane0 := funext fun p => by simp only [Dev.lane0, Dev.fld, h]
  have hwidth : e.width = d.width := funext fun p => by simp only [Dev.width, Dev.wcode, Dev.fld, h]
  simp only [Dev.portOf, Dev.validPorts, hvalid, hlane0, hwidth]

/-- A port at rest and DOWN that is disabled leaves its link alone. -/
theorem Dev.portLeave_of_rest {d : Dev} {n : Nat} (hst : (d.port n).st = .down) (hdec : (d.port n).decided = false)
    (hrole : (d.port n).role = none) (hrep : (d.port n).replay = []) (htr : (d.port n).train = none) (hlost : d.lost = [])
    (hpk : ∀ k ∈ d.pkts, k.ing ≠ some n) (hl : ∀ l ∈ d.lanesOf n, (d.lane l).st ≠ .ei ∧ (d.lane l).st ≠ .wake) :
    d.OnlyPort (d.portLeave n .disabled 0) n ∧ ((d.portLeave n .disabled 0).port n).st = .disabled := by
  have hleft := (d.onlyPort_add64_zero n (rp 3 0x60 n)).setPort
    { d.port n with replay := [], badTags := [], unsure := [] }
  have hdrop : d.dropReplay n = (d.add64 (rp 3 0x60 n) 0).setPort n { d.port n with replay := [], badTags := [], unsure := [] } :=
    Dev.dropReplay_of_idle hrep htr
  rw [← hdrop] at hleft
  have hloss : (d.dropReplay n).settleLoss = d.dropReplay n := Dev.settleLoss_of_none (by rw [hleft.1]; exact hlost)
  have hown : (d.dropReplay n).unmap n = d.dropReplay n := Dev.unmap_of_own (by rw [hdrop, Dev.port_setPort_self]; exact hrole)
  have hawake : (d.dropReplay n).idleLanes n = d.dropReplay n := Dev.idleLanes_of_awake fun l h => by
    rw [Dev.lanesOf_congr hleft.2.2] at h
    rw [hleft.1]
    exact hl l h
  have hleave : ∃ x : Port, d.portLeave n .disabled 0 = (d.dropReplay n).setPort n x ∧ x.st = .disabled := by
    refine ⟨{ st := .disabled, cause := 0, wasUp := (d.port n).wasUp, tOut := (d.port n).tOut, missing := (d.port n).missing }, ?_, rfl⟩
    have hdown : (PortSt.down == PortSt.up) = false := rfl
    simp [Dev.portLeave, hst, hdec, hdown, Dev.stompPort_of_no_packet hpk, hloss, hown, hawake, Dev.launchPort_nil]
  obtain ⟨x, hx, hxst⟩ := hleave
  exact ⟨hx ▸ hleft.setPort x, by rw [hx, Dev.port_setPort_self, hxst]⟩

/-! ## Lanes of a port evaluated one after another (R98, R113) -/

/-- Of the device, only lanes among `ls` differ. -/
def Dev.OnlyLanes (d e : Dev) (ls : List Nat) : Prop := e = { d with lanes := e.lanes } ∧ ∀ l, l ∉ ls → e.lane l = d.lane l

theorem Dev.OnlyLanes.refl (d : Dev) (ls : List Nat) : d.OnlyLanes d ls := ⟨rfl, fun _ _ => rfl⟩

theorem Dev.OnlyLanes.snoc {d e f : Dev} {ls : List Nat} {l : Nat} (h : d.OnlyLanes e ls) (hl : l ∈ ls) (k : e.OnlyLane f l) :
    d.OnlyLanes f ls := by
  obtain ⟨he, hd⟩ := h
  obtain ⟨hf, hk⟩ := k
  refine ⟨?_, fun m hm => (hk m fun hml => hm (hml ▸ hl)).trans (hd m hm)⟩
  rw [he] at hf
  exact hf

/-- Each of a port's lanes that control takes to its state, and keeps in what lets it do so, is there after all of them were evaluated. -/
theorem Dev.foldl_evalLane {d : Dev} {ls : List Nat} (G : Nat → Lane → Prop) (T : Nat → LaneSt)
    (hstep : ∀ e, d.OnlyLanes e ls → (∀ m ∈ ls, G m (e.lane m)) → ∀ l ∈ ls,
      e.OnlyLane (e.evalLane l) l ∧ G l ((e.evalLane l).lane l) ∧ ((e.evalLane l).lane l).st = T l)
    (hG : ∀ m ∈ ls, G m (d.lane m)) :
    let e := ls.foldl (fun x l => x.evalLane l) d
    d.OnlyLanes e ls ∧ ∀ l ∈ ls, (e.lane l).st = T l := by
  suffices h : ∀ (l₂ l₁ : List Nat) (e : Dev), l₁ ++ l₂ = ls → d.OnlyLanes e ls → (∀ m ∈ ls, G m (e.lane m)) →
      (∀ m ∈ l₁, (e.lane m).st = T m) →
      d.OnlyLanes (l₂.foldl (fun x l => x.evalLane l) e) ls ∧ ∀ l ∈ ls, ((l₂.foldl (fun x l => x.evalLane l) e).lane l).st = T l from
    h ls [] d rfl (.refl d ls) hG (by simp)
  intro l₂
  induction l₂ with
  | nil => exact fun l₁ e hls he _ ht => ⟨he, fun l hl => ht l (by simpa [← hls] using hl)⟩
  | cons l l₂ ih =>
    intro l₁ e hls he hg ht
    have hl : l ∈ ls := by simp [← hls]
    obtain ⟨honly, hgl, htl⟩ := hstep e he hg l hl
    refine ih (l₁ ++ [l]) (e.evalLane l) (by simp [← hls]) (he.snoc hl honly) (fun m hm => ?_) (fun m hm => ?_)
    · by_cases hml : m = l
      · rw [hml]; exact hgl
      · rw [honly.2 m hml]; exact hg m hm
    · by_cases hml : m = l
      · rw [hml]; exact htl
      · rw [honly.2 m hml]
        exact ht m (by simpa [hml] using hm)

/-- A lane that disabling takes to OFF without a word more: not in electrical idle, nothing injected. -/
def Lane.calm (x : Lane) : Prop := x.st ≠ .ei ∧ x.st ≠ .wake ∧ x.inj = none

theorem Dev.quitService_of_no_inj {d : Dev} {l : Nat} (h : (d.lane l).inj = none) :
    d.OnlyLane (d.quitService l) l ∧ ((d.quitService l).lane l).inj = none := by
  have hlate : ((d.lane l).inj.isSome && (d.lane l).tInj == d.now + 1) = false := by simp [h]
  unfold Dev.quitService
  simp only [hlate, Bool.false_eq_true, if_false, Dev.onLane]
  split
  · exact ⟨.refl d l, h⟩
  · exact ⟨d.onlyLane_setLane l _, by rw [Dev.lane_setLane_self]; exact h⟩

/-- A calm lane that control takes to OFF leaves its DISABLED port as it is. -/
theorem Dev.moveLane_off_of_portDisabled {d : Dev} {n l : Nat} (hp : d.portOf l = some n) (hst : (d.port n).st = .disabled)
    (hl : l ∈ d.lanesOf n) (hc : ∀ m ∈ d.lanesOf n, (d.lane m).calm) :
    d.OnlyLane (d.moveLane l .off) l ∧ ((d.moveLane l .off).lane l).calm ∧ ((d.moveLane l .off).lane l).st = .off := by
  obtain ⟨hquit, hinj⟩ := Dev.quitService_of_no_inj (hc l hl).2.2
  have hoff (x : Lane) (hx : x.st = .off) (hi : x.inj = none) : 
      let e := (d.quitService l).setLane l x
      d.OnlyLane e l ∧ (e.lane l).calm ∧ (e.lane l).st = .off ∧ e.laneDown l = e := by
    dsimp only
    have honly := hquit.setLane x
    have hself : ((d.quitService l).setLane l x).lane l = x := Dev.lane_setLane_self ..
    have hcalm : ∀ m ∈ d.lanesOf n, (((d.quitService l).setLane l x).lane m).calm := fun m hm => by
      by_cases hml : m = l
      · rw [hml, hself]; exact ⟨by rw [hx]; decide, by rw [hx]; decide, hi⟩
      · rw [honly.2 m hml]; exact hc m hm
    refine ⟨honly, hcalm l hl, by rw [hself, hx], ?_⟩
    generalize (d.quitService l).setLane l x = e at honly hcalm
    rw [Dev.laneDown, show e.portOf l = some n by rw [honly.1]; exact hp]
    have hste : (e.port n).st = .disabled := by rw [honly.1]; exact hst
    exact (if_pos (.inr hste)).trans (Dev.idleLanes_of_awake fun m hm => by
      rw [honly.1] at hm
      exact ⟨(hcalm m hm).1, (hcalm m hm).2.1⟩)
  have hmove : ∃ x : Lane, x.st = .off ∧ x.inj = none ∧ d.moveLane l .off =
      if carries (d.lane l).st then ((d.quitService l).setLane l x).laneDown l else (d.quitService l).setLane l x :=
    ⟨{ (d.quitService l).lane l with st := .off, run := 0, rxEi := false, rxLock := false, found := 0, headers := (0, []) }, rfl, hinj, rfl⟩
  obtain ⟨x, hx, hi, hmove⟩ := hmove
  obtain ⟨honly, hcalm, hst', hdown⟩ := hoff x hx hi
  rw [hmove, hdown, ite_self]
  exact ⟨honly, hcalm, hst'⟩

/-- A lane of a DISABLED port goes OFF; its port stays as it is (R98, R113). -/
theorem Dev.evalLane_of_portDisabled {d : Dev} {n l : Nat} (hp : d.portOf l = some n) (hst : (d.port n).st = .disabled) (hl : l ∈ d.lanesOf n)
    (hc : ∀ m ∈ d.lanesOf n, (d.lane m).calm) :
    d.OnlyLane (d.evalLane l) l ∧ ((d.evalLane l).lane l).calm ∧ ((d.evalLane l).lane l).st = .off := by
  have hen : d.laneEn l = false := by simp [Dev.laneEn, hp, hst]
  rw [Dev.evalLane_of_disabled hen]
  split
  next hoff => exact ⟨.refl d l, hc l hl, hoff⟩
  next => exact Dev.moveLane_off_of_portDisabled hp hst hl hc

/-- The lanes of a port that is DISABLED and calm all go OFF. -/
theorem Dev.lanes_off_of_portDisabled {d : Dev} {n : Nat} (hp : ∀ l ∈ d.lanesOf n, d.portOf l = some n) (hst : (d.port n).st = .disabled)
    (hc : ∀ m ∈ d.lanesOf n, (d.lane m).calm) :
    let e := (d.lanesOf n).foldl (fun x l => x.evalLane l) d
    d.OnlyLanes e (d.lanesOf n) ∧ ∀ l ∈ d.lanesOf n, (e.lane l).st = .off := by
  refine Dev.foldl_evalLane (fun _ x => x.calm) (fun _ => .off) (fun e he hg l hl => ?_) hc
  have hlanes : e.lanesOf n = d.lanesOf n := by rw [he.1]; rfl
  refine Dev.evalLane_of_portDisabled ?_ ?_ (hlanes ▸ hl) (hlanes ▸ hg)
  · rw [he.1]; exact hp l hl
  · rw [he.1]; exact hst

/-- The state a lane that was OFF takes where its control bits are as they are (R98). -/
def Dev.laneGoal (d : Dev) (l : Nat) : LaneSt :=
  if ¬ (d.inService = true ∧ d.plat.active = true ∧ d.bit (rl 0 l) 0 = true) then .off else if d.laneTest l then .test else .adapt

theorem Dev.laneGoal_not_carries (d : Dev) (l : Nat) : carries (d.laneGoal l) = false := by
  unfold Dev.laneGoal
  split_ifs <;> rfl

/-- A lane of a port that is not DISABLED, OFF or in its state already, goes to its state. -/
theorem Dev.evalLane_of_portEnabled {d : Dev} {n l : Nat} (hp : d.portOf l = some n) (hst : (d.port n).st ≠ .disabled)
    (h : (d.lane l).st = .off ∨ (d.lane l).st = d.laneGoal l) :
    d.OnlyLane (d.evalLane l) l ∧ ((d.evalLane l).lane l).st = d.laneGoal l := by
  have hen : d.laneEn l = (d.inService && d.plat.active && d.bit (rl 0 l) 0) := by simp [Dev.laneEn, hp, hst]
  have hc : carries (d.lane l).st = false := by
    rcases h with h | h
    · rw [h]; rfl
    · rw [h]; exact d.laneGoal_not_carries l
  refine ⟨(Dev.OnlyLane.refl d l).evalLane hc, ?_⟩
  by_cases hon : d.inService = true ∧ d.plat.active = true ∧ d.bit (rl 0 l) 0 = true
  · have hen : d.laneEn l = true := by rw [hen]; simp [hon]
    cases ht : d.laneTest l with
    | true =>
      have hgoal : d.laneGoal l = .test := by simp [Dev.laneGoal, hon, ht]
      have hf : (d.lane l).st ≠ .fault := by rcases h with h | h <;> simp [h, hgoal]
      rw [Dev.evalLane_of_test hen ht hf, hgoal]
      split
      · assumption
      · exact Dev.moveLane_st _ hc
    | false =>
      have hgoal : d.laneGoal l = .adapt := by simp [Dev.laneGoal, hon, ht]
      have hf : (d.lane l).st ≠ .fault := by rcases h with h | h <;> simp [h, hgoal]
      rw [Dev.evalLane_of_enabled hen ht hf, hgoal]
      split
      · exact Dev.moveLane_st _ hc
      · next hno => exact (h.resolve_left fun hoff => hno (.inl hoff)).trans hgoal
  · have hen : d.laneEn l = false := by rw [hen]; simpa using fun h1 h2 => by simpa using fun h3 => hon ⟨h1, h2, h3⟩
    have hgoal : d.laneGoal l = .off := if_pos hon
    rw [Dev.evalLane_of_disabled hen, hgoal]
    split
    · assumption
    · exact Dev.moveLane_st _ hc

/-- The lanes of a port that is not DISABLED, all of them OFF, go to their states. -/
theorem Dev.lanes_goal_of_portEnabled {d : Dev} {n : Nat} (hp : ∀ l ∈ d.lanesOf n, d.portOf l = some n) (hst : (d.port n).st ≠ .disabled)
    (hoff : ∀ l ∈ d.lanesOf n, (d.lane l).st = .off) :
    let e := (d.lanesOf n).foldl (fun x l => x.evalLane l) d
    d.OnlyLanes e (d.lanesOf n) ∧ ∀ l ∈ d.lanesOf n, (e.lane l).st = d.laneGoal l := by
  refine Dev.foldl_evalLane (fun l x => x.st = .off ∨ x.st = d.laneGoal l) d.laneGoal (fun e he hg l hl => ?_) (fun l hl => .inl (hoff l hl))
  have hgoal : e.laneGoal l = d.laneGoal l := by rw [he.1]; rfl
  obtain ⟨honly, ht⟩ := e.evalLane_of_portEnabled (l := l) (n := n) (by rw [he.1]; exact hp l hl) (by rw [he.1]; exact hst) (hgoal ▸ hg l hl)
  exact ⟨honly, .inr (ht.trans hgoal), ht.trans hgoal⟩

/-! ## A write of LINK_CTL (R113) -/

/-- The write of LINK_CTL is no write of a lane, nor of the plat structure of ports. -/
theorem Dev.lanesOf_wr_linkCtl (d : Dev) (n : Nat) (v : Word) (p : Nat) : (d.wr (rp 3 0 n) v).lanesOf p = d.lanesOf p := by
  have hrd : (d.wr (rp 3 0 n) v).rd (rp 0xA 0x100 p) = d.rd (rp 0xA 0x100 p) := d.rd_wr_ne v (by unfold rp; omega)
  simp only [Dev.lanesOf, Dev.width, Dev.wcode, Dev.lane0, Dev.fld, hrd]

theorem Dev.portOf_wr_linkCtl (d : Dev) {n : Nat} (v : Word) (h : n < 128) (l : Nat) : (d.wr (rp 3 0 n) v).portOf l = d.portOf l :=
  d.portOf_wr_of_lt v (by unfold rp; omega) l

theorem Dev.lt_of_mem_lanesOf {d : Dev} {n l : Nat} (h : l ∈ d.lanesOf n) : l < 528 := by
  obtain ⟨i, hi, rfl⟩ := List.mem_map.1 h
  have hw : d.width n ≤ 2 ^ 4 := Nat.pow_le_pow_right (by decide) (Nat.min_le_left ..)
  have h0 : d.lane0 n < 2 ^ 9 := fld_lt _ _ _
  have := List.mem_range.1 hi
  omega

theorem Dev.laneGoal_wr_linkCtl (d : Dev) {n l : Nat} (v : Word) (h : l < 528) : (d.wr (rp 3 0 n) v).laneGoal l = d.laneGoal l := by
  have hrd (o : Nat) (ho : o < 0x1000) : (d.wr (rp 3 0 n) v).rd (rl o l) = d.rd (rl o l) := d.rd_wr_ne v (by unfold rl rp; omega)
  simp only [Dev.laneGoal, Dev.laneTest, Dev.bit, Dev.fld, hrd 0 (by decide), hrd 0x50 (by decide)]
  rfl

theorem Dev.linkCtlWrite_disable {d : Dev} {n : Nat} (h : (d.port n).st ≠ .disabled) :
    d.linkCtlWrite n 1 =
      ((d.wr (rp 3 0 n) 1).lanesOf n).foldl (fun x l => x.evalLane l) ((d.wr (rp 3 0 n) 1).portLeave n .disabled 0) := if_neg h

theorem Dev.linkCtlWrite_enable {d : Dev} {n : Nat} (h : (d.port n).st = .disabled) :
    d.linkCtlWrite n 0 =
      ((d.wr (rp 3 0 n) 0).lanesOf n).foldl (fun x l => x.evalLane l) ((d.wr (rp 3 0 n) 0).setPort n { d.port n with st := .down }) := if_pos h

end Sys2Proof.Machine

namespace Sys2Proof.Claim
open Sys2Proof Sys2Proof.Machine

theorem onDev_of_eq {s : State} {f : Dev → Dev} {e : Dev} (h : f s.dev = e) : s.onDev f = { s with dev := e } := by rw [State.onDev, h]

section
variable {s : State} {n : Nat} (hn : n < 128)
include hn

/-- A port at rest and DOWN is DISABLED by the write, with its lanes OFF (R113). -/
theorem linkCtl_disables (hst : (s.dev.port n).st = .down) (hdec : (s.dev.port n).decided = false) (hrole : (s.dev.port n).role = none)
    (hrep : (s.dev.port n).replay = []) (htr : (s.dev.port n).train = none) (hlost : s.dev.lost = []) (hpk : ∀ k ∈ s.dev.pkts, k.ing ≠ some n)
    (hp : ∀ l ∈ s.dev.lanesOf n, s.dev.portOf l = some n)
    (hl : ∀ l ∈ s.dev.lanesOf n, (s.dev.lane l).st ≠ .ei ∧ (s.dev.lane l).st ≠ .wake ∧ (s.dev.lane l).inj = none) :
    let t := s.onDev (fun d => d.linkCtlWrite n 1)
    Kept s t ∧ t.dev.rd (rp 3 0 n) = 1 ∧ RegsBut s t [rp 3 0 n] ∧ (t.dev.port n).st = .disabled ∧
      (∀ q, q ≠ n → t.dev.port q = s.dev.port q) ∧ (∀ l ∈ s.dev.lanesOf n, (t.dev.lane l).st = .off) ∧
      ∀ l, l ∉ s.dev.lanesOf n → t.dev.lane l = s.dev.lane l := by
  have hw := Dev.linkCtlWrite_disable (d := s.dev) (n := n) (by rw [hst]; decide)
  have hls := s.dev.lanesOf_wr_linkCtl n 1 n
  have hself := s.dev.rd_wr_self (rp 3 0 n) 1
  have hrest {a : Nat} (ha : a ≠ rp 3 0 n) := s.dev.rd_wr_ne 1 ha
  have hpo := s.dev.portOf_wr_linkCtl 1 hn
  have hsame : (s.dev.wr (rp 3 0 n) 1).ports = s.dev.ports ∧ (s.dev.wr (rp 3 0 n) 1).lanes = s.dev.lanes := ⟨rfl, rfl⟩
  obtain ⟨honly, hdis⟩ := Dev.portLeave_of_rest (d := s.dev.wr (rp 3 0 n) 1) hst hdec hrole hrep htr hlost hpk
    (fun l h => ⟨(hl l (hls ▸ h)).1, (hl l (hls ▸ h)).2.1⟩)
  generalize s.dev.wr (rp 3 0 n) 1 = d1 at *
  generalize d1.portLeave n .disabled 0 = d2 at *
  obtain ⟨hleft, hports, hrd⟩ := honly
  have hls2 : d2.lanesOf n = s.dev.lanesOf n := (Dev.lanesOf_congr hrd n).trans hls
  have hlanes (l : Nat) : d2.lane l = s.dev.lane l := Dev.lane_congr (by rw [hleft]; exact hsame.2) l
  obtain ⟨⟨hsolo, hother⟩, hoff⟩ := Dev.lanes_off_of_portDisabled (d := d2) (n := n)
    (fun l h => by rw [Dev.portOf_congr hrd, hpo]; exact hp l (hls2 ▸ h)) hdis (fun m h => by rw [hlanes]; exact hl m (hls2 ▸ h))
  rw [hls2] at hsolo hother hoff
  rw [hls] at hw
  rw [onDev_of_eq hw]
  generalize (s.dev.lanesOf n).foldl (fun x l => x.evalLane l) d2 = e at *
  have hregs (a : Nat) : e.rd a = d1.rd a := (Dev.rd_congr (by rw [hsolo]) a).trans (hrd a)
  have hport (q : Nat) : e.port q = d2.port q := Dev.port_congr (by rw [hsolo]) q
  refine ⟨⟨rfl, rfl, rfl⟩, (hregs _).trans hself, fun a ha => (hregs a).trans (hrest (by simpa using ha)), ?_,
    fun q hq => ?_, hoff, fun l h => ?_⟩
  · rw [hport, hdis]
  · rw [hport, hports q hq]; exact Dev.port_congr hsame.1 q
  · rw [hother l h, hlanes]

/-- A DISABLED port is DOWN by the write, and its lanes, OFF, go to their states (R98, R113). -/
theorem linkCtl_enables (hst : (s.dev.port n).st = .disabled) (hp : ∀ l ∈ s.dev.lanesOf n, s.dev.portOf l = some n)
    (hoff : ∀ l ∈ s.dev.lanesOf n, (s.dev.lane l).st = .off) :
    let t := s.onDev (fun d => d.linkCtlWrite n 0)
    Kept s t ∧ t.dev.rd (rp 3 0 n) = 0 ∧ RegsBut s t [rp 3 0 n] ∧ t.dev.port n = { s.dev.port n with st := .down } ∧
      (∀ q, q ≠ n → t.dev.port q = s.dev.port q) ∧ (∀ l, l ∉ s.dev.lanesOf n → t.dev.lane l = s.dev.lane l) ∧
      ∀ l ∈ s.dev.lanesOf n, (t.dev.lane l).st = s.dev.laneGoal l := by
  have hw := Dev.linkCtlWrite_enable (d := s.dev) (n := n) hst
  have hls := s.dev.lanesOf_wr_linkCtl n 0 n
  have hself := s.dev.rd_wr_self (rp 3 0 n) 0
  have hrest {a : Nat} (ha : a ≠ rp 3 0 n) := s.dev.rd_wr_ne 0 ha
  have hpo := s.dev.portOf_wr_linkCtl 0 hn
  have hgoal (l : Nat) (h : l < 528) := s.dev.laneGoal_wr_linkCtl (n := n) 0 h
  have hsame : (s.dev.wr (rp 3 0 n) 0).ports = s.dev.ports ∧ (s.dev.wr (rp 3 0 n) 0).lanes = s.dev.lanes := ⟨rfl, rfl⟩
  generalize s.dev.wr (rp 3 0 n) 0 = d1 at *
  have hdown : (d1.setPort n { s.dev.port n with st := .down }).port n = { s.dev.port n with st := .down } := Dev.port_setPort_self ..
  have hports {q : Nat} (hq : q ≠ n) : (d1.setPort n { s.dev.port n with st := .down }).port q = s.dev.port q :=
    (Dev.port_setPort_ne _ _ hq).trans (Dev.port_congr hsame.1 q)
  obtain ⟨⟨hsolo, hother⟩, hto⟩ := Dev.lanes_goal_of_portEnabled (d := d1.setPort n { s.dev.port n with st := .down }) (n := n)
    (fun l h => (hpo l).trans (hp l (hls ▸ h))) (by rw [hdown]; exact PortSt.noConfusion)
    (fun l h => (congrArg Lane.st (Dev.lane_congr hsame.2 l)).trans (hoff l (hls ▸ h)))
  have hregs : (d1.setPort n { s.dev.port n with st := .down }).regs = d1.regs := rfl
  have hlanes (l : Nat) : (d1.setPort n { s.dev.port n with st := .down }).lane l = s.dev.lane l := Dev.lane_congr hsame.2 l
  have hls2 : (d1.setPort n { s.dev.port n with st := .down }).lanesOf n = s.dev.lanesOf n := hls
  have hgoal2 (l : Nat) : (d1.setPort n { s.dev.port n with st := .down }).laneGoal l = d1.laneGoal l := rfl
  generalize d1.setPort n { s.dev.port n with st := .down } = d2 at *
  rw [hls2] at hsolo hother hto
  rw [hls] at hw
  rw [onDev_of_eq hw]
  generalize (s.dev.lanesOf n).foldl (fun x l => x.evalLane l) d2 = e at *
  have hrd (a : Nat) : e.rd a = d1.rd a := Dev.rd_congr (by rw [hsolo]; exact hregs) a
  have hport (q : Nat) : e.port q = d2.port q := Dev.port_congr (by rw [hsolo]) q
  refine ⟨⟨rfl, rfl, rfl⟩, (hrd _).trans hself, fun a ha => (hrd a).trans (hrest (by simpa using ha)), ?_,
    fun q hq => ?_, fun l h => ?_, fun l h => ?_⟩
  · rw [hport, hdown]
  · rw [hport, hports hq]
  · rw [hother l h, hlanes]
  · rw [hto l h, hgoal2, hgoal l (Dev.lt_of_mem_lanesOf h)]

end

/-- Settles O25: a quarantine cleared, a port disabled and a port enabled. -/
theorem portControlTakesEffect : Obligations.PortControlTakesEffect := by
  unfold Obligations.PortControlTakesEffect
  intro s src p v n x ls
  have hn : n < 128 := p.isLt
  have link (o : Nat) (ho : o < 0x4000) (h4 : o % 4 = 0) : rp 3 o n < 0x12000000 ∧ rp 3 o n % 4 = 0 ∧ isRwl (rp 3 o n) = false :=
    ⟨by unfold rp; omega, by unfold rp; omega, isRwl_of_blk_ne (by unfold blk rp; omega)⟩
  obtain ⟨hqa, hq4, hql⟩ := link 0x14 (by decide) (by decide)
  obtain ⟨hca, hc4, hcl⟩ := link 0 (by decide) (by decide)
  have qclr {P : State → Prop} (hr : Reached s src (rp 3 0x14 n)) (hP : P (s.onDev (fun d => d.qclr n v))) : Takes (.linkQclr src p v) s P :=
    WriteCmd.takes ⟨fun _ => rfl, rfl, fun _ => rfl⟩ hr hqa hq4 hql (by rwa [State.writeAt_qclr s src v hn])
  have qclrNow (hv : Machine.bit v 31 = true) (hact : s.dev.actDue = false) : s.dev.qclr n v = s.dev.qclrTest n (Machine.fld v 0 4) := by
    simp [Dev.qclr, hv, hact]
  refine ⟨fun hr hv hact => qclr hr ?_, fun hq hc hf => ?_, fun hr hv hact => ⟨fun hq hc ht h hdue => qclr hr ?_, fun h => qclr hr ?_⟩,
    fun hr hp => ⟨fun hst hdec hrole hrep htr hlost hpk hl => ?_, fun hst hoff => ?_⟩⟩
  · have hw : s.dev.qclr n v = s.dev.setPort n { x with qclrHeld := some (Machine.fld v 0 4) } := by simp [Dev.qclr, hv, hact, x]
    rw [onDev_of_eq hw]
    exact ⟨⟨⟨rfl, rfl, rfl⟩, rfl, fun q hq => Dev.port_setPort_ne _ _ hq, fun _ _ => rfl⟩, Dev.port_setPort_self ..⟩
  · rw [Dev.takeDue, if_pos hq]
    exact Dev.resumeUp_port hc hf
  · have hlater : (s.dev.dropToken n).later n .up = (s.dev.dropToken n).setPort n { x with due := x.due ++ [.up] } := by
      have hx : (s.dev.dropToken n).port n = x := rfl
      rw [Dev.later, Dev.onPort, hx, if_neg hdue]
    rw [onDev_of_eq ((qclrNow hv hact).trans ((Dev.qclrTest_of_clears hq hc ht h).trans hlater))]
    exact ⟨⟨rfl, rfl, rfl⟩, Dev.port_setPort_self .., fun q hq => Dev.port_setPort_ne _ _ hq, rfl⟩
  · rw [onDev_of_eq ((qclrNow hv hact).trans (Dev.qclrTest_of_fails h))]
    exact ⟨⟨rfl, rfl, rfl⟩, raisedOn_raiseAt ..⟩
  · refine WriteCmd.takes ⟨fun _ => rfl, rfl, fun _ => rfl⟩ hr hca hc4 hcl ?_
    rw [State.writeAt_linkCtl s src _ hn]
    exact linkCtl_disables hn hst hdec hrole hrep htr hlost hpk hp hl
  · refine WriteCmd.takes ⟨fun _ => rfl, rfl, fun _ => rfl⟩ hr hca hc4 hcl ?_
    rw [State.writeAt_linkCtl s src _ hn]
    exact linkCtl_enables hn hst hp hoff

end Sys2Proof.Claim
end

section
/-! PROOFS. What the frame of an activation leaves alone: the plat in force, what it measures, the parts of the device and what waits
for the activation (R21, R384, R392). -/

namespace Sys2Proof.Machine

/-! ## What stays (R384) -/

/-- What no step of an activation touches once the plat is taken. -/
structure Steady where
  plat : Plat
  lockDue : Bool
  m4 : List Byte
  held : List CtlAct
  inService : Bool
  dies : List PartSt
  hbms : List PartSt
  bridges : List PartSt
  dpBusy : Bool
  pwr : Pwr
  lfsr : List Word

def Dev.steady (d : Dev) : Steady :=
  { plat := d.plat, lockDue := d.col.lockDue, m4 := d.col.m4, held := d.obvo.held, inService := d.inService, dies := d.dies
    hbms := d.hbms, bridges := d.bridges, dpBusy := d.dpBusy, pwr := d.pwr, lfsr := d.lfsr }

/-- Going from `d` to `e` all of that stays. -/
def Dev.Stays (d e : Dev) : Prop := e.steady = d.steady

namespace Dev.Stays

theorem refl (d : Dev) : d.Stays d := rfl

variable {d e f : Dev} (h : d.Stays e)
include h

/-- A change beside all of that. -/
theorem keep (k : f.steady = e.steady := by rfl) : d.Stays f := Eq.trans k h

theorem ite {c : Prop} [Decidable c] (k : d.Stays f) : d.Stays (if c then e else f) := by
  split
  · exact h
  · exact k

theorem foldl {α : Type} {f : Dev → α → Dev} {l : List α} (hf : ∀ (x : Dev) (a : α), d.Stays x → d.Stays (f x a)) :
    d.Stays (l.foldl f e) := by
  induction l generalizing e with
  | nil => exact h
  | cons a l ih => exact ih (hf e a h)

section
variable {a b c det i k n p q r g cls slice dst seq u : Nat} {v m w : Word}

/-! ### Registers, conditions and records -/

theorem wr : d.Stays (e.wr a v) := h
theorem add64 : d.Stays (e.add64 a n) := h
theorem wr64 : d.Stays (e.wr64 a n) := h
theorem setBit {b : Bool} : d.Stays (e.setBit a i b) := h
theorem addSat : d.Stays (e.addSat a n) := h
theorem emit {o : Out} : d.Stays (e.emit o) := h

theorem raiseAt : d.Stays (e.raiseAt b c det i) := by
  obtain ⟨_, _, _, _, he⟩ := e.raiseAt_eq b c det i
  rw [he]
  exact h

theorem raise : d.Stays (e.raise b c det) := h.raiseAt
theorem raiseOnce : d.Stays (e.raiseOnce m b c det) := .ite h h.raise

theorem event {body : List Byte} : d.Stays (e.event k body) := by
  unfold Dev.event
  dsimp only
  split_ifs <;> exact h

/-! ### Lanes, ports, packets, rounds and launches -/

theorem onLane {x : Lane → Lane} : d.Stays (e.onLane i x) := h
theorem setPort {x : Port} : d.Stays (e.setPort p x) := h
theorem onPort {x : Port → Port} : d.Stays (e.onPort p x) := h
theorem onPkt {x : Pkt → Pkt} : d.Stays (e.onPkt i x) := h
theorem rmPkt : d.Stays (e.rmPkt i) := h
theorem setRnd {x : Round} : d.Stays (e.setRnd r x) := h
theorem onRnd {x : Round → Round} : d.Stays (e.onRnd r x) := h
theorem setLaunch {x : Launch} : d.Stays (e.setLaunch g x) := h
theorem dropChunks {x : Chunk → Bool} : d.Stays (e.dropChunks x) := h
theorem setCap {x : Cap} : d.Stays (e.setCap c x) := h
theorem setBud {x : Nat × Nat} : d.Stays (e.setBud p c x) := h
theorem patWithdraw : d.Stays (e.patWithdraw i) := h
theorem pend {x : List (Nat × (Nat × Nat))} : d.Stays { e with pend := x } := h
theorem nextEpoch {x : BitVec 16} : d.Stays (e.nextEpoch p x) := h
theorem dropToken : d.Stays (e.dropToken p) := h
theorem later {x : Due} : d.Stays (e.later p x) := h

/-! ### Packets counted, answered and lost (R69, R158, R191) -/

theorem countPkt {ing : Option Nat} : d.Stays (e.countPkt c ing) := by cases ing <;> exact h
theorem countDrop : d.Stays (e.countDrop p c k n i) := .ite h.keep h
theorem orderCond {ing o : Option Nat} : d.Stays (e.orderCond c ing o) := h.countPkt.raise

theorem settleDrop {ing : Option Nat} {x : Header} {dr : Drop} : d.Stays (e.settleDrop ing x dr) := by
  unfold Dev.settleDrop
  split
  · exact .ite h.orderCond h.countPkt.raiseOnce
  · exact h.add64.raiseOnce
  · exact h.countDrop.raiseOnce
  · exact h.countDrop.raiseOnce
  · exact h
  · exact h.countDrop

theorem noteLoss {pk : Packet} {dr : Drop} : d.Stays (e.noteLoss pk dr) := by
  unfold Dev.noteLoss
  refine .ite ?_ h
  split <;> exact h

theorem originate {pk : Packet} {dir cin : Option Nat} {col : Bool} : d.Stays (e.originate pk dir cin col) := by
  unfold Dev.originate
  dsimp only
  split
  · exact h.settleDrop
  · exact .ite h.settleDrop (.ite (h.foldl fun _ _ h => h.settleDrop) (h.foldl fun _ _ h => h.settleDrop))

theorem send {x : List Byte} : d.Stays (e.send c cls slice dst seq x) := h.originate
theorem answer {ing : Option Nat} {x : Header} {y : List Byte} : d.Stays (e.answer ing x y w) := .ite h.originate (.ite h.send h)
theorem ordDone {x : Header} : d.Stays (e.ordDone x n) := h.send

theorem discard {x : Pkt} {dr : Drop} : d.Stays (e.discard x dr) := by
  unfold Dev.discard
  extract_lets hd ing d1 passed3 d2
  have h1 : d.Stays d1 := h.settleDrop.noteLoss
  have h2 : d.Stays d2 := by
    dsimp only [d2]
    split
    · exact h1.answer.ite h1
    · exact h1
  exact h2.ordDone.ite h2

theorem dropPkt {x : Pkt} {dr : Drop} : d.Stays (e.dropPkt x dr) := by
  unfold Dev.dropPkt
  extract_lets d1
  have h1 : d.Stays d1 := h
  exact h1.discard.rmPkt.ite h1.onPkt

/-! ### Buffers and the queue (R177, R178) -/

theorem ptrFault {x : Option Nat} : d.Stays (e.ptrFault k i x) := by
  unfold Dev.ptrFault
  extract_lets d1
  have h1 : d.Stays d1 := h.addSat.raise
  split
  · exact .ite h1.keep h1
  · exact h1

theorem takeBack : d.Stays (e.takeBack k i p n) := by
  unfold Dev.takeBack
  split
  · exact h
  · split
    · exact h
    · exact .ite h.raise.ptrFault (.ite h.keep h.keep)

theorem giveUp : d.Stays (e.giveUp k i p n c) := h.foldl fun _ _ h => h.takeBack
theorem freeEnt {x : QEnt} : d.Stays (e.freeEnt x) := h.giveUp
theorem dropEnt {x : QEnt} {y : Cause} : d.Stays (e.dropEnt x y) := .ite h.settleDrop.noteLoss h.keep
theorem loseCells {pk : Packet} : d.Stays (e.loseCells p i n pk) := .ite h.keep h.settleDrop.noteLoss
theorem loseTrain {x : QEnt} : d.Stays (e.loseTrain p x) := h.loseCells.add64
theorem endReq : d.Stays (e.endReq i p) := .ite h.keep.raise h
theorem voidEnt {x : QEnt} : d.Stays (e.voidEnt x u) := h.freeEnt.keep
theorem giveBack {x : QEnt} : d.Stays (e.giveBack x) := .ite h.keep h.keep

theorem flushQueue {x : Bool} : d.Stays (e.flushQueue p x) :=
  (h.foldl fun _ _ h => .ite h (.ite (h.loseTrain.ite h).freeEnt h.dropEnt.freeEnt)).keep

theorem dropReplay : d.Stays (e.dropReplay p) := by
  unfold Dev.dropReplay
  extract_lets x cells live d1 bare
  have h1 : d.Stays d1 := h.foldl fun _ _ h => by
    split
    · exact h
    · exact h.loseCells
  exact (h1.foldl fun _ _ h => h.loseTrain).keep

/-! ### Orders, holds and budgets of a port flushed (R189, R354) -/

theorem orderTimeout {x : Pkt} : d.Stays (e.orderTimeout x p) := (ordDone (orderCond h.nextEpoch.add64)).rmPkt
theorem flushOrder : d.Stays (e.flushOrder p) := h.foldl fun _ _ h => h.orderTimeout
theorem flushHolds : d.Stays (e.flushHolds p) := h.foldl fun _ _ h => h.dropPkt
theorem flushParked : d.Stays (e.flushParked p) := h.foldl fun _ _ h => h.dropPkt
theorem shutBud : d.Stays (e.shutBud p) := (h.foldl fun _ _ h => h.setBud).keep
theorem endCpls : d.Stays (e.endCpls p) := h.foldl fun _ _ h => h.endReq

theorem flushPort {x : Bool} : d.Stays (e.flushPort p x) :=
  h.shutBud.endCpls.flushQueue.flushHolds.flushOrder.flushParked.raise

theorem pausePats : d.Stays (e.pausePats p) := h.foldl fun _ _ h => .ite (patWithdraw h.keep) h

/-! ### Launches and rounds that fail (R286, R314, R479) -/

theorem adopt {x : Option Nat} {b : Bool} : d.Stays (e.adopt g n w x b) := by
  unfold Dev.adopt
  extract_lets l lower en d1 d2 dirs
  have h1 : d.Stays d1 := h.setLaunch
  have h2 : d.Stays d2 := h1.raise.ite h1
  exact h.ite (h2.foldl fun _ _ h => h.originate)

theorem cause {b : Bool} : d.Stays (e.cause g w b) := .ite h.adopt h

theorem fanAdopt {b : Bool} : d.Stays (e.fanAdopt r n w b) := by
  unfold Dev.fanAdopt
  extract_lets x lower d1
  have h1 : d.Stays d1 := h.setRnd
  exact h.ite (h1.raise.ite (h1.foldl fun _ _ h => h.send))

theorem fanCause : d.Stays (e.fanCause r w) := .ite h.fanAdopt h
theorem fanFail : d.Stays (e.fanFail r c det) := h.raise.fanCause
theorem memberDownFan : d.Stays (e.memberDownFan p) := h.foldl fun _ _ h => .ite h.fanFail h

theorem launchPort {gs : List Nat} : d.Stays (e.launchPort p gs) := h.foldl fun x g h => by
  have hy : d.Stays (if p ∈ (x.gt g).members then (x.raise 7 6 p).cause g (condWord 7 6 p) false else x) := h.raise.cause.ite h
  exact .ite hy.raise.cause hy

theorem lossAbort {pk : Packet} : d.Stays (e.lossAbort pk w) := by
  unfold Dev.lossAbort
  extract_lets op pl g ln
  refine .ite ?_ (.ite h.cause h)
  split
  · exact h.fanCause
  · exact h

theorem settleLoss : d.Stays e.settleLoss := by
  have h0 : d.Stays { e with lost := [] } := h
  exact h0.foldl fun _ _ h => h.lossAbort

/-! ### Packets stomped (R73, R128) -/

theorem nameBad : d.Stays (e.nameBad i) := h.foldl fun _ _ h => h.setPort.foldl fun _ _ h => h.emit

theorem release : d.Stays (e.release i) := (h.foldl fun _ _ h => .ite h.giveBack.voidEnt h.giveBack.freeEnt).keep

theorem catUndo {x : Pkt} : d.Stays (e.catUndo x) := by
  unfold Dev.catUndo
  dsimp only
  split
  · exact h
  · split
    · exact h
    · exact .ite h.keep h.keep

theorem fanUndo {x : Pkt} : d.Stays (e.fanUndo x) := by
  unfold Dev.fanUndo
  split <;> exact h

theorem stageRec {x : Option Header} {y : List Byte} : d.Stays (e.stageRec c k p det x n w y) := .ite h.setCap.addSat.raiseOnce h.setCap
theorem capStomp {x : Header} : d.Stays (e.capStomp p x) := h.foldl fun _ _ h => h.stageRec
theorem countStomp {x : Option Nat} {y : Header} : d.Stays (e.countStomp x y) := by
  cases x with
  | none => exact h
  | some p => exact h.countDrop

theorem stomp {x : Pkt} : d.Stays (e.stomp x) := by
  have h4 : d.Stays (((((e.release x.id).nameBad x.id).catUndo x).fanUndo x).countStomp x.ing x.pk.hdr) :=
    h.release.nameBad.catUndo.fanUndo.countStomp
  unfold Dev.stomp
  dsimp only
  split
  · exact h4.capStomp.rmPkt
  · exact h4.rmPkt

theorem stompPort : d.Stays (e.stompPort p) := h.foldl fun _ _ h => h.stomp

/-! ### Lanes (R98, R108) -/

theorem quitService : d.Stays (e.quitService i) := by
  unfold Dev.quitService
  extract_lets x late d1
  have h1 : d.Stays d1 := h.onLane
  exact h.ite (h1.raiseAt.ite h1)

theorem toAdapt : d.Stays (e.toAdapt i) := h.quitService.onLane
theorem retrainPort : d.Stays (e.retrainPort p) := h.foldl fun _ _ h => h.toAdapt
theorem idleLanes : d.Stays (e.idleLanes p) := h.foldl fun _ _ h => h.toAdapt
theorem portDown : d.Stays (e.portDown p) := .ite h.idleLanes h.later
theorem portFail : d.Stays (e.portFail p) := h.portDown.retrainPort

theorem laneDown : d.Stays (e.laneDown i) := by
  unfold Dev.laneDown
  split
  · exact h.portDown
  · exact h

theorem moveLane {x : LaneSt} : d.Stays (e.moveLane i x) := by
  unfold Dev.moveLane
  extract_lets was d1
  have h1 : d.Stays d1 := .ite h.toAdapt h.quitService.onLane
  exact h1.laneDown.ite h1

theorem evalLane : d.Stays (e.evalLane i) :=
  .ite (.ite h h.moveLane) (.ite h (.ite (.ite h h.moveLane) (.ite h.moveLane h)))

/-! ### A port leaves UP (R113, R128) -/

theorem refreshXoff : d.Stays (e.refreshXoff p) := by
  obtain ⟨_, _, _, _, he⟩ := Dev.OnlyHolds.refreshXoff e p
  rw [he]
  exact h

theorem holdsMoved : d.Stays e.holdsMoved := by
  obtain ⟨_, _, _, _, he⟩ := Dev.OnlyHolds.holdsMoved e
  rw [he]
  exact h

theorem unmap : d.Stays (e.unmap p) := by
  unfold Dev.unmap
  split
  · exact h.onPort.onPort
  · exact h

theorem portLeave {x : PortSt} : d.Stays (e.portLeave p x c) := by
  unfold Dev.portLeave
  extract_lets y quar up d1 d2 d3 live d4 d5 d6
  have h1 : d.Stays d1 := h.ite h.stompPort
  have h2 : d.Stays d2 := h1.ite h1.dropReplay
  have h3 : d.Stays d3 := h2.flushPort.ite (h2.flushHolds.ite h2)
  have h4 : d.Stays d4 := (h3.pausePats.ite h3).settleLoss.launchPort
  have h5 : d.Stays d5 := h4.memberDownFan.ite h4
  have h6 : d.Stays d6 := (h5.dropToken.ite h5).unmap.idleLanes
  exact h5.onPort.refreshXoff.ite h6.setPort

theorem downNow : d.Stays (e.downNow p) := .ite h.portLeave h

/-- Every lane and port evaluated. -/
theorem evalAll : d.Stays e.evalAll := (h.foldl fun _ _ h => h.evalLane).foldl fun _ _ h => h.downNow

/-! ### Steps of an activation (R384) -/

theorem postCat : d.Stays (e.postCat g n k) := h.event
theorem postFan : d.Stays (e.postFan r n k) := h.event

theorem abortEnd : d.Stays (e.abortEnd g) := by
  unfold Dev.abortEnd
  extract_lets l en d2
  have h2 : d.Stays d2 := h.dropChunks.setLaunch
  split
  · exact h
  · exact (h2.foldl fun _ _ h => .ite h.originate h.wr64.pend.setBit).postCat

theorem fanAbortEnd : d.Stays (e.fanAbortEnd r) := by
  unfold Dev.fanAbortEnd
  dsimp only
  split
  · exact h
  · exact (h.keep.foldl fun _ _ h => .ite h.send h.wr64.pend.setBit).postFan

theorem endAll : d.Stays (e.endAll w) :=
  ((h.foldl fun _ _ h => h.setLaunch.abortEnd).foldl fun _ _ h => h.onRnd.fanAbortEnd).keep

theorem residue : d.Stays (e.residue n) :=
  h.ite ((h.foldl fun _ _ h => h.dropPkt).add64.raise.settleLoss)

theorem unmapAll : d.Stays e.unmapAll := h.foldl fun _ _ h => h.portFail.downNow

theorem openBud : d.Stays (e.openBud p) := by
  obtain ⟨_, _, he⟩ := e.openBud_eq p
  rw [he]
  exact h

theorem sendPend : d.Stays (e.sendPend p) := by
  unfold Dev.sendPend
  extract_lets go w g x d1
  have h1 : d.Stays d1 := .ite (by split; exact h.setBit.send) h
  refine .ite ?_ h1
  dsimp only
  exact h1.setBit.send

theorem resumeUp : d.Stays (e.resumeUp p) := h.dropToken.onPort.openBud.sendPend

theorem retest : d.Stays (e.retest p) := by
  unfold Dev.retest
  dsimp only
  split
  · refine h.ite (h.resumeUp.ite ?_)
    split
    · exact h.resumeUp
    · exact h.onPort
  · exact h

theorem markUps : d.Stays e.markUps := h
theorem outFrom : d.Stays e.outFrom := h.foldl fun _ _ h => h.onPort
theorem qclrTest : d.Stays (e.qclrTest n c) := .ite h.raiseAt h.dropToken.later
theorem qclrAll : d.Stays e.qclrAll := h.foldl fun _ _ h => h.onPort.qclrTest

/-- Steps 4 to 7 of R384, and the LINK_QCLRs of the frame. -/
theorem actSteps {b : Bool} : d.Stays (e.actSteps b n) := by
  unfold Dev.actSteps
  extract_lets d1 d2 d3 d4 d5
  have h1 : d.Stays d1 := h.evalAll.endAll
  have h3 : d.Stays d3 := (h1.residue.ite h1).unmapAll
  have h4 : d.Stays d4 := (h3.foldl fun _ _ h => h.retest).markUps
  exact h4.outFrom.qclrAll.holdsMoved.raise.event

theorem corrFrom {old : Dev} : d.Stays (e.corrFrom old) := by
  have h1 (l : List (Nat × (Nat × Nat))) : d.Stays { e with corr := l } := h
  exact (h1 _).foldl fun _ _ h => h.keep

end

end Dev.Stays

end Sys2Proof.Machine
end

section
/-! PROOFS. Plats in their frame: armed, taken, restored, and the data path entering service (R21, R376, R380-R387, R469, R521). -/

namespace Sys2Proof.Machine

/-! ## The registers of a plat (R384) -/

namespace Dev.Stays
variable {d e : Dev} (h : d.Stays e)
include h

theorem derive : d.Stays e.derive := h.keep.foldl fun _ _ h => h.foldl fun _ _ h => h.wr
theorem setRecs {rs : List (Nat × Word)} : d.Stays (e.setRecs rs) := (h.foldl fun _ _ h => h.wr).derive
theorem withPlat {b : List Byte} : d.Stays (e.withPlat b) := (h.keep.ite h).setRecs
theorem resetTrackers {p : Nat} : d.Stays (e.resetTrackers p) := by
  have h1 (l : List (Nat × Trk)) : d.Stays { e.flushOrder p with trks := l } := h.flushOrder
  exact (h1 _).event

theorem stopRegions {old : Dev} : d.Stays (Dev.stopRegions old e) := by
  unfold Dev.stopRegions
  extract_lets changed d1
  have h1 : d.Stays d1 := h.foldl fun _ _ h => h.setCap.raise.ite h
  refine h1.foldl fun x i hx => .ite ?_ hx
  have h2 (l : List (Nat × Pat)) : d.Stays { x with pats := l } := hx
  exact (h2 _).patWithdraw.raise

end Dev.Stays

/-- What stays, field by field. -/
theorem Dev.of_steady {d : Dev} {x : Steady} (h : d.steady = x) :
    d.plat = x.plat ∧ d.col.lockDue = x.lockDue ∧ d.col.m4 = x.m4 ∧ d.obvo.held = x.held ∧ d.inService = x.inService ∧ d.dies = x.dies ∧
      d.hbms = x.hbms ∧ d.bridges = x.bridges ∧ d.dpBusy = x.dpBusy ∧ d.pwr = x.pwr ∧ d.lfsr = x.lfsr := by
  subst h
  exact ⟨rfl, rfl, rfl, rfl, rfl, rfl, rfl, rfl, rfl, rfl, rfl⟩

/-- Applying a container forgets only which roles the trackers stand for. -/
theorem Dev.applyFull_steady (d : Dev) (b : List Byte) :
    (d.applyFull b).steady = { d.steady with plat := { d.plat with roles := none } } := by
  unfold Dev.applyFull
  extract_lets nw ps was new trk d0 plat d1 d2 ign d3 d4 clamp ceil
  have h0 : d.Stays d0 := ((Dev.Stays.refl d).foldl fun _ _ h => h.resetTrackers).withPlat
  have h2 : d1.Stays d2 := (Dev.Stays.refl d1).foldl fun _ _ h => h.portFail.downNow
  have h4 : d1.Stays d4 := (h2.foldl fun _ _ h => h.raise).stopRegions
  have h1 : d1.steady = { d0.steady with plat := { d0.steady.plat with roles := none } } := rfl
  rw [show (if ceil < clamp then d4.raise 0xE 1 0 else d4).steady = d1.steady from h4.raise.ite h4, h1, h0]
  rfl

theorem Dev.corrFrom_words (d old : Dev) : (d.corrFrom old).words = d.words :=
  foldl_keeps Dev.words _ _ _ fun _ _ => rfl

/-- The activation is reported at its end (R384). -/
theorem Dev.word_mem_actSteps (d : Dev) (live : Bool) (epoch : Nat) : condWord 0xA 9 (epoch % 65536) ∈ (d.actSteps live epoch).words := by
  unfold Dev.actSteps
  simp

/-- The device with a plat taken: what was measured, and CFG_LOCK due (R384, R433). -/
def Dev.taking (e : Dev) (f : Plat → Plat) (m : List Byte) : Dev :=
  let d := e.onPlat f
  { d with col := { d.col with m4 := m, lockDue := true } }

theorem Dev.taking_steady (e : Dev) (f : Plat → Plat) (m : List Byte) :
    (e.taking f m).steady = { e.steady with plat := f e.plat, lockDue := true, m4 := m } := rfl

/-- The device with the plat of a container taken. -/
def Dev.takesPlat (d : Dev) (b : List Byte) : Dev := (d.applyFull b).taking (fun x => x.took (cEpoch b) (cFabric b) (cBound b)) (m4Full b)

theorem State.actStage_dev (s : State) (b : List Byte) (live : Bool) :
    (s.actStage b live).dev = ((s.dev.takesPlat b).actSteps live (cEpoch b)).corrFrom s.dev := by
  simp only [State.actStage, Dev.takesPlat, Dev.taking]

/-- What a first or live activation leaves of what its steps leave alone: the plat is taken, CFG_LOCK is due and measured. -/
theorem State.actStage_steady (s : State) (b : List Byte) (live : Bool) :
    (s.actStage b live).dev.steady = { s.dev.steady with
      plat := ({ s.dev.plat with roles := none } : Plat).took (cEpoch b) (cFabric b) (cBound b), lockDue := true, m4 := m4Full b } := by
  have h0 := s.dev.applyFull_steady b
  obtain ⟨hplat, _⟩ := Dev.of_steady h0
  have hsteps := (Dev.Stays.refl (s.dev.takesPlat b)).actSteps (b := live) (n := cEpoch b) |>.corrFrom (old := s.dev)
  rw [State.actStage_dev, hsteps, Dev.takesPlat, Dev.taking_steady, h0, hplat]

theorem State.word_mem_actStage (s : State) (b : List Byte) (live : Bool) :
    condWord 0xA 9 (cEpoch b % 65536) ∈ (s.actStage b live).dev.words := by
  rw [State.actStage_dev, Dev.corrFrom_words]
  exact Dev.word_mem_actSteps ..

/-! ## The data path enters service (R21, R469) -/

/-- The first state of the data path's shift registers. -/
def Dev.seeds (d : Dev) : List Word := (List.range 4).map fun i => seedWord (Config.trng (d.draws + i))

theorem seedWord_ne_zero (w : Word) : seedWord w ≠ 0 := by
  unfold seedWord
  split
  · decide
  · assumption

theorem Dev.seeds_ne_zero (d : Dev) : ∀ w ∈ d.seeds, w ≠ 0 := fun w hw => by
  obtain ⟨i, _, rfl⟩ := List.mem_map.1 hw
  exact seedWord_ne_zero _

theorem Dev.partsUp_steady (d : Dev) : d.partsUp.steady =
    { d.steady with inService := true, dpBusy := false, pwr := { d.pwr with pAllow := 800 * d.pwr.pEst }, lfsr := d.seeds } := by
  unfold Dev.partsUp
  dsimp only
  split <;> rfl

theorem Dev.partsUp_evalAll_steady (d : Dev) : d.partsUp.evalAll.steady =
    { d.steady with inService := true, dpBusy := false, pwr := { d.pwr with pAllow := 800 * d.pwr.pEst }, lfsr := d.seeds } := by
  rw [show d.partsUp.evalAll.steady = d.partsUp.steady from (Dev.Stays.refl d.partsUp).evalAll, d.partsUp_steady]

/-- Nothing waits for the activation. -/
theorem State.runHeld_of_none {s : State} (h : s.dev.obvo.held = []) : s.runHeld = s := if_pos (.inl h)

/-- Beside the device, the activation moves the container from the stage to the boot partition (R384). -/
theorem State.actStage_rest (s : State) (b : List Byte) (live : Bool) :
    (s.actStage b live).pending = s.pending ∧ (s.actStage b live).mem = s.mem ∧
      (s.actStage b live).nv = { s.nv with floor := cEpoch b, boot := [b], active := b, stage := [], stageOk := false, stageTrail := false } := by
  simp only [State.actStage, and_self]

/-! ## Arming and cancelling (R381, R387) -/

theorem State.writeAt_platActCtl (s : State) (src : Src) (v : Word) : s.writeAt src (ra 0xA 0x40) v = s.platActCtl v := rfl

/-- The device with the fields of PLAT_ACT_CTL written. -/
def Dev.actCtlSet (d : Dev) (v : Word) : Dev := d.wr (ra 0xA 0x40) (v &&& 0x7F)

theorem State.platActCtl_of_go {s : State} {v : Word} (hg : Machine.bit v 31 = true) (hc : Machine.bit v 30 = false) :
    s.platActCtl v = (s.onDev (fun d => d.actCtlSet v)).platGo := by simp [State.platActCtl, hg, hc, Dev.actCtlSet]

theorem State.platActCtl_of_cancel {s : State} {v : Word} (hg : Machine.bit v 31 = false) (hc : Machine.bit v 30 = true) :
    s.platActCtl v = (s.onDev (fun d => d.actCtlSet v)).onDev Dev.platCancel := by simp [State.platActCtl, hg, hc, Dev.actCtlSet]

/-- The fields of PLAT_ACT_CTL read as written, and T as before. -/
theorem Dev.reads_actCtlSet (d : Dev) (v : Word) :
    (d.actCtlSet v).fld (ra 0xA 0x40) = Machine.fld (v &&& 0x7F) ∧ (d.actCtlSet v).bit (ra 0xA 0x40) = Machine.bit (v &&& 0x7F) ∧
      (d.actCtlSet v).rd64 (ra 0xA 0x44) = d.rd64 (ra 0xA 0x44) := by
  have hself : (d.actCtlSet v).rd (ra 0xA 0x40) = v &&& 0x7F := Dev.rd_wr_self ..
  refine ⟨by funext; rw [Dev.fld, hself], by funext; rw [Dev.bit, hself], ?_⟩
  rw [Dev.rd64, Dev.actCtlSet, Dev.rd_wr_ne _ _ (by decide), Dev.rd_wr_ne _ _ (by decide)]
  rfl

section
variable {s : State} (hl : s.dev.plat.load = .staged) (hk : cKind s.nv.stage = 0) (ha : s.dev.plat.act = none) (hr : s.dev.ract = none)
  (hd : s.dev.plat.digest = sha256 s.nv.stage)
include hl hk ha hr hd

/-- A GO while no plat is active arms the first activation for the next frame. -/
theorem State.platGo_of_inactive (h : s.dev.plat.active = false) :
    s.platGo = s.onDev (fun d => d.onPlat (fun x => { x with act := some { t := s.dev.now + 1, drain := 0, first := true } })) := by
  simp [State.platGo, hl, hk, ha, hr, hd, h]

/-- A GO with a plat active arms the activation at T, beyond its drain and at most 2^20 frames ahead. -/
theorem State.platGo_of_active (h : s.dev.plat.active = true) (hal : s.dev.aligned = true) :
    let t := s.dev.rd64 (ra 0xA 0x44) % 2 ^ 48
    let dr := drainOf (s.dev.fld (ra 0xA 0x40) 0 6)
    let st := structural s.nv.active s.nv.stage
    s.dev.fno + dr < t → t ≤ s.dev.fno + 2 ^ 20 → s.platGo = s.onDev (fun d => d.onPlat (fun x => { x with
      act := some { t := t, drain := dr, classes := 0x7C, structural := st, park := ! st && s.dev.bit (ra 0xA 0x40) 6 } })) := by
  intro t dr st hlo hhi
  have hlo : ¬ t ≤ s.dev.fno + dr := Nat.not_le.2 hlo
  have hhi : ¬ s.dev.fno + 2 ^ 20 < t := Nat.not_lt.2 hhi
  unfold State.platGo
  simp only [hl, hk, ha, hr, hd, h, hal]
  rw [if_neg (by decide), if_neg (by decide), if_neg (by decide), if_neg hlo, if_neg hhi, if_neg (by simp), if_neg (by simp)]

end

/-- At S, before T, the device drains (R382). -/
theorem execPlatDrainStart_of_due {s : State} {a : Act} (ha : s.dev.plat.act = some a) (hf : a.first = false) (hd : a.draining = false)
    (hlo : a.t ≤ s.dev.fno + a.drain) (hhi : s.dev.fno < a.t) : execPlatDrainStart s =
      .next (s.onDev (fun d => (d.onPlat (fun x => { x with act := some { a with draining := true } })).raiseAt 6 6 0 0)) := by
  simp only [execPlatDrainStart, devStep, State.onDev, ha]
  rw [if_pos ⟨by simp [hf], by simp [hd], hlo, hhi⟩]
  rfl

/-! ## An activation in its frame (R383, R384, R521) -/

/-- The frame of an activation has come. -/
def Dev.actComes (d : Dev) (a : Act) : Prop := if a.first then a.t ≤ d.now else a.t ≤ d.fno ∧ d.aligned = true

theorem execPlatActivate_of_tapHeld {s : State} {a : Act} (ha : s.dev.plat.act = some a) (ht : s.dev.tapHeld = true) (hh : s.dev.obvo.held = []) :
    execPlatActivate s = .next s := by
  simp [execPlatActivate, ha, ht, State.runHeld_of_none hh]

theorem execPlatActivate_of_comes {s : State} {a : Act} (ha : s.dev.plat.act = some a) (ht : s.dev.tapHeld = false) (hc : s.dev.actComes a) :
    execPlatActivate s = .next (s.platActivate a).runHeld := by
  unfold Dev.actComes at hc
  unfold execPlatActivate
  cases hf : a.first with
  | true =>
    rw [hf, if_pos rfl] at hc
    simp [ha, ht, hf, Nat.not_lt.2 hc]
  | false =>
    rw [hf, if_neg Bool.false_ne_true] at hc
    obtain ⟨hle, hal⟩ := hc
    simp [ha, ht, hf, hal, Nat.not_lt.2 hle]

section
variable {s : State} {a : Act} (hr : a.restore = false) (hs : a.structural = false)
include hr hs

/-- An epoch that is not above the floor ends the activation (R384). -/
theorem State.platActivate_of_old (h : cEpoch s.nv.stage ≤ s.nv.floor) : s.platActivate a = s.actEnds 0xA 8 0x700 := by
  simp [State.platActivate, State.actRefusal, hr, hs, h]

/-- One that breaks no rule is taken (R384). -/
theorem State.platActivate_of_allowed (he : s.nv.floor < cEpoch s.nv.stage) (hi : (s.dev.withPlat s.nv.stage).inShape s.dev.own = true)
    (h4 : s.dev.ruleFour (s.dev.withPlat s.nv.stage) = none) : s.platActivate a = s.actStage s.nv.stage (! a.first) := by
  simp [State.platActivate, State.actRefusal, hr, hs, Nat.not_le.2 he, hi, h4]

end

/-- A restore that is due is taken up: it arms an activation of the partition, or the partition is empty or does not verify (R376). -/
theorem execBootRestore_of_due {s : State} (hd : s.dev.col.restoreDue = true) (hst : s.dev.col.st = .ready) (hsv : s.dev.inService = true)
    (hp : s.dev.plat.active = false) (ha : s.dev.plat.act = none) (ht : s.dev.tapHeld = false) :
    let t := s.onDev (fun d => { d with col := { d.col with restoreDue := false } })
    execBootRestore s = .next (if bootOk s.dev s.nv then
        t.onDev (fun d => d.onPlat (fun y => { y with act := some { t := s.dev.now + 1, drain := 0, first := true, restore := true } }))
      else t.onDev (fun d => d.raise 0xA 0xF 0)) := by
  simp only [execBootRestore]
  rw [if_neg (by simp [hd, hst, hsv, hp, ha, ht])]

section
variable {s : State} {e : Dev} (he : s.dev.partsUp.evalAll = e) (hu : s.dev.dataUp = true) (hs : s.dev.inService = false)
  (hr : s.dev.rails = true) (ht : s.dev.pwr.trip = false)
include he hu hs hr ht

/-- The data path enters service in the first frame in which every part is UP, and a restore is due (R21, R469). -/
theorem execDataPathUp_of_no_apply (ha : s.dev.plat.apply = none) :
    execDataPathUp s = .next (State.runHeld { s with dev := { e with col := { e.col with restoreDue := true } } }) := by
  subst he
  unfold execDataPathUp
  simp only [ha]
  rw [if_neg (by simp [hu, hs, hr, ht]), State.onDev_onDev, State.onDev]

/-- It enters service with the plat of the structural activation whose reset has ended (R386). -/
theorem execDataPathUp_of_apply {b : List Byte} (ha : s.dev.plat.apply = some b) :
    execDataPathUp s = .next (State.runHeld (State.actStage { s with dev := e.onPlat (fun y => { y with apply := none }) } b false)) := by
  subst he
  unfold execDataPathUp
  simp only [ha]
  rw [if_neg (by simp [hu, hs, hr, ht]), State.onDev_onDev, State.onDev]

end

end Sys2Proof.Machine

namespace Sys2Proof.Claim
open Sys2Proof Sys2Proof.Machine

/-- Only the control register and what is armed change. -/
theorem armed_actCtlSet (s : State) (v : Word) (a : Option Act) :
    let t := (s.onDev (fun d => d.actCtlSet v)).onDev (fun d => d.onPlat (fun x => { x with act := a }))
    Kept s t ∧ RegsBut s t [ra 0xA 0x40] ∧ t.dev.rd (ra 0xA 0x40) = v &&& 0x7F ∧
      t.dev = { s.dev with regs := t.dev.regs, plat := { s.dev.plat with act := a } } :=
  ⟨⟨rfl, rfl, rfl⟩, regsBut_wr s _ _, Dev.rd_wr_self .., rfl⟩

/-- An activation that ends without effect raises its condition, and nothing is armed. -/
theorem raisedOn_actEnds (s : State) (b c det : Nat) :
    RaisedOn { s.dev with plat := { s.dev.plat with act := none } } (s.actEnds b c det).dev b c det 0 := by
  obtain ⟨_, hmem, hrd⟩ := raisedOn_raiseAt s.dev b c det 0
  refine ⟨?_, hmem, hrd⟩
  obtain ⟨_, _, _, _, h⟩ := s.dev.raiseAt_eq b c det 0
  simp only [State.actEnds, State.onDev, Dev.raise_eq, h]
  rfl

/-- What an activation of the stage that is taken leaves (R384). -/
theorem actStage_takes (s : State) (live : Bool) :
    let b := s.nv.stage
    let t := s.actStage b live
    t.pending = s.pending ∧ t.mem = s.mem ∧
      t.nv = { s.nv with floor := cEpoch b, boot := [b], active := b, stage := [], stageOk := false, stageTrail := false } ∧
      t.dev.plat.active = true ∧ t.dev.plat.epoch = cEpoch b ∧ t.dev.plat.fabric = cFabric b ∧ t.dev.plat.act = none ∧
      t.dev.plat.load = .empty ∧ t.dev.col.lockDue = true ∧ t.dev.col.m4 = sha256 (zeros 32 ++ sha256 b) ∧
      condWord 0xA 9 (cEpoch b % 65536) ∈ t.dev.words := by
  have hword := s.word_mem_actStage s.nv.stage live
  have hsteady := s.actStage_steady s.nv.stage live
  have hrest := s.actStage_rest s.nv.stage live
  dsimp only
  generalize s.actStage s.nv.stage live = t at *
  obtain ⟨hpend, hmem, hnv⟩ := hrest
  obtain ⟨hplat, hlock, hm4, _⟩ := Dev.of_steady hsteady
  exact ⟨hpend, hmem, hnv, by rw [hplat]; rfl, by rw [hplat]; rfl, by rw [hplat]; rfl, by rw [hplat]; rfl, by rw [hplat]; rfl, hlock, hm4, hword⟩

/-- Settles O50: arming, draining, and what the frame of an activation, a restore and the parts coming UP leave. -/
theorem platTakesEffectInItsFrame : Obligations.PlatTakesEffectInItsFrame := by
  unfold Obligations.PlatTakesEffectInItsFrame
  refine ⟨fun s src v hr => ?_, fun s a ha => ?_, fun s hd hst hsv hp ha ht => ?_, fun s hu hs hr ht hh => ?_⟩
  · have takes (c : Instr) (hc : WriteCmd c src (ra 0xA 0x40) v) {P : State → Prop} (hP : P (s.platActCtl v)) : Takes c s P :=
      hc.takes hr (by decide) (by decide) (isRwl_of_blk_ne (by decide)) (by rwa [State.writeAt_platActCtl])
    refine ⟨fun hg hc hl hk ha hra hd => ⟨fun hact => ?_, fun hact hal hlo hhi => ?_⟩, fun hg hc ha hdue => ?_⟩
    · refine takes _ ⟨fun _ => rfl, rfl, fun _ => rfl⟩ ?_
      rw [State.platActCtl_of_go hg hc, State.platGo_of_inactive (s := s.onDev (fun d => d.actCtlSet v)) hl hk ha hra hd hact]
      exact armed_actCtlSet s v _
    · refine takes _ ⟨fun _ => rfl, rfl, fun _ => rfl⟩ ?_
      obtain ⟨hfld, hbit, h64⟩ := s.dev.reads_actCtlSet v
      have hgo := State.platGo_of_active (s := s.onDev (fun d => d.actCtlSet v)) hl hk ha hra hd hact hal
      simp only [State.onDev_dev, State.onDev_nv, hfld, hbit, h64] at hgo
      rw [State.platActCtl_of_go hg hc, hgo hlo hhi]
      exact armed_actCtlSet s v _
    · refine takes _ ⟨fun _ => rfl, rfl, fun _ => rfl⟩ ?_
      have hcancel : (s.dev.actCtlSet v).platCancel = (s.dev.actCtlSet v).onPlat (fun x => { x with act := none }) :=
        if_pos ⟨Option.isSome_iff_ne_none.2 ha, by rw [show (s.dev.actCtlSet v).actDue = s.dev.actDue from rfl, hdue]; rfl⟩
      rw [State.platActCtl_of_cancel hg hc, onDev_of_eq hcancel]
      exact armed_actCtlSet s v none
  · refine ⟨fun hf hdr hlo hhi => ?_, fun ht hh => ?_, fun ht hh hr hs hc => ⟨fun he hi h4 => ?_, fun he => ?_⟩⟩
    · exact ⟨_, execPlatDrainStart_of_due ha hf hdr hlo hhi, ⟨rfl, rfl, rfl⟩, raisedOn_raiseAt ..⟩
    · exact ⟨s, execPlatActivate_of_tapHeld ha ht hh, rfl⟩
    · have hkeep := (Dev.of_steady (s.actStage_steady s.nv.stage (! a.first))).2.2.2.1
      refine runs_of_eq (t := s.actStage s.nv.stage (! a.first)) (execPlatActivate_of_comes ha ht hc) ?_ (actStage_takes s (! a.first))
      rw [State.platActivate_of_allowed hr hs he hi h4, State.runHeld_of_none (hkeep.trans hh)]
    · refine runs_of_eq (t := s.actEnds 0xA 8 0x700) (execPlatActivate_of_comes ha ht hc) ?_
        ⟨⟨rfl, rfl, rfl⟩, raisedOn_actEnds s 0xA 8 0x700⟩
      rw [State.platActivate_of_old hr hs he, State.runHeld_of_none (by rw [(raisedOn_actEnds s 0xA 8 0x700).1]; exact hh)]
  · have hex := execBootRestore_of_due hd hst hsv hp ha ht
    refine ⟨fun hok => ?_, fun hok => ?_⟩
    · exact ⟨_, hex.trans (congrArg _ (if_pos hok)), ⟨rfl, rfl, rfl⟩, rfl⟩
    · exact ⟨_, hex.trans (congrArg _ (if_neg (by simp [hok]))), ⟨rfl, rfl, rfl⟩, raisedOn_raiseAt ..⟩
  · have hup : s.dev.dataUp = true := by
      simpa [Dev.dataUp, or_imp, forall_and, and_assoc] using hu
    have hserve := s.dev.partsUp_evalAll_steady
    generalize he : s.dev.partsUp.evalAll = e at hserve
    obtain ⟨hplat, _, _, hheld, hin, hdies, hhbms, hbridges, hbusy, hpwr, hlfsr⟩ := Dev.of_steady hserve
    cases ha : s.dev.plat.apply with
    | none =>
      refine runs_of_eq (execDataPathUp_of_no_apply he hup hs hr ht ha) (State.runHeld_of_none (hheld.trans hh)) ?_
      refine ⟨rfl, rfl, hin, hdies, hhbms, hbridges, hbusy, by rw [hpwr], fun _ => ⟨rfl, rfl, hplat, ?_⟩, fun b hb => by cases hb⟩
      exact hlfsr.symm ▸ s.dev.seeds_ne_zero
    | some b =>
      have hex := execDataPathUp_of_apply he hup hs hr ht ha
      have hsteady := State.actStage_steady { s with dev := e.onPlat (fun y => { y with apply := none }) } b false
      have hrest := State.actStage_rest { s with dev := e.onPlat (fun y => { y with apply := none }) } b false
      generalize State.actStage { s with dev := e.onPlat (fun y => { y with apply := none }) } b false = t at *
      obtain ⟨hpend, hmem, hnv⟩ := hrest
      obtain ⟨tplat, _, _, theld, tin, tdies, thbms, tbridges, tbusy, tpwr, _⟩ := Dev.of_steady hsteady
      refine runs_of_eq hex (State.runHeld_of_none (theld.trans (hheld.trans hh))) ?_
      refine ⟨hpend, hmem, tin.trans hin, tdies.trans hdies, thbms.trans hhbms, tbridges.trans hbridges, tbusy.trans hbusy, ?_,
        fun h => (by cases h), ?_⟩
      · rw [tpwr]; exact congrArg Pwr.pAllow hpwr
      · rintro _ ⟨⟩
        rw [hnv, tplat]
        exact ⟨rfl, rfl, rfl, rfl⟩

end Sys2Proof.Claim
end

section
/-! PROOFS. The reset state (R51, R54, R98, R113, R226, R332, R426, R468). -/

namespace Sys2Proof.Claim
open Sys2Proof Sys2Proof.Machine

/-- LANE_CTL has one reset value on every lane. -/
theorem regRst_laneCtl {l : Nat} (h : l < 512) : regRst (rl 0 l) = 0x00406010 := by
  have hb : blk (rl 0 l) = 2 := by unfold blk rl; omega
  have ho : off (rl 0 l) = l * 0x1000 := by unfold off rl; omega
  have hlt : l * 0x1000 < 0x200000 := by omega
  simp [regRst, hb, ho, hlt]

/-- No packet, no queue entry and no loss: the books of an empty device. -/
theorem listsOk_reset : ListsOk State.reset.dev := ⟨rfl, by simp [State.reset], by simp [State.reset]⟩

/-- Settles O6: every field holds its default, and an unlisted register, lane, port or byte reads its reset value. -/
theorem resetState : Obligations.ResetState := by
  unfold Obligations.ResetState
  exact ⟨reset_wf, fun _ => rfl, listsOk_reset, rfl, rfl, rfl, rfl, rfl, fun _ => rfl, fun _ => rfl, rfl, rfl, rfl, rfl, rfl, rfl,
    rfl, rfl, rfl, rfl, rfl, rfl, fun _ => regRst_laneCtl⟩

end Sys2Proof.Claim
end

section
/-! PROOFS. TICKSYNC, RACKCLK and the frame markers of partners (R47-R51, R53, R546). -/

namespace Sys2Proof.Machine

/-! ## The stretched frame of an armed pulse (R48) -/

theorem skewOf_bounds (w : BitVec 6) : -32 ≤ skewOf w ∧ skewOf w ≤ 31 := by
  have := w.isLt
  unfold skewOf sInt
  simp only [Nat.mod_eq_of_lt this]
  split <;> omega

/-- The stretched frame is no shorter than a frame, and with the whole frames after it reaches the loaded boundary. -/
theorem stretch_spec {cyc dist : Nat} (h : 256 ≤ dist) :
    let r := stretch cyc dist
    256 ≤ r.1 ∧ r.2 ≤ 2 ∧ r.1 + 256 * r.2 = cyc + dist := by
  unfold stretch
  split
  · dsimp only; omega
  · split
    · dsimp only; omega
    · dsimp only; omega

theorem Dev.rd_setBit_ne (d : Dev) {a x : Nat} (i : Nat) (b : Bool) (h : x ≠ a) : (d.setBit a i b).rd x = d.rd x := d.rd_wr_ne _ h

theorem Dev.bit_setBit_self (d : Dev) (a : Nat) {i : Nat} (b : Bool) (h : i < 32) : (d.setBit a i b).bit a i = b := by
  unfold Dev.setBit Dev.setFld Dev.bit Machine.bit
  rw [Dev.rd_wr_self, getLsbD_setFld _ _ _ _ h, if_pos (by omega)]
  cases b <;> simp [b2n]

/-- Raising a condition leaves the changes of the Obvo ports that are due. -/
theorem Dev.raiseAt_due (d : Dev) (b c det i : Nat) : (d.raiseAt b c det i).obvo.due = d.obvo.due := by
  obtain ⟨_, _, _, _, h⟩ := d.raiseAt_eq b c det i
  rw [h]

theorem Dev.sideLater_sideLater (d : Dev) (x y : Side) (v w : ObvoSt) :
    (d.sideLater x v).sideLater y w = { d with obvo := { d.obvo with due := d.obvo.due ++ [(x, v), (y, w)] } } := by
  simp [Dev.sideLater, Dev.onObvo]

theorem Dev.not_free_of_aligned {d : Dev} (h : d.aligned = true) : d.frm.st ≠ .free ∧ d.frm.st ≠ .lost := by
  unfold Dev.aligned at h
  cases hs : d.frm.st <;> simp [hs] at h ⊢

end Sys2Proof.Machine

namespace Sys2Proof.Claim
open Sys2Proof Sys2Proof.Machine

/-- A command that acts on the device alone, whose result is known. -/
theorem runs_dev {c : Instr} {s : State} {f : Dev → Dev} {e : Dev} {P : State → Prop} (hex : exec c s = devStep f s) (he : f s.dev = e)
    (hP : P { s with dev := e }) : Runs c s P :=
  runs_of_eq hex (onDev_of_eq he) hP

/-- An armed pulse realigns the frames (R48). -/
theorem runs_armedPulse {s : State} {cyc : BitVec 9} (hl : s.dev.frm.st ≠ .lost) (ha : s.dev.bit (ra 1 0xC) 0 = true) {P : State → Prop}
    (hP : P { s with dev := s.dev.realign cyc.toNat }) : Runs (.ticksyncPulse cyc) s P :=
  runs_dev rfl (by rw [if_neg hl, if_pos ha]) hP

/-- An unarmed pulse is measured against the expected edge (R49). -/
theorem runs_unarmedPulse {s : State} {cyc : BitVec 9} (hal : s.dev.aligned = true) (ha : s.dev.bit (ra 1 0xC) 0 = false) {P : State → Prop}
    (hP : P { s with dev :=
      let o := s.dev.pulseOffset cyc.toNat
      if o = 0 then { s.dev with frm := { s.dev.frm with st := .locked, missRun := 0 } }
      else s.dev.raise 1 1 (if - 32768 ≤ o ∧ o < 32768 then uInt 16 o else (Config.slipDetail o).toNat) }) :
    Runs (.ticksyncPulse cyc) s P := by
  obtain ⟨hf, hl⟩ := Dev.not_free_of_aligned hal
  exact runs_dev rfl (by rw [if_neg hl, if_neg (by simp [ha]), if_neg hf]) hP

/-- Settles O10: the pulses, their absence, RACKCLK and the markers of partners, clause by clause. -/
theorem referenceClockKeepsTheFrame : Obligations.ReferenceClockKeepsTheFrame := by
  unfold Obligations.ReferenceClockKeepsTheFrame
  refine ⟨fun s cyc hl ha => runs_armedPulse hl ha ?_, fun s cyc hal ha ho => runs_unarmedPulse hal ha ?_,
    fun s cyc hal ha ho hlo hhi => runs_unarmedPulse hal ha ?_, fun s hal => runs_dev rfl (if_pos hal) ?_,
    fun s hl => runs_dev rfl (if_neg hl) ?_, fun s hl => runs_dev rfl (if_pos hl) ⟨⟨rfl, rfl, rfl⟩, rfl⟩,
    fun s p hs hg => runs_dev rfl (if_pos ⟨hs, hg⟩) ?_⟩
  · have hsk := skewOf_bounds (BitVec.ofNat 6 (s.dev.fld (ra 1 0x14) 0 6))
    obtain ⟨hlen, hj, hsum⟩ := stretch_spec (cyc := cyc.toNat)
      (dist := (512 + skewOf (BitVec.ofNat 6 (s.dev.fld (ra 1 0x14) 0 6))).toNat) (by omega)
    refine ⟨⟨rfl, rfl, rfl⟩, rfl, fun a h => Dev.rd_setBit_ne _ 0 false (by simpa using h), Dev.bit_setBit_self _ _ false (by decide),
      rfl, rfl, rfl, rfl, hlen, _, hj, rfl, ?_⟩
    change ((stretch _ _).1 : Int) + _ = _
    omega
  · rw [if_pos ho]
    exact ⟨⟨rfl, rfl, rfl⟩, rfl⟩
  · rw [if_neg ho, if_pos ⟨hlo, hhi⟩]
    exact ⟨⟨rfl, rfl, rfl⟩, raisedOn_raiseAt ..⟩
  · refine ⟨⟨rfl, rfl, rfl⟩, raisedOn_raiseAt .., ?_⟩
    rw [Dev.raise_eq, Dev.raiseAt_rd _ _ _ _ _ (by decide) (by decide)]
    exact Dev.rd_wr_self ..
  · refine ⟨⟨rfl, rfl, rfl⟩, _, raisedOn_raiseAt .., ?_⟩
    rw [Dev.sideLater_sideLater, Dev.raise_eq, Dev.raiseAt_due]
  · exact ⟨⟨rfl, rfl, rfl⟩, rfl, Dev.port_setPort_self .., fun q hq => Dev.port_setPort_ne _ _ hq⟩

end Sys2Proof.Claim
end

section
/-! PROOFS. Reads of the frame number and its latch (R54, R59). -/

namespace Sys2Proof.Machine

/-- FRM lies on the Col die: a read of one of its registers is answered (R29, R38). -/
theorem State.readOut_frm (s : State) (src : Src) {o : Nat} (ho : o < 0x1000000) (h4 : o % 4 = 0) :
    s.readOut src (ra 1 o) = (s.read src (ra 1 o)).2.onDev (fun d => d.emit (.read src (ra 1 o) (s.read src (ra 1 o)).1)) := by
  unfold State.readOut
  rw [if_neg (by unfold ra; omega), Dev.dieRefusal_of_blk_le_one _ (by rw [blk_ra 1 ho])]

/-- FRM_NO_LO names the frame in progress. -/
theorem State.view_frmNoLo (s : State) : s.view (ra 1 0) = BitVec.ofNat 32 s.dev.frm.no.toNat := rfl

end Sys2Proof.Machine

namespace Sys2Proof.Claim
open Sys2Proof Sys2Proof.Machine

/-- A read that reaches the device waits, is sampled as one read of its register, and is answered by what the register reads then. -/
theorem reads_frm {c : Instr} {s : State} {src : Src} {o : Nat} (hh : Heard s src) (hw : exec c s = .next (s.waitFrom src c))
    (ht : s.takeInput c = s.onDev (fun d => d.takeRead src (ra 1 o))) (ho : o < 0x1000000) (h4 : o % 4 = 0) {P : State → Prop}
    (hP : P ((s.read src (ra 1 o)).2.onDev (fun d => d.emit (.read src (ra 1 o) (s.read src (ra 1 o)).1)))) : Reads c s P := by
  refine ⟨by rw [hw, hh.waitFrom], ⟨src, .one (ra 1 o), s.dev.obvo.nextCmd⟩, by rw [ht]; rfl, ?_⟩
  have hanswer (r : RdAct) (hk : r.kind = .one (ra 1 o)) (hs : r.src = src) : s.answerRead r = s.readOut src (ra 1 o) := by
    simp [State.answerRead, hk, hs]
  rw [hanswer _ rfl rfl, State.readOut_frm s src ho h4]
  exact hP

/-- Settles O12: the low half latches the high half of the frame in progress for its source alone, and the high half reads that latch. -/
theorem frameNumberReadsNameOneFrame : Obligations.FrameNumberReadsNameOneFrame := by
  unfold Obligations.FrameNumberReadsNameOneFrame
  refine ⟨fun s src hh => reads_frm (o := 0) hh rfl rfl (by decide) (by decide) ⟨⟨rfl, rfl, rfl⟩, ?_⟩,
    fun s src hh => reads_frm (o := 4) hh rfl rfl (by decide) (by decide) ⟨⟨rfl, rfl, rfl⟩, ?_⟩, rfl, rfl, rfl⟩
  · cases src <;> rfl
  · cases src <;> rfl

end Sys2Proof.Claim
end

section
/-! PROOFS. The verdict of a packet: confirmation and stomp (R71, R73, R150, R158, R490). -/

namespace Sys2Proof.Machine

/-! ## Counters of two registers (R494) -/

theorem Dev.rd_add64_ne (d : Dev) {a b : Nat} (n : Nat) (h : b ≠ a) (h4 : b ≠ a + 4) : (d.add64 a n).rd b = d.rd b := by
  rw [Dev.add64, Dev.wr64, Dev.rd_wr_ne _ _ h4, Dev.rd_wr_ne _ _ h]

theorem Dev.rd64_lt (d : Dev) (a : Nat) : d.rd64 a < 2 ^ 64 := by
  have := (d.rd a).isLt
  have := (d.rd (a + 4)).isLt
  unfold Dev.rd64
  omega

theorem Dev.rd64_congr {d e : Dev} (h : ∀ a, d.rd a = e.rd a) (a : Nat) : d.rd64 a = e.rd64 a := by rw [Dev.rd64, h, h, Dev.rd64]

theorem Dev.rd_add64_self (d : Dev) (a n : Nat) : (d.add64 a n).rd a = BitVec.ofNat 32 (d.rd64 a + n) := by
  rw [Dev.add64, Dev.wr64, Dev.rd_wr_ne _ _ (by omega), Dev.rd_wr_self]

theorem Dev.rd64_add64_self (d : Dev) (a n : Nat) : (d.add64 a n).rd64 a = (d.rd64 a + n) % 2 ^ 64 := by
  have hhi : (d.add64 a n).rd (a + 4) = BitVec.ofNat 32 ((d.rd64 a + n) / 2 ^ 32) := by
    rw [Dev.add64, Dev.wr64, Dev.rd_wr_self]
  rw [Dev.rd64, d.rd_add64_self, hhi, BitVec.toNat_ofNat, BitVec.toNat_ofNat]
  omega

theorem Dev.rd64_add64_ne (d : Dev) {a b : Nat} (n : Nat) (h : b + 4 < a ∨ a + 4 < b) : (d.add64 a n).rd64 b = d.rd64 b := by
  rw [Dev.rd64, d.rd_add64_ne n (by omega) (by omega), d.rd_add64_ne n (by omega) (by omega), Dev.rd64]

/-- A port's counters of packets and bytes on a VC after one more packet. -/
theorem Dev.rd64_add64_pair (d : Dev) (a m n : Nat) :
    ((d.add64 a m).add64 (a + 8) n).rd64 (a + 8) = (d.rd64 (a + 8) + n) % 2 ^ 64 ∧
      ((d.add64 a m).add64 (a + 8) n).rd64 a = (d.rd64 a + m) % 2 ^ 64 ∧
      ∀ b, b ∉ [a, a + 4, a + 8, a + 12] → ((d.add64 a m).add64 (a + 8) n).rd b = d.rd b := by
  refine ⟨?_, ?_, fun b hb => ?_⟩
  · rw [Dev.rd64_add64_self, Dev.rd64_add64_ne _ _ (by omega)]
  · rw [Dev.rd64_add64_ne _ _ (by omega), Dev.rd64_add64_self]
  · simp only [List.mem_cons, List.not_mem_nil, or_false, not_or] at hb
    obtain ⟨h0, h4, h8, h12⟩ := hb
    rw [Dev.rd_add64_ne _ _ h8 (by omega), Dev.rd_add64_ne _ _ h0 h4]

/-! ## What a verdict leaves of packets, queue and losses -/

/-- Packets, queue entries and the losses noted. -/
def Dev.traffic (d : Dev) : List Pkt × List QEnt × List (Packet × Word) := (d.pkts, d.queue, d.lost)

theorem Dev.traffic_eq {d e : Dev} (h : e.traffic = d.traffic) : e.pkts = d.pkts ∧ e.queue = d.queue ∧ e.lost = d.lost := by
  simpa [Dev.traffic] using h

theorem Dev.OnlyReports.lost {d e : Dev} (h : d.OnlyReports e) : e.lost = d.lost := by obtain ⟨_, _, _, _, rfl⟩ := h; rfl
theorem Dev.OnlyReports.traffic {d e : Dev} (h : d.OnlyReports e) : e.traffic = d.traffic := by obtain ⟨_, _, _, _, rfl⟩ := h; rfl
theorem Dev.OnlyHolds.traffic {d e : Dev} (h : d.OnlyHolds e) : e.traffic = d.traffic := by obtain ⟨_, _, _, _, rfl⟩ := h; rfl
theorem Dev.OnlyHolds.rd {d e : Dev} (h : d.OnlyHolds e) (a : Nat) : e.rd a = d.rd a := by obtain ⟨_, _, _, _, rfl⟩ := h; rfl

theorem Dev.ptrFault_traffic (d : Dev) (k j : Nat) (b : Option Nat) : (d.ptrFault k j b).traffic = d.traffic := by
  have hr : ((d.addSat (ra 5 (0x400F00 + 0x1000 * k)) 1).raise 5 1 (k * 0x4000 + j * 0x800)).traffic = d.traffic :=
    (Dev.OnlyReports.raiseAt ..).traffic
  unfold Dev.ptrFault
  dsimp only
  split
  · split
    · exact hr
    · exact hr
  · exact hr

theorem Dev.takeBack_traffic (d : Dev) (k j pid i : Nat) : (d.takeBack k j pid i).traffic = d.traffic := by
  unfold Dev.takeBack
  dsimp only
  split
  · rfl
  · split
    · rfl
    · split_ifs
      · rw [Dev.ptrFault_traffic]
        exact (Dev.OnlyReports.raiseAt ..).traffic
      · rfl
      · rfl

theorem Dev.freeEnt_traffic (d : Dev) (q : QEnt) : (d.freeEnt q).traffic = d.traffic :=
  foldl_keeps Dev.traffic _ _ _ fun x _ => x.takeBack_traffic ..

theorem Dev.giveBack_traffic (d : Dev) (q : QEnt) : (d.giveBack q).traffic = d.traffic := by
  unfold Dev.giveBack
  dsimp only
  split <;> rfl

theorem Dev.nameBad_traffic (d : Dev) (id : Nat) : (d.nameBad id).traffic = d.traffic :=
  foldl_keeps Dev.traffic _ _ _ fun _ _ => foldl_keeps Dev.traffic _ _ _ fun _ _ => rfl

theorem Dev.catUndo_traffic (d : Dev) (k : Pkt) : (d.catUndo k).traffic = d.traffic := by
  unfold Dev.catUndo
  dsimp only
  split
  · rfl
  · split
    · rfl
    · split <;> rfl

theorem Dev.fanUndo_traffic (d : Dev) (k : Pkt) : (d.fanUndo k).traffic = d.traffic := by
  unfold Dev.fanUndo
  split <;> rfl

theorem Dev.countStomp_traffic (d : Dev) (ing : Option Nat) (h : Header) : (d.countStomp ing h).traffic = d.traffic := by
  cases ing with
  | none => rfl
  | some p => exact (Dev.OnlyReports.countDrop d p _ _ _ _).traffic

theorem Dev.stageRec_traffic (d : Dev) (c kind p dir : Nat) (h : Option Header) (fno : Nat) (w : Word) (data : List Byte) :
    (d.stageRec c kind p dir h fno w data).traffic = d.traffic := by
  unfold Dev.stageRec
  dsimp only
  split
  · exact (Dev.OnlyReports.raiseOnce ..).traffic
  · rfl

theorem Dev.capStomp_traffic (d : Dev) (p : Nat) (h : Header) : (d.capStomp p h).traffic = d.traffic :=
  foldl_keeps Dev.traffic _ _ _ fun x _ => x.stageRec_traffic ..

/-- A train completed void: its entries stay, stomped (R73, R151). -/
theorem Dev.voidEnt_queue (d : Dev) (q : QEnt) (u : Nat) : ∃ pk, (d.voidEnt q u).queue =
    d.queue.map (fun x => if x.key = q.key then { x with stomped := true, charge := u, pk := pk } else x) := by
  obtain ⟨_, hq, _⟩ := Dev.traffic_eq (d.freeEnt_traffic q)
  exact ⟨_, congrArg (List.map _) hq⟩

theorem Dev.voidEnt_lost (d : Dev) (q : QEnt) (u : Nat) : (d.voidEnt q u).lost = d.lost := (Dev.traffic_eq (d.freeEnt_traffic q)).2.2

/-- What a packet's release does with one of its entries. -/
def Dev.letGo (d : Dev) (q : QEnt) : Dev := if q.begun then (d.giveBack q).voidEnt q 0 else (d.giveBack q).freeEnt q

theorem Dev.letGo_lost (d : Dev) (q : QEnt) : (d.letGo q).lost = d.lost := by
  obtain ⟨_, _, hb⟩ := Dev.traffic_eq (d.giveBack_traffic q)
  unfold Dev.letGo
  split
  · rw [Dev.voidEnt_lost, hb]
  · rw [(Dev.traffic_eq (Dev.freeEnt_traffic _ q)).2.2, hb]

/-- An entry let go is stomped where its train has begun; no other is changed. -/
theorem Dev.letGo_queue (d : Dev) (q : QEnt) : ∀ e ∈ (d.letGo q).queue, ∃ x ∈ d.queue, e.pid = x.pid ∧ e.key = x.key ∧ e.begun = x.begun ∧
    (x.stomped = true ∨ (q.begun = true ∧ q.key = x.key) → e.stomped = true) := by
  obtain ⟨_, hb, _⟩ := Dev.traffic_eq (d.giveBack_traffic q)
  unfold Dev.letGo
  split
  next hbeg =>
    obtain ⟨pk, hv⟩ := Dev.voidEnt_queue (d.giveBack q) q 0
    rw [hv, hb]
    intro e he
    obtain ⟨x, hx, rfl⟩ := List.mem_map.1 he
    refine ⟨x, hx, ?_⟩
    by_cases hk : x.key = q.key
    · simp [hk]
    · simp [hk, Ne.symm hk]
  next hbeg =>
    rw [(Dev.traffic_eq (Dev.freeEnt_traffic _ q)).2.1, hb]
    exact fun e he => ⟨e, he, rfl, rfl, rfl, fun h => h.elim id fun h => absurd h.1 hbeg⟩

theorem Dev.foldl_letGo_queue (l : List QEnt) (d : Dev) : ∀ e ∈ (l.foldl Dev.letGo d).queue, ∃ x ∈ d.queue, e.pid = x.pid ∧ e.key = x.key ∧
    e.begun = x.begun ∧ (x.stomped = true ∨ (∃ q ∈ l, q.begun = true ∧ q.key = x.key) → e.stomped = true) := by
  induction l generalizing d with
  | nil => exact fun e he => ⟨e, he, rfl, rfl, rfl, fun h => h.elim id fun ⟨_, hq, _⟩ => absurd hq (List.not_mem_nil)⟩
  | cons q l ih =>
    intro e he
    obtain ⟨y, hy, hpid, hkey, hbeg, hst⟩ := ih (d.letGo q) e he
    obtain ⟨x, hx, hpid', hkey', hbeg', hst'⟩ := d.letGo_queue q y hy
    refine ⟨x, hx, hpid.trans hpid', hkey.trans hkey', hbeg.trans hbeg', fun h => hst ?_⟩
    rcases h with h | ⟨z, hz, hzb, hzk⟩
    · exact .inl (hst' (.inl h))
    · rcases List.mem_cons.1 hz with rfl | hz
      · exact .inl (hst' (.inr ⟨hzb, hzk⟩))
      · exact .inr ⟨z, hz, hzb, hzk.trans hkey'.symm⟩

/-- The copies of a packet released: what is left of them is begun, and completed void. -/
theorem Dev.release_queue (d : Dev) (id : Nat) : ∀ e ∈ (d.release id).queue, e.pid = id → e.begun = true ∧ e.stomped = true := by
  intro e he hid
  obtain ⟨he, hbeg⟩ := List.mem_filter.1 he
  replace hbeg : e.begun = true := by simpa [hid] using hbeg
  obtain ⟨x, hx, hpid, hkey, hb, hst⟩ := Dev.foldl_letGo_queue _ d e he
  refine ⟨hbeg, hst ?_⟩
  by_cases hs : x.stomped = true
  · exact .inl hs
  · exact .inr ⟨x, List.mem_filter.2 ⟨hx, by simp [← hpid, hid, hs]⟩, hb ▸ hbeg, rfl⟩

theorem Dev.release_lost (d : Dev) (id : Nat) : (d.release id).lost = d.lost :=
  foldl_keeps Dev.lost _ _ _ fun x q => x.letGo_lost q

/-- A packet stomped has left the device, and its copies that have not begun the queue (R73). -/
theorem Dev.stomp_spec (d : Dev) (k : Pkt) : (∀ x ∈ (d.stomp k).pkts, x.id ≠ k.id) ∧
    (∀ q ∈ (d.stomp k).queue, q.pid = k.id → q.begun = true ∧ q.stomped = true) ∧ (d.stomp k).lost = d.lost := by
  have h4 : (((((d.release k.id).nameBad k.id).catUndo k).fanUndo k).countStomp k.ing k.pk.hdr).traffic = (d.release k.id).traffic := by
    rw [Dev.countStomp_traffic, Dev.fanUndo_traffic, Dev.catUndo_traffic, Dev.nameBad_traffic]
  have h5 : ∃ e : Dev, e.traffic = (d.release k.id).traffic ∧ d.stomp k = e.rmPkt k.id := by
    unfold Dev.stomp
    dsimp only
    split
    · exact ⟨_, (Dev.capStomp_traffic ..).trans h4, rfl⟩
    · exact ⟨_, h4, rfl⟩
  obtain ⟨e, he, hs⟩ := h5
  obtain ⟨_, hq, hl⟩ := Dev.traffic_eq he
  rw [hs]
  refine ⟨e.not_mem_rmPkt k.id, fun q hm => ?_, hl.trans (d.release_lost k.id)⟩
  exact d.release_queue k.id q (hq ▸ hm)

theorem Dev.giveVerds_traffic (d : Dev) (ps : List Nat) (id : Nat) : (d.giveVerds ps id).traffic = d.traffic :=
  foldl_keeps Dev.traffic _ _ _ fun _ _ => rfl

theorem Dev.giveVerds_rd (d : Dev) (ps : List Nat) (id a : Nat) : (d.giveVerds ps id).rd a = d.rd a :=
  foldl_keeps (fun x : Dev => x.rd a) _ _ _ fun _ _ => rfl

/-- Where no loss is noted, the end of a verdict leaves packets, queue and registers. -/
theorem Dev.afterVerdict_of_none {d : Dev} (h : d.lost = []) (ps : List Nat) (id : Nat) :
    (d.afterVerdict ps id).traffic = d.traffic ∧ ∀ a, (d.afterVerdict ps id).rd a = d.rd a := by
  rw [Dev.afterVerdict, Dev.settleLoss_of_none h]
  have hh := Dev.OnlyHolds.holdsMoved (d.giveVerds ps id)
  exact ⟨hh.traffic.trans (d.giveVerds_traffic ps id), fun a => (hh.rd a).trans (d.giveVerds_rd ps id a)⟩

/-! ## Confirmation (R71, R490) -/

theorem Dev.capPacket_of_no_caps {d : Dev} (h : d.caps = []) (p dir : Nat) (pk : Packet) (fno : Nat) : d.capPacket p dir pk fno = d := by
  have hon : d.capOn p dir = [] := by
    refine List.filter_eq_nil_iff.2 fun c _ => ?_
    have : (d.cap_ c).st = ({} : Cap).st := by rw [Dev.cap_, h]; rfl
    simp [this]
  rw [Dev.capPacket, hon]
  rfl

theorem Dev.winBytes_rd (d : Dev) (p dir n a : Nat) : (d.winBytes p dir n).rd a = d.rd a := rfl

/-- The counters of a packet received on its VC. -/
theorem Dev.countRx_rd (d : Dev) (p : Nat) (h : Header) (b : Nat) : (d.countRx p h).rd b =
    ((d.add64 (rp 0x10 (0x100 + 0x20 * h.vc.toNat) p) (pktLen h)).add64 (rp 0x10 (0x100 + 0x20 * h.vc.toNat) p + 8) 1).rd b := by
  rw [Dev.countRx, Dev.winBytes_rd]

/-- What a good verdict makes of a packet that waits in its hold. -/
def Pkt.confirmed (k : Pkt) : Pkt := { k with conf := true, dues := [], owed := none, sentOn := [] }

/-- A packet is confirmed in its hold and on its queue entries. -/
def Dev.confirms (d : Dev) (id : Nat) : Dev :=
  ({ d with queue := d.queue.map (fun q => if q.pid = id then { q with conf := true } else q) } : Dev).onPkt id Pkt.confirmed

theorem Dev.confirms_rd (d : Dev) (id a : Nat) : (d.confirms id).rd a = d.rd a := rfl

/-- The commit of a packet that waits in its hold and owes nothing: it is counted and confirmed. -/
theorem Dev.commit_of_hold {d : Dev} {k : Pkt} {p : Nat} (hing : k.ing = some p) (hrole : d.emuRole p = 0) (hst : k.st = .hold)
    (hdues : k.dues = []) (howed : k.owed = none) (hsent : k.sentOn = []) (hcaps : d.caps = []) :
    d.commit k = (d.countRx p k.arrived.hdr).confirms k.id := by
  have hemu : d.isEmu p = false := by simp [Dev.isEmu, hrole]
  have hcap : (d.countRx p k.arrived.hdr).capPacket p 0 k.arrived k.stamp = d.countRx p k.arrived.hdr :=
    Dev.capPacket_of_no_caps (d := d.countRx p k.arrived.hdr) hcaps ..
  unfold Dev.commit
  extract_lets p' d1 d2 d3 d4 d5 d6
  have hp : p' = p := by simp only [p', hing, Option.getD_some]
  have h1 : d1 = d.countRx p k.arrived.hdr := by simp only [d1, hp, hcap]
  have h3 : d3 = d1.confirms k.id := rfl
  have h5 : d5 = d3 := by simp only [d5, howed, d4, hdues, Dev.settleDues, List.foldl_nil]
  have h6 : d6 = d3 := by simp only [d6, hsent, List.foldl_nil, h5]
  rw [hst, hp, hemu, h6, h3, h1]
  exact if_neg Bool.false_ne_true

/-- A good verdict on such a packet: the counters of its VC, the packet and its entries change, and no other. -/
theorem Dev.confirmed_spec {d : Dev} {k : Pkt} {p : Nat} (hing : k.ing = some p) (hrole : d.emuRole p = 0) (hst : k.st = .hold)
    (hdues : k.dues = []) (howed : k.owed = none) (hsent : k.sentOn = []) (hcaps : d.caps = []) (hlost : d.lost = []) (ps : List Nat)
    (id : Nat) : let e := (d.commit k).afterVerdict ps id
    e.pkts = (d.confirms k.id).pkts ∧ e.queue = (d.confirms k.id).queue ∧ ∀ b, e.rd b = (d.countRx p k.arrived.hdr).rd b := by
  rw [Dev.commit_of_hold hing hrole hst hdues howed hsent hcaps]
  obtain ⟨htr, hrd⟩ := Dev.afterVerdict_of_none (d := (d.countRx p k.arrived.hdr).confirms k.id) hlost ps id
  obtain ⟨hp, hq, -⟩ := Dev.traffic_eq htr
  exact ⟨hp, hq, fun b => (hrd b).trans (Dev.confirms_rd ..)⟩

end Sys2Proof.Machine

namespace Sys2Proof.Claim
open Sys2Proof Sys2Proof.Machine

section
variable {s : State} {id : Nat} {k : Pkt} (hk : s.dev.pkt id = some k) (hconf : k.conf = false)
include hk hconf

theorem exec_cellConfirm_of_good (hv : k.verd = true) (h0 : k.pk.verdict = 0) (hcrc : k.pk.crc = pktCrc k.arrived.hdr k.pk.payload) :
    exec (.cellConfirm id) s = .next { s with dev := (s.dev.commit k).afterVerdict (s.dev.unsureOn id) id } := by
  refine congrArg Host.Outcome.next (onDev_of_eq ?_)
  rw [hk]
  dsimp only
  rw [if_neg (by simp [hconf, hv]), if_neg (by simp [h0]), if_neg (by simp [hcrc])]

theorem exec_cellConfirm_of_verdict (hv : k.verd = true) (h0 : k.pk.verdict ≠ 0) :
    exec (.cellConfirm id) s = .next { s with dev := (s.dev.stomp k).afterVerdict (s.dev.unsureOn id) id } := by
  refine congrArg Host.Outcome.next (onDev_of_eq ?_)
  rw [hk]
  dsimp only
  rw [if_neg (by simp [hconf, hv]), if_pos h0]

theorem exec_cellConfirm_of_crc {p : Nat} (hing : k.ing = some p) (hrole : s.dev.emuRole p = 0) (hv : k.verd = true) (h0 : k.pk.verdict = 0)
    (hcrc : k.pk.crc ≠ pktCrc k.arrived.hdr k.pk.payload) : exec (.cellConfirm id) s = .next { s with
      dev := ((((s.dev.raise 4 0xA (ingDetail k.ing)).countPkt 0xA k.ing).stomp k).afterVerdict (s.dev.unsureOn id) id) } := by
  refine congrArg Host.Outcome.next (onDev_of_eq ?_)
  rw [hk]
  dsimp only
  rw [if_neg (by simp [hconf, hv]), if_neg (by simp [h0]), if_pos hcrc, if_neg (by simp [hing, hrole])]

theorem exec_cellStomp_of_unconfirmed :
    exec (.cellStomp id) s = .next { s with dev := (s.dev.stomp k).afterVerdict (s.dev.unsureOn id) id } := by
  refine congrArg Host.Outcome.next (onDev_of_eq ?_)
  rw [hk]
  dsimp only
  rw [if_neg (by simp [hconf])]

end

/-- A verdict that stomps: whatever was reported of the packet first, it is gone. -/
theorem runs_stomped {c : Instr} {s : State} {id : Nat} {k : Pkt} {e : Dev} {ps : List Nat} (hid : k.id = id) (hl : s.dev.lost = [])
    (he : s.dev.OnlyReports e) (hex : exec c s = .next { s with dev := (e.stomp k).afterVerdict ps id }) :
    Runs c s fun t => Kept s t ∧ (∀ x ∈ t.dev.pkts, x.id ≠ id) ∧ ∀ q ∈ t.dev.queue, q.pid = id → q.begun = true ∧ q.stomped = true := by
  obtain ⟨hp, hq, hlost⟩ := e.stomp_spec k
  obtain ⟨hp', hq', -⟩ := Dev.traffic_eq (Dev.afterVerdict_of_none (hlost.trans (he.lost.trans hl)) ps id).1
  subst hid
  exact ⟨_, hex, ⟨rfl, rfl, rfl⟩, fun x hx => hp x (hp' ▸ hx), fun q hm => hq q (hq' ▸ hm)⟩

/-- Settles O29: the verdicts on a packet, clause by clause. -/
theorem confirmationAndStomp : Obligations.ConfirmationAndStomp := by
  unfold Obligations.ConfirmationAndStomp
  intro s id k p d hk hconf hing hlost hrole Gone a
  have hid := Dev.id_of_pkt hk
  refine ⟨fun hverd hv hcrc hst hdues howed hsent hcaps _ => ?_,
    fun hverd hv => runs_stomped hid hlost (.refl _) (exec_cellConfirm_of_verdict hk hconf hverd hv),
    fun hverd hv hcrc => runs_stomped hid hlost ((Dev.OnlyReports.raiseAt ..).trans (.countPkt ..))
      (exec_cellConfirm_of_crc hk hconf hing hrole hverd hv hcrc),
    runs_stomped hid hlost (.refl _) (exec_cellStomp_of_unconfirmed hk hconf)⟩
  obtain ⟨hp, hq, hrd⟩ := Dev.confirmed_spec hing hrole hst hdues howed hsent hcaps hlost (s.dev.unsureOn id) id
  obtain ⟨hn, hbytes, hother⟩ := d.rd64_add64_pair a (pktLen k.arrived.hdr) 1
  simp only [Dev.countRx_rd] at hrd
  rw [hid] at hp hq
  exact ⟨_, exec_cellConfirm_of_good hk hconf hverd hv hcrc, ⟨rfl, rfl, rfl⟩, (Dev.rd64_congr hrd _).trans hn,
    (Dev.rd64_congr hrd _).trans hbytes, hp, hq, fun b hb => (hrd b).trans (hother b hb)⟩

end Sys2Proof.Claim
end

section
/-! PROOFS. The header of a received packet (R157, R202, R206). -/

namespace Sys2Proof.Machine

theorem Dev.OnlyHolds.regs {d e : Dev} (h : d.OnlyHolds e) : e.regs = d.regs := by obtain ⟨_, _, _, _, rfl⟩ := h; rfl

/-- An intermediate device drawn for a packet is counted in the ROUTE block (R206). -/
theorem Dev.drawVia_regs (d : Dev) (p : Nat) (h : Header) (e : DtE) : (d.drawVia p h e).1.regs = (d.add64 (ra 6 0xA8) 1).regs := by
  unfold Dev.drawVia
  extract_lets k r l i d1
  split <;> rfl

/-- A packet that passes the tests of R157 and is to take a Valiant way: the draw is counted, whatever comes of the packet. -/
theorem Dev.resolve_regs_of_valiant {d : Dev} {p : Nat} {k : Pkt} (ht : d.tests (some p) k.pk.hdr = none)
    (hv : d.valiant p k.pk.hdr (d.dt k.pk.hdr.dstId.toNat) = true) : (d.resolve p k).1.regs = (d.add64 (ra 6 0xA8) 1).regs := by
  unfold Dev.resolve
  extract_lets h0 gone e
  rw [ht]
  dsimp only
  rw [if_pos hv]
  have hdraw := d.drawVia_regs p h0 e
  generalize d.drawVia p h0 e = r at hdraw ⊢
  obtain ⟨d1, h1⟩ := r
  dsimp only
  split
  · exact hdraw
  · split
    · exact hdraw
    · split <;> exact hdraw

/-- The lookup of a packet changes the registers that its resolution changes. -/
theorem Dev.lookup_regs (d : Dev) (p : Nat) (pk : Packet) (tag rseq : BitVec 12) : (d.lookup p pk tag rseq).regs =
    (d.resolve p { id := 0, ing := some p, fromSw := d.pSwitch p, pk := { pk with hdr := d.lookHdr p pk.hdr }, arr := some pk.hdr
                   tag0 := tag, rseq0 := rseq, since := d.now, verd := ! pk.hdr.spec }).1.regs := rfl

/-- The cells of a packet that begins on port `p` advance its tags (R72). -/
def Dev.tagsPast (d : Dev) (p : Nat) (h : Header) : Dev :=
  d.onPort p (fun y => { y with rxTag := y.rxTag + BitVec.ofNat 12 (cellsOfPkt h), rxNext := y.rxNext + BitVec.ofNat 12 (cellsOfPkt h) })

/-- A header on a valid VC of a port that takes cells, in time and with room: the packet is looked up. -/
theorem execHeaderLookup_of_room {s : State} {p : BitVec 7} {pk : Packet} {k : Nat} (hc : takesCells (s.dev.port p.toNat) = true)
    (hr : (s.dev.port p.toNat).reqOpen = false) (hemu : s.dev.isEmu p.toNat = false)
    (hv : vcValid (s.dev.pSwitch p.toNat) pk.hdr.cls.toNat pk.hdr.vc.toNat = true) (ho : s.dev.overruns p.toNat pk.hdr k = false)
    (hf : s.dev.holdFull p.toNat pk.hdr = false) : execHeaderLookup p pk k s = .next { s with
      dev := ((s.dev.tagsPast p.toNat pk.hdr).lookup p.toNat pk (s.dev.port p.toNat).rxTag (s.dev.port p.toNat).rxNext).holdsMoved } := by
  refine congrArg (fun e => Host.Outcome.next { s with dev := e }) ?_
  beta_reduce
  extract_lets n x h m d1 d2 d3
  have h3 : d3 = s.dev.tagsPast n h := (if_neg (by simp [n, h, ho])).trans (if_pos hv)
  rw [if_neg (by simp [x, n, hc, hr]), if_neg (by simp [n, hemu]), if_neg (by simp [n, h, hf]), h3]

end Sys2Proof.Machine

namespace Sys2Proof.Claim
open Sys2Proof Sys2Proof.Machine

/-- A packet of class 3 for the endpoint 3, which is another device's. -/
def viaHdr : Header := { Tests.hd0 with vc := 6, cls := 3, slice := 1 }

/-- A torus of 16 × 16 × 2 devices with Valiant routing for class 3: endpoint 2 is on port 1 of this device, endpoint 3 on the device
of coordinate 1. -/
def viaDev : Dev := { Tests.dSw with
  regs := [Tests.pv 0, Tests.pv 1, (ra 4 (0x800000 + 8 * 2), 0x3F01), (ra 4 (0x800004 + 8 * 2), 0x01FE0001),
           (ra 4 (0x800000 + 8 * 3), 0x00103F01), (ra 4 (0x800004 + 8 * 3), 0x01FE0000), (ra 4 0x400020, 1), (ra 4 0x400024, 3),
           (ra 4 4, 2), (ra 6 4, 0x010001FF)] }

/-- The packet. -/
def viaPkt : Packet := { Tests.pk0 with hdr := viaHdr }

/-- Refutes O28: a packet that is to take a Valiant way has the draw of its intermediate device counted in ROUTE (R206), so that a register
changes. -/
theorem not_headerLookupPlacesPacket : ¬ Obligations.HeaderLookupPlacesPacket := by
  unfold Obligations.HeaderLookupPlacesPacket
  intro h
  obtain ⟨t, hex, -, -, hregs, -⟩ := h { State.reset with dev := viaDev } 1 viaPkt 0 (by decide) (by decide) (by decide) (by decide) (by decide)
  have hrun := execHeaderLookup_of_room (s := { State.reset with dev := viaDev }) (p := 1) (pk := viaPkt) (k := 0) (by decide) (by decide)
    (by decide) (by decide) (by decide) (by decide)
  obtain rfl := Host.Outcome.next.inj (hex.symm.trans hrun)
  rw [(Dev.OnlyHolds.holdsMoved _).regs, Dev.lookup_regs, Dev.resolve_regs_of_valiant (by decide) (by decide)] at hregs
  exact absurd (Dev.rd_congr hregs (ra 6 0xA8)) (by decide)

end Sys2Proof.Claim
end

section
/-! PROOFS. Trains: their choice, their cells, their end and what can no longer leave (R69, R87, R125, R133, R182, R490). -/

namespace Sys2Proof.Machine

/-! ## Cells of a train (R87, R125) -/

/-- A link control block enters the stream (R133). -/
theorem Dev.putCtl_of_due {d : Dev} {p b : Nat} {rest : List Nat} (hc : (d.port p).ctlBlocks = b :: rest) (hn : 63 ≤ (d.port p).sinceCtl) :
    d.putCtl p = (d.setPort p { d.port p with
      ctlBlocks := rest, stream := (d.port p).stream ++ [TxItem.blk (ctlBlk b)], sinceCtl := 0 }).emit (.linkCtl p b) := by
  unfold Dev.putCtl
  dsimp only
  rw [hc]
  exact if_neg (by omega)

theorem Dev.ptrFault_ports (d : Dev) (k j : Nat) (b : Option Nat) : (d.ptrFault k j b).ports = d.ports := by
  have hr : ((d.addSat (ra 5 (0x400F00 + 0x1000 * k)) 1).raise 5 1 (k * 0x4000 + j * 0x800)).ports = d.ports := by simp [Dev.addSat]
  unfold Dev.ptrFault
  dsimp only
  split
  · split
    · exact hr
    · exact hr
  · exact hr

theorem Dev.takeBack_ports (d : Dev) (k j pid i : Nat) : (d.takeBack k j pid i).ports = d.ports := by
  unfold Dev.takeBack
  split
  · rfl
  · split
    · rfl
    · split
      · simp [Dev.ptrFault_ports]
      · dsimp only
        split <;> rfl

/-- Port `z` is port `x` after the next cell of entry `q`: the cell is in the replay buffer under the next RSEQ and tag, and its data
blocks are in the stream. -/
def Port.SentCell (x z : Port) (q : QEnt) : Prop :=
  z.train = x.train ∧ z.cellsSent = x.cellsSent + 1 ∧ z.sndRseq = x.sndRseq + 1 ∧ z.txTag = x.txTag + 1 ∧
  ∃ c : RCell, z.replay = x.replay ++ [c] ∧ c.rseq = x.sndRseq ∧ c.tag = x.txTag ∧ c.pid = q.pid ∧ c.idx = x.cellsSent ∧ c.pk = q.pk ∧
    c.bad = false ∧ z.stream = x.stream ++ (cellBlocks q.pk x.cellsSent).map TxItem.blk

theorem Dev.sendCell_port {d : Dev} {p : Nat} {q : QEnt} (hs : q.stomped = false) : Port.SentCell (d.port p) ((d.sendCell p q).port p) q := by
  unfold Dev.sendCell
  extract_lets x owed bad c d1
  rw [if_neg (by simp [hs]), Dev.port_congr (Dev.takeBack_ports ..), Dev.port_setPort_self]
  exact ⟨rfl, rfl, rfl, rfl, c, rfl, rfl, rfl, rfl, rfl, rfl, by simp only [c, bad, hs, Bool.false_and], rfl⟩

theorem Dev.sendCell_traffic (d : Dev) (p : Nat) (q : QEnt) : (d.sendCell p q).traffic = d.traffic := by
  unfold Dev.sendCell
  extract_lets x owed bad c d1
  split
  · rfl
  · exact d1.takeBack_traffic ..

/-! ## A train begins (R133, R169) -/

theorem Dev.injOn_of_none {d : Dev} (h : d.injs = []) (p layer mode : Nat) : d.injOn p layer mode = none := by rw [Dev.injOn, h]; rfl

/-- The port as a train begins, with `n` CTL cells begun in the frame. -/
def Port.atTrain (x : Port) (key n : Nat) : Port := { x with train := some key, cellsSent := 0, ctlBegun := n }

/-- A queue entry whose train begins. -/
def QEnt.begins (q : QEnt) (pk : Packet) (fno : Nat) : QEnt := { q with begun := true, pk := pk, stamp := fno }

/-- Without an injection act, and to a partner with room, a train begins on its port and its entry has begun. -/
theorem Dev.beginTrain_of_plain {d : Dev} {p : Nat} {x : Port} {q : QEnt} (hi : d.injs = []) (hx : (d.port p).rxXoff = 0) :
    ∃ n pk, d.beginTrain p x q = (d.setPort p (x.atTrain q.key n)).onEnt q.key (fun y => y.begins pk d.fno) := by
  have hpk (pk : Packet) : d.injPkt p pk = (pk, 0) := by simp only [Dev.injPkt, Dev.injOn_of_none hi]
  have hover : (if vcFc q.vc && (d.port p).rxXoff.getLsbD q.vc then q.n else 0) = 0 := by simp [hx]
  unfold Dev.beginTrain
  extract_lets kept
  rw [hpk]
  exact ⟨_, _, congrArg (fun e : Dev => e.onEnt q.key _) (if_pos ((Nat.zero_add _).trans hover))⟩

theorem Dev.find_onEnt {d : Dev} {q : QEnt} {f : QEnt → QEnt} (hf : ∀ y, (f y).key = y.key)
    (hq : d.queue.find? (fun e => e.key == q.key) = some q) : (d.onEnt q.key f).queue.find? (fun e => e.key == q.key) = some (f q) := by
  have hcomp : (fun e : QEnt => e.key == q.key) ∘ (fun e => if e.key = q.key then f e else e) = fun e => e.key == q.key := by
    funext e
    by_cases h : e.key = q.key <;> simp [h, hf]
  rw [Dev.onEnt, List.find?_map, hcomp, hq]
  simp

/-- The packet chosen begins its train: its first cell is sent, and in the queue its entry has begun. -/
theorem Dev.nextTrain_of_pick {d : Dev} {p : Nat} {b : BufRead} {x : Port} {q : QEnt} (hp : d.pickTrain p = (x, some q))
    (hf : d.replayFull p = false) (hq : d.queue.find? (fun e => e.key == q.key) = some q) (hs : q.stomped = false) (hb : d.badRead q b = none)
    (hi : d.injs = []) (hx : (d.port p).rxXoff = 0) : ∃ n pk fno,
      Port.SentCell (x.atTrain q.key n) ((d.nextTrain p b).port p) (q.begins pk fno) ∧
      (d.nextTrain p b).queue = d.queue.map (fun e => if e.key = q.key then e.begins pk fno else e) ∧ (d.nextTrain p b).lost = d.lost := by
  obtain ⟨n, pk, hbegin⟩ := Dev.beginTrain_of_plain (x := x) (q := q) hi hx
  have hfind := Dev.find_onEnt (d := d.setPort p (x.atTrain q.key n)) (f := fun y => y.begins pk d.fno) (fun _ => rfl) hq
  generalize hd1 : (d.setPort p (x.atTrain q.key n)).onEnt q.key (fun y => y.begins pk d.fno) = d1 at hbegin hfind
  have hrun : d.nextTrain p b = d1.sendCell p (q.begins pk d.fno) := by
    unfold Dev.nextTrain
    rw [hp]
    dsimp only
    rw [if_neg (by simp [hf]), hb]
    dsimp only
    rw [hbegin, hfind]
  have hport : d1.port p = x.atTrain q.key n := by rw [← hd1]; exact Dev.port_setPort_self ..
  obtain ⟨_, hqueue, hlost⟩ := Dev.traffic_eq (d1.sendCell_traffic p (q.begins pk d.fno))
  rw [hrun]
  refine ⟨n, pk, d.fno, ?_, hqueue.trans (by rw [← hd1]; rfl), hlost.trans (by rw [← hd1]; rfl)⟩
  rw [← hport]
  exact Dev.sendCell_port hs

/-- In the queue the entry of a train that begins has begun. -/
theorem QEnt.begun_of_key {e : QEnt} {key fno : Nat} {pk : Packet} (h : (if e.key = key then e.begins pk fno else e).key = key) :
    (if e.key = key then e.begins pk fno else e).begun = true := by
  by_cases hk : e.key = key
  · rw [if_pos hk]; rfl
  · rw [if_neg hk] at h; exact absurd h hk

/-- The next cell of a train in progress. -/
theorem Dev.trainCell_of_room {d : Dev} {p : Nat} {b : BufRead} {q : QEnt} (hn : (d.port p).cellsSent < q.n) (hf : d.replayFull p = false)
    (hs : q.stomped = false) (hb : d.badRead q b = none) : d.trainCell p q b = d.sendCell p q := by
  unfold Dev.trainCell
  rw [if_neg (by omega), if_neg (by simp [hf]), if_neg (by simp [hs]), hb]

/-! ## A train ends (R182, R490) -/

theorem Dev.sample_of_off {d : Dev} {p : Nat} (h : Machine.fld (d.rd (rp 5 0x300 p)) 30 2 = 0) (dir : Nat) (pk : Packet) :
    d.sample p dir pk = d := by
  unfold Dev.sample
  extract_lets r
  exact if_pos (.inl (by simp only [r, h, Nat.zero_div, Nat.zero_mod]))

/-- The train in progress on port `p` ends: its entry leaves the queue, and the train is sent whole. -/
def Dev.endTrain (d : Dev) (p key : Nat) (pk : Packet) : Dev :=
  (({ d with queue := d.queue.filter (fun e => e.key != key) } : Dev).onPort p (fun x => { x with train := none })).emit (.train p pk false)

theorem Dev.endTrain_rd (d : Dev) (p key : Nat) (pk : Packet) (a : Nat) : (d.endTrain p key pk).rd a = d.rd a := rfl

/-- What a train sent whole counts on its VC, where the port neither samples nor is captured. -/
theorem Dev.countTx_of_plain {d : Dev} {p : Nat} {pk : Packet} (hcaps : d.caps = [])
    (hs : Machine.fld (d.rd (rp 5 0x300 p)) 30 2 = 0) (stamp : Nat) :
    let a := rp 0x10 (0x110 + 0x20 * pk.hdr.vc.toNat) p
    d.countTx p pk stamp = ((d.add64 a (pktLen pk.hdr)).add64 (a + 8) 1).winBytes p 1 (pktLen pk.hdr) := by
  intro a
  unfold Dev.countTx
  extract_lets d1
  have hrd : d1.rd (rp 5 0x300 p) = d.rd (rp 5 0x300 p) := by
    simp only [d1, Dev.winBytes_rd]
    refine (d.rd64_add64_pair a (pktLen pk.hdr) 1).2.2 _ ?_
    simp only [List.mem_cons, List.not_mem_nil, or_false, not_or, a, rp]
    omega
  rw [Dev.sample_of_off (by rw [hrd, hs]), Dev.capPacket_of_no_caps (d := d1) hcaps]

end Sys2Proof.Machine

namespace Sys2Proof.Claim
open Sys2Proof Sys2Proof.Machine

section
variable {s : State} {p : BitVec 7} {u : BufRead}

/-- A control block that is due goes before the next cell (R133). -/
theorem exec_trainSelect_of_ctl {b : Nat} {rest : List Nat} (hl : linked (s.dev.port p.toNat).st = true) (hi : s.dev.txIdle p.toNat = false)
    (hc : (s.dev.port p.toNat).ctlBlocks = b :: rest) (hn : 63 ≤ (s.dev.port p.toNat).sinceCtl) :
    exec (.trainSelect p u) s = .next { s with dev := s.dev.putCtl p.toNat } := by
  refine congrArg Host.Outcome.next (onDev_of_eq ?_)
  dsimp only
  rw [if_neg (by simp [hl, hi]), if_pos (by simp [hc, hn])]

section
variable (hup : (s.dev.port p.toNat).st = .up) (hi : s.dev.txIdle p.toNat = false)
  (hc : (s.dev.port p.toNat).ctlBlocks = [] ∨ (s.dev.port p.toNat).sinceCtl < 63)
include hup hi hc

theorem exec_trainSelect_of_next (ht : (s.dev.port p.toNat).train = none) (hl : (s.dev.nextTrain p.toNat u).lost = []) :
    exec (.trainSelect p u) s = .next { s with dev := s.dev.nextTrain p.toNat u } := by
  refine congrArg Host.Outcome.next (onDev_of_eq ?_)
  have hno : ¬ (! (s.dev.port p.toNat).ctlBlocks.isEmpty ∧ 63 ≤ (s.dev.port p.toNat).sinceCtl) := by
    rcases hc with h | h
    · simp [h]
    · omega
  dsimp only
  rw [if_neg (by simp [hup, hi, linked]), if_neg hno, if_neg (by simp [hup]), ht]
  exact Dev.settleLoss_of_none hl

theorem exec_trainSelect_of_cell {key : Nat} {q : QEnt} (ht : (s.dev.port p.toNat).train = some key)
    (hq : s.dev.queue.find? (fun e => e.key == key) = some q) (hl : (s.dev.trainCell p.toNat q u).lost = []) :
    exec (.trainSelect p u) s = .next { s with dev := s.dev.trainCell p.toNat q u } := by
  refine congrArg Host.Outcome.next (onDev_of_eq ?_)
  have hno : ¬ (! (s.dev.port p.toNat).ctlBlocks.isEmpty ∧ 63 ≤ (s.dev.port p.toNat).sinceCtl) := by
    rcases hc with h | h
    · simp [h]
    · omega
  dsimp only
  rw [if_neg (by simp [hup, hi, linked]), if_neg hno, if_neg (by simp [hup]), ht]
  dsimp only
  rw [hq]
  exact Dev.settleLoss_of_none hl

end

/-- The end of a confirmed packet's train (R182, R490). -/
theorem exec_trainComplete_of_conf {key : Nat} {q : QEnt} (ht : (s.dev.port p.toNat).train = some key)
    (hq : s.dev.queue.find? (fun e => e.key == key) = some q) (hn : (s.dev.port p.toNat).cellsSent = q.n) (hs : q.stomped = false)
    (hconf : q.conf = true) (huse : q.use = .plain) : exec (.trainComplete p) s = .next { s with
      dev := (s.dev.endTrain p.toNat key q.pk).countTx p.toNat q.pk q.stamp } := by
  refine congrArg Host.Outcome.next (onDev_of_eq ?_)
  dsimp only
  rw [ht]
  dsimp only
  rw [hq]
  dsimp only
  rw [if_neg (by omega), hs, hconf, huse]
  rfl

/-- A packet that can no longer leave in time is lost (R69). -/
theorem exec_boundMiss_of_late {id : Nat} {q : QEnt} (hq : s.dev.queue.find? (fun e => e.out == p.toNat && e.pid == id && ! e.stomped) = some q)
    (hlate : s.dev.late q = true) :
    exec (.boundMiss p id) s = .next { s with dev := (s.dev.loseEnt q).raise 1 5 (p.toNat * 256 + q.cls) } := by
  refine congrArg Host.Outcome.next (onDev_of_eq ?_)
  rw [hq]
  exact if_pos hlate

end

/-- Settles O32: the choice, the cells, the end and the bound of trains, clause by clause. -/
theorem trainsBeginAndEnd : Obligations.TrainsBeginAndEnd := by
  unfold Obligations.TrainsBeginAndEnd
  intro s p n d x
  refine ⟨fun b rest u hl hi hc hn => ?_, fun hup hi hc hf hlost => ⟨fun y q u ht hp hq hs hb hinj hx => ?_, fun key q u ht hq hn hs hb => ?_⟩,
    fun key q ht hq hn hs hconf huse hcaps _ hsamp => ?_, fun id q hq hlate hn _ => ?_⟩
  · refine ⟨_, exec_trainSelect_of_ctl hl hi hc hn, ?_⟩
    rw [Dev.putCtl_of_due hc hn]
    exact ⟨⟨⟨rfl, rfl, rfl⟩, rfl, fun m hm => Dev.port_setPort_ne _ _ hm, fun _ _ => rfl⟩, Dev.port_setPort_self ..⟩
  · obtain ⟨m, pk, fno, hsent, hqueue, hl⟩ := Dev.nextTrain_of_pick hp hf hq hs hb hinj hx
    obtain ⟨htrain, hcells, hrseq, htag, c, hrep, hc0, hc1, hc2, hc3, hc4, hc5, hstream⟩ := hsent
    refine ⟨_, exec_trainSelect_of_next hup hi hc ht (hl.trans hlost), ⟨rfl, rfl, rfl⟩, htrain, hcells, hrseq, htag,
      ⟨c, hrep, hc0, hc1, hc2, hc3, hc5, hc4 ▸ hstream⟩, ?_, ?_⟩
    · intro e he hk
      obtain ⟨y, _, rfl⟩ := List.mem_map.1 (hqueue ▸ he)
      exact QEnt.begun_of_key hk
    · exact (congrArg List.length hqueue).trans (List.length_map _)
  · have hcell := Dev.trainCell_of_room hn hf hs hb
    obtain ⟨-, hqueue, hl⟩ := Dev.traffic_eq (d.sendCell_traffic n q)
    obtain ⟨htrain, hcells, hrseq, htag, c, hrep, hc0, hc1, hc2, hc3, hc4, hc5, hstream⟩ := Dev.sendCell_port (d := d) (p := n) hs
    refine ⟨_, exec_trainSelect_of_cell hup hi hc ht hq (by rw [hcell]; exact hl.trans hlost), ?_⟩
    rw [hcell]
    exact ⟨⟨rfl, rfl, rfl⟩, hqueue, htrain.trans ht, hcells, hrseq, htag, c, hrep, hc0, hc1, hc2, hc3, hc4, hstream⟩
  · intro a
    refine ⟨_, exec_trainComplete_of_conf ht hq hn hs hconf huse, ?_⟩
    have hcount := Dev.countTx_of_plain (d := d.endTrain n key q.pk) (pk := q.pk) hcaps hsamp q.stamp
    have hregs (b : Nat) : ((d.endTrain n key q.pk).countTx n q.pk q.stamp).rd b =
        (((d.endTrain n key q.pk).add64 a (pktLen q.pk.hdr)).add64 (a + 8) 1).rd b := by rw [hcount, Dev.winBytes_rd]
    obtain ⟨hn, hbytes, hother⟩ := (d.endTrain n key q.pk).rd64_add64_pair a (pktLen q.pk.hdr) 1
    rw [Dev.rd64_congr (d.endTrain_rd n key q.pk)] at hn hbytes
    refine ⟨⟨rfl, rfl, rfl⟩, ?_, ?_, ?_, (Dev.rd64_congr hregs _).trans hbytes, (Dev.rd64_congr hregs _).trans hn,
      fun b hb => (hregs b).trans (hother b hb)⟩
    · exact congrArg Dev.queue hcount
    · exact (congrArg (fun e : Dev => e.port n) hcount).trans (Dev.port_setPort_self ..)
    · exact congrArg Dev.out hcount
  · refine ⟨_, exec_boundMiss_of_late hq hlate, ⟨rfl, rfl, rfl⟩, by simp [n], ?_⟩
    have hst : (q.out = n ∧ q.pid = id) ∧ q.stomped = false := by simpa using List.find?_some hq
    simpa using Dev.loseEnt_queue hst.2 hn

end Sys2Proof.Claim
end

section
/-! PROOFS. Columns of codewords and sideband words on a linked port (R53, R81, R85, R90, R126, R131, R138). -/

namespace Sys2Proof.Machine

/-! ## Blocks and headers (R80, R81, R92) -/

theorem openWord_length (h : BitVec 58) (w : BitVec 5440) : (openWord h w).1.length = 19 := by simp [openWord, headersOf]

section
variable {b : Block} (h : isData b = true)
include h

theorem hdr_of_isData : b.1 = 1 := by simpa [isData] using h
theorem not_isFill_of_isData : isFill b = false := by simp [isFill, hdr_of_isData h]
theorem not_blkBad_of_isData : blkBad b = false := by simp [blkBad, headerOk, hdr_of_isData h]
theorem not_typeReserved_of_isData : typeReserved b = false := by simp [typeReserved, hdr_of_isData h]

end

theorem headerRun_length (m : Nat × List Nat) (hs : List (BitVec 2)) : (headerRun m hs).2.length ≤ m.2.length + hs.length := by
  induction hs generalizing m with
  | nil => simp [headerRun]
  | cons h hs ih =>
    have hstep : (headerRun m (h :: hs)).2.length ≤
        (m.1 + 1, if h == 1 || h == 2 then m.2.filter (fun i => decide (m.1 < i + 1024)) else m.2.filter (fun i => decide (m.1 < i + 1024)) ++ [m.1]).2.length + hs.length :=
      ih _
    have hkept := List.length_filter_le (fun i => decide (m.1 < i + 1024)) m.2
    refine hstep.trans ?_
    dsimp only
    split
    · simp only [List.length_cons]; omega
    · simp only [List.length_append, List.length_cons, List.length_nil]; omega

/-! ## A lane takes its codeword (R81, R91) -/

/-- A codeword as it is mended, or as it came where that fails. -/
def mended (w : BitVec 5440) : BitVec 5440 := ((rsDecode w).map (·.1)).getD w

/-- What a lane in service makes of a codeword. -/
def Lane.hears (x : Lane) (w : BitVec 5440) : LaneIn :=
  ((openWord x.rxScr (mended w)).1, (rsDecode w).map (fun _ => (openWord x.rxScr (mended w)).2.1))

theorem Lane.hears_length (x : Lane) (w : BitVec 5440) : (x.hears w).1.length = 19 := by
  rw [Lane.hears, openWord_length]

/-- The receiver of a lane in service after a codeword. -/
def Lane.heard (x : Lane) (w : BitVec 5440) : Lane :=
  { x with rxScr := (openWord x.rxScr (mended w)).2.2, headers := headerRun x.headers (headersOf (mended w)) }

theorem Lane.levelNow_heard (x : Lane) (w : BitVec 5440) (t : Nat) : (x.heard w).levelNow t = x.levelNow t := rfl

/-- A lane in service counts and takes a codeword. -/
def Dev.laneTakes (d : Dev) (e : Nat × BitVec 5440) : Dev :=
  (d.countCw e.1 ((rsDecode e.2).map (·.2)) (((d.lane e.1).hears e.2).1.filter blkBad).length).setLane e.1 ((d.lane e.1).heard e.2)

/-- A lane in service, awake, whose header lock holds through one more codeword. -/
def Lane.listens (x : Lane) : Prop := carries x.st = true ∧ x.rxEi = false ∧ x.headers.2.length < 13

/-- Of the device, only how registers are held differs. -/
def Dev.OnlyRegs (d e : Dev) : Prop := ∃ r, e = { d with regs := r }

namespace Dev.OnlyRegs

theorem refl (d : Dev) : d.OnlyRegs d := ⟨_, rfl⟩
theorem add64 {d e : Dev} (h : d.OnlyRegs e) (a n : Nat) : d.OnlyRegs (e.add64 a n) := by obtain ⟨_, rfl⟩ := h; exact ⟨_, rfl⟩
theorem addSat {d e : Dev} (h : d.OnlyRegs e) (a n : Nat) : d.OnlyRegs (e.addSat a n) := by obtain ⟨_, rfl⟩ := h; exact ⟨_, rfl⟩
theorem ite {d e f : Dev} {c : Prop} [Decidable c] (h : d.OnlyRegs e) (k : d.OnlyRegs f) : d.OnlyRegs (if c then e else f) := by
  split
  · exact h
  · exact k
theorem lane {d e : Dev} (h : d.OnlyRegs e) (l : Nat) : e.lane l = d.lane l := by obtain ⟨_, rfl⟩ := h; rfl

theorem countCw (d : Dev) (l : Nat) (n : Option Nat) (b : Nat) : d.OnlyRegs (d.countCw l n b) := by
  have h1 : d.OnlyRegs (d.add64 (rl 0x20 l) 1) := (refl d).add64 ..
  unfold Dev.countCw
  extract_lets d1
  split
  · exact h1.add64 ..
  · extract_lets d2
    have h2 : d.OnlyRegs d2 := h1.ite ((h1.add64 ..).add64 ..)
    exact h2.ite (h2.addSat ..)

end Dev.OnlyRegs

theorem Dev.laneTakes_lane_ne {d : Dev} {e : Nat × BitVec 5440} {l : Nat} (h : l ≠ e.1) : (d.laneTakes e).lane l = d.lane l := by
  rw [Dev.laneTakes, Dev.lane_setLane_ne _ _ h, (Dev.OnlyRegs.countCw ..).lane]

theorem Dev.laneIn_of_listens {d : Dev} {e : Nat × BitVec 5440} (h : (d.lane e.1).listens) :
    d.laneIn e.1 e.2 = (d.laneTakes e, (d.lane e.1).hears e.2) := by
  obtain ⟨hc, hei, hh⟩ := h
  have hfar (f : Dev) (hf : (f.lane e.1).st = (d.lane e.1).st) : f.farEnd e.1 = false := by
    have : (d.lane e.1).st ≠ .test := fun ht => by simp [ht, carries] at hc
    simp [Dev.farEnd, hf, this]
  have hhunt : d.rxHunts e.1 = false := by
    have : (d.lane e.1).st ≠ .hunt := fun ht => by simp [ht, carries] at hc
    simp [Dev.rxHunts, hei, this, hfar d rfl]
  have hlock : d.rxLocked e.1 = true := by simp [Dev.rxLocked, hei, hc]
  unfold Dev.laneIn
  extract_lets x hs0 d0 got v hs
  rw [if_neg (by simp [hhunt]), if_neg (by simp [hlock])]
  have hgot : rsDecode e.2 = got := rfl
  clear_value got
  have hv : v = mended e.2 := by
    rw [mended, hgot]
    change (match got with | some r => r.1 | none => e.2) = _
    cases got <;> rfl
  rcases hp : openWord x.rxScr v with ⟨blks, lsw, scr⟩
  have hears : x.hears e.2 = (blks, got.map (fun _ => lsw)) := by rw [Lane.hears, ← hv, hp, hgot]
  have hheard : x.heard e.2 = { x with rxScr := scr, headers := hs } := by
    rw [Lane.heard, ← hv, hp]
  have hlen : hs.2.length < 32 := by
    have hrun : hs.2.length ≤ x.headers.2.length + (headersOf v).length := headerRun_length ..
    have hx : x.headers.2.length < 13 := hh
    have hn : (headersOf v).length = 19 := by simp [headersOf]
    omega
  have h1 : (d.countCw e.1 (got.map (·.2)) (blks.filter blkBad).length).onLane e.1 (fun y => { y with rxScr := scr, headers := hs }) =
      d.laneTakes e := by
    rw [Dev.onLane, (Dev.OnlyRegs.countCw ..).lane, Dev.laneTakes, hheard, hears, hgot]
  have h2 : (d.laneTakes e).farEnd e.1 = false := hfar _ (by rw [Dev.laneTakes, Dev.lane_setLane_self]; rfl)
  dsimp only [hp]
  rw [h1, h2, if_neg (by omega), hears]
  rfl

/-- The lanes of a column take their codewords one after the other, each as if alone. -/
theorem Dev.foldl_laneIn (es : List (Nat × BitVec 5440)) (d : Dev) (acc : List (Nat × LaneIn)) (hn : (es.map (·.1)).Nodup)
    (hl : ∀ e ∈ es, (d.lane e.1).listens) :
    es.foldl (fun (m : Dev × List (Nat × LaneIn)) e => ((m.1.laneIn e.1 e.2).1, m.2 ++ [(e.1, (m.1.laneIn e.1 e.2).2)])) (d, acc) =
      (es.foldl Dev.laneTakes d, acc ++ es.map (fun e => (e.1, (d.lane e.1).hears e.2))) := by
  induction es generalizing d acc with
  | nil => simp
  | cons e es ih =>
    obtain ⟨hne, hn⟩ : e.1 ∉ es.map (·.1) ∧ (es.map (·.1)).Nodup := List.nodup_cons.1 hn
    have hlane (x : Nat × BitVec 5440) (hx : x ∈ es) : (d.laneTakes e).lane x.1 = d.lane x.1 :=
      Dev.laneTakes_lane_ne fun h => hne (h ▸ List.mem_map_of_mem (f := (·.1)) hx)
    rw [List.foldl_cons, Dev.laneIn_of_listens (hl e List.mem_cons_self),
      ih _ _ hn fun x hx => by rw [hlane x hx]; exact hl x (List.mem_cons_of_mem _ hx)]
    simp only [List.foldl_cons, List.map_cons, List.append_assoc, List.singleton_append]
    rw [List.map_congr_left fun x hx => by rw [hlane x hx]]

/-- Of the device, only the lanes named and how registers are held differ; no buffer has moved. -/
def Dev.OnlyHeard (d e : Dev) (ls : List Nat) : Prop :=
  e = { d with lanes := e.lanes, regs := e.regs } ∧ (∀ l, l ∉ ls → e.lane l = d.lane l) ∧ ∀ l t, (e.lane l).levelNow t = (d.lane l).levelNow t

theorem Dev.OnlyHeard.laneTakes {d e : Dev} {ls : List Nat} (h : d.OnlyHeard e ls) {x : Nat × BitVec 5440} (hx : x.1 ∈ ls) :
    d.OnlyHeard (e.laneTakes x) ls := by
  obtain ⟨he, hl, hlev⟩ := h
  refine ⟨?_, fun l hn => ?_, fun l t => ?_⟩
  · obtain ⟨r, hr⟩ := Dev.OnlyRegs.countCw e x.1 ((rsDecode x.2).map (·.2)) (((e.lane x.1).hears x.2).1.filter blkBad).length
    rw [Dev.laneTakes, hr, he]
    rfl
  · rw [Dev.laneTakes_lane_ne fun (h : l = x.1) => hn (h ▸ hx), hl l hn]
  · by_cases hx : l = x.1
    · rw [hx, Dev.laneTakes, Dev.lane_setLane_self, Lane.levelNow_heard, hlev]
    · rw [Dev.laneTakes_lane_ne hx, hlev]

theorem Dev.onlyHeard_foldl (es : List (Nat × BitVec 5440)) {d e : Dev} {ls : List Nat} (h : d.OnlyHeard e ls) (hes : ∀ x ∈ es, x.1 ∈ ls) :
    d.OnlyHeard (es.foldl Dev.laneTakes e) ls := by
  induction es generalizing e with
  | nil => exact h
  | cons x es ih =>
    rw [List.foldl_cons]
    exact ih (h.laneTakes (hes x List.mem_cons_self)) fun y hy => hes y (List.mem_cons_of_mem _ hy)

/-! ## A column without an error (R81, R126) -/

/-- A codeword without an error, of data blocks alone, as a lane opens it. -/
def Lane.hearsData (x : Lane) (w : BitVec 5440) : Prop := rsDecode w = some (w, 0) ∧ ∀ b ∈ (openWord x.rxScr w).1, isData b = true

theorem Lane.hears_of_data {x : Lane} {w : BitVec 5440} (h : x.hearsData w) :
    x.hears w = ((openWord x.rxScr w).1, some (openWord x.rxScr w).2.1) := by
  have hm : mended w = w := by rw [mended, h.1]; rfl
  rw [Lane.hears, hm, h.1]
  rfl

/-- Such a codeword counts in LANE_CW alone (R81). -/
theorem Dev.laneTakes_rd_of_data {d : Dev} {e : Nat × BitVec 5440} (h : (d.lane e.1).hearsData e.2) (a : Nat) :
    (d.laneTakes e).rd a = (d.add64 (rl 0x20 e.1) 1).rd a := by
  have hbad : (openWord (d.lane e.1).rxScr e.2).1.filter blkBad = [] :=
    List.filter_eq_nil_iff.2 fun b hb => by simp [not_blkBad_of_isData (h.2 b hb)]
  rw [Dev.laneTakes, Lane.hears_of_data h, hbad, h.1]
  rfl

theorem Dev.foldl_laneTakes_rd_of_data (es : List (Nat × BitVec 5440)) (d : Dev) (hn : (es.map (·.1)).Nodup)
    (hl : ∀ e ∈ es, (d.lane e.1).hearsData e.2) :
    (∀ a, a ∉ (es.map (·.1)).map (rl 0x20) ++ (es.map (·.1)).map (rl 0x24) → (es.foldl Dev.laneTakes d).rd a = d.rd a) ∧
      ∀ l ∈ es.map (·.1), (es.foldl Dev.laneTakes d).rd64 (rl 0x20 l) = (d.rd64 (rl 0x20 l) + 1) % 2 ^ 64 := by
  induction es generalizing d with
  | nil => exact ⟨fun _ _ => rfl, fun l hl => absurd hl List.not_mem_nil⟩
  | cons e es ih =>
    obtain ⟨hne, hn⟩ : e.1 ∉ es.map (·.1) ∧ (es.map (·.1)).Nodup := List.nodup_cons.1 hn
    have hlane (x : Nat × BitVec 5440) (hx : x ∈ es) : (d.laneTakes e).lane x.1 = d.lane x.1 :=
      Dev.laneTakes_lane_ne fun h => hne (h ▸ List.mem_map_of_mem (f := (·.1)) hx)
    obtain ⟨hother, hcount⟩ := ih (d.laneTakes e) hn fun x hx => by rw [hlane x hx]; exact hl x (List.mem_cons_of_mem _ hx)
    have hrd := Dev.laneTakes_rd_of_data (hl e List.mem_cons_self)
    have haddr : rl 0x24 e.1 = rl 0x20 e.1 + 4 := by unfold rl; omega
    refine ⟨fun a ha => ?_, fun l hm => ?_⟩
    · simp only [List.map_cons, List.mem_append, List.mem_cons, not_or] at ha
      obtain ⟨⟨h0, ha⟩, h4, ha'⟩ := ha
      rw [List.foldl_cons, hother a (by simp only [List.mem_append, not_or]; exact ⟨ha, ha'⟩), hrd, d.rd_add64_ne 1 h0 (haddr ▸ h4)]
    · rw [List.foldl_cons]
      rcases List.mem_cons.1 hm with rfl | hm
      · have hfar (o : Nat) (ho : o = 0x20 ∨ o = 0x24) : rl o e.1 ∉ (es.map (·.1)).map (rl 0x20) ++ (es.map (·.1)).map (rl 0x24) := by
          intro hmem
          rcases List.mem_append.1 hmem with hmem | hmem
          all_goals
            obtain ⟨m, hm, heq⟩ := List.mem_map.1 hmem
            have : m = e.1 := by unfold rl at heq; omega
            exact hne (this ▸ hm)
        rw [Dev.rd64, ← haddr, hother _ (hfar _ (.inl rfl)), hother _ (hfar _ (.inr rfl)), haddr, ← Dev.rd64, Dev.rd64_congr hrd,
          Dev.rd64_add64_self]
      · have hle : l ≠ e.1 := fun h => hne (h ▸ hm)
        rw [hcount l hm, Dev.rd64_congr hrd, d.rd64_add64_ne 1 (by unfold rl; omega)]

/-! ## The column enters the buffers (R90) -/

/-- What the elastic buffer of a lane takes of a column, in 1/8,192 block. -/
def fillsBuffer (v : LaneIn) : Nat := 8192 * (v.1.filter (fun b => ! isFill b)).length

theorem fillsBuffer_le {v : LaneIn} (h : v.1.length = 19) : fillsBuffer v ≤ 8192 * 19 := by
  have := List.length_filter_le (fun b => ! isFill b) v.1
  unfold fillsBuffer
  omega

/-- With room in every buffer, and no FILL where a codeword was mended, a column only moves the buffers' levels. -/
theorem Dev.bufferIn_of_room {d : Dev} {ins : List (Nat × LaneIn)} {t : Nat} (hlen : ∀ e ∈ ins, e.2.1.length = 19)
    (hroom : ∀ e ∈ ins, (d.lane e.1).levelNow t ≤ 45 * 8192) (hfill : ∀ e ∈ ins, e.2.2.isSome = true → ∀ b ∈ e.2.1, isFill b = false) :
    ∃ f : Nat × LaneIn → Lane → Lane, d.bufferIn ins t = (ins.foldl (fun x e => x.onLane e.1 (f e)) d, false) := by
  unfold Dev.bufferIn
  extract_lets d1 put full d2
  have h1 : d1 = d := by
    refine (List.foldl_ext _ (fun x _ => x) d fun x e he => ?_).trans (List.foldl_fixed _)
    have hno : (if e.2.2.isSome then (e.2.1.filter isFill).length else 0) = 0 := by
      split
      next hs => rw [List.filter_eq_nil_iff.2 fun b hb => by simp [hfill e he hs b hb]]; rfl
      next => rfl
    exact if_pos hno
  have hfull : full = [] := by
    refine List.filter_eq_nil_iff.2 fun e he => ?_
    have h1 := fillsBuffer_le (hlen e he)
    have h2 := hroom e he
    have hput : put e = fillsBuffer e.2 := rfl
    rw [hput, decide_eq_true_iff]
    omega
  rw [hfull]
  dsimp only
  exact ⟨_, by rw [← h1]⟩

/-- A port's data blocks counted: the cells that end are seen (R83, R86). -/
def Port.atBlocks (x : Port) (n : Nat) : Port := { x with rxBlocks := n % 8, rxSeen := x.rxSeen + BitVec.ofNat 12 (n / 8) }

/-- The cells that end in a column are those expected next (R126). -/
def Port.pastCells (x : Port) (n : Nat) : Port := { x with ackRseq := x.ackRseq + BitVec.ofNat 12 n, reqFor := none }

/-- A port without an open request takes a column that the buffers have room for. -/
theorem Dev.columnIn_of_buffered {d e : Dev} {p t : Nat} {ins : List (Nat × LaneIn)} (hbuf : d.bufferIn ins t = (e, false))
    (hreq : (e.port p).reqOpen = false) (hdata : ∀ x ∈ ins, x.2.2.isSome = true → ∀ b ∈ x.2.1, isData b = true) :
    let n := (e.port p).rxBlocks + ((ins.flatMap (fun x => x.2.1)).filter isData).length
    let d4 := e.onPort p (fun y => y.atBlocks n)
    d.columnIn p ins t = if (ins.filter (fun x => x.2.2.isSome)).length < ins.length then d4.discardRx p
      else if n / 8 = 0 then d4
      else
        let d5 := d4.onPort p (fun y => y.pastCells (n / 8))
        if takesCells (e.port p) then d5 else d5.add64 (rp 3 0x68 p) (n / 8) := by
  intro n d4
  have hbad : (((ins.filter (fun x => x.2.2.isSome)).flatMap (fun x => x.2.1)).filter (fun b => blkBad b || typeReserved b)) = [] := by
    refine List.filter_eq_nil_iff.2 fun b hb => ?_
    obtain ⟨x, hx, hb⟩ := List.mem_flatMap.1 hb
    obtain ⟨hx, hs⟩ := List.mem_filter.1 hx
    have := hdata x hx hs b hb
    simp [not_blkBad_of_isData this, not_typeReserved_of_isData this]
  have hans : (e.port p).answered ins = false := by
    unfold Port.answered
    split
    · simp [hreq]
    · rfl
  unfold Dev.columnIn
  rw [hbuf]
  dsimp -zeta only
  extract_lets good bad d2 lost d3 x m e4 e5 d5
  have h2 : d2 = e := by
    have hb : bad = 0 := congrArg List.length hbad
    simp only [d2, hb, List.range_zero, List.foldl_nil]
  have h3 : d3 = e := by
    refine (if_neg ?_).trans h2
    rw [h2, hans, Bool.and_false]
    exact Bool.false_ne_true
  have hx : x = e.port p := by simp only [x, h3]
  have hm : m = n := by simp only [m, n, hx]
  have h4 : e4 = d4 := by simp only [e4, d4, h3, hm]; rfl
  have h5 : e5 = d5 := by simp only [e5, d5, h4, hm]; rfl
  rw [if_neg (by simp [hx, hreq]), hx, hm, h4, h5]
  simp only [lost, Bool.false_or, decide_eq_true_eq, good]

/-! ## The column of a port (R81, R126) -/

theorem Dev.onlyLanes_foldl_onLane (f : Nat × LaneIn → Lane → Lane) (ins : List (Nat × LaneIn)) {d e : Dev} {ls : List Nat}
    (h : d.OnlyLanes e ls) (hins : ∀ x ∈ ins, x.1 ∈ ls) : d.OnlyLanes (ins.foldl (fun x y => x.onLane y.1 (f y)) e) ls := by
  induction ins generalizing e with
  | nil => exact h
  | cons x ins ih =>
    rw [List.foldl_cons]
    exact ih (h.snoc (hins x List.mem_cons_self) (Dev.onlyLane_setLane ..)) fun y hy => hins y (List.mem_cons_of_mem _ hy)

theorem Dev.OnlyHeard.onlyLanes {d e f : Dev} {ls : List Nat} (h : d.OnlyHeard e ls) (k : e.OnlyLanes f ls) :
    f = { d with lanes := f.lanes, regs := f.regs } ∧ ∀ l, l ∉ ls → f.lane l = d.lane l := by
  obtain ⟨he, hl, -⟩ := h
  obtain ⟨hf, hm⟩ := k
  refine ⟨?_, fun l hn => (hm l hn).trans (hl l hn)⟩
  rw [hf, he]

theorem Dev.lanesOf_nodup (d : Dev) (p : Nat) : (d.lanesOf p).Nodup :=
  List.nodup_range.map fun _ _ h => Nat.add_right_cancel h

/-- What the lanes of a port make of a column. -/
def Dev.heardBy (d : Dev) (es : List (Nat × BitVec 5440)) : List (Nat × LaneIn) := es.map fun e => (e.1, (d.lane e.1).hears e.2)

theorem mem_heardBy {d : Dev} {es : List (Nat × BitVec 5440)} {y : Nat × LaneIn} (h : y ∈ d.heardBy es) :
    ∃ e ∈ es, y = (e.1, (d.lane e.1).hears e.2) := by
  obtain ⟨e, he, rfl⟩ := List.mem_map.1 h
  exact ⟨e, he, rfl⟩

/-- The lanes of a column that all listen: what of the device differs before the port takes it (R81, R90). -/
theorem Dev.bufferIn_heardBy {d : Dev} {es : List (Nat × BitVec 5440)} {t : Nat} {ls : List Nat} (hes : ∀ e ∈ es, e.1 ∈ ls)
    (hroom : ∀ e ∈ es, (d.lane e.1).levelNow t ≤ 45 * 8192) (hdata : ∀ e ∈ es, rsDecode e.2 = none ∨ (d.lane e.1).hearsData e.2) :
    ∃ f : Dev, (es.foldl Dev.laneTakes d).bufferIn (d.heardBy es) t = (f, false) ∧ f = { d with lanes := f.lanes, regs := f.regs } ∧
      (∀ l, l ∉ ls → f.lane l = d.lane l) ∧ ∀ a, f.rd a = (es.foldl Dev.laneTakes d).rd a := by
  have hheard := Dev.onlyHeard_foldl es (d := d) (e := d) (ls := ls) ⟨rfl, fun _ _ => rfl, fun _ _ => rfl⟩ hes
  have hlev := hheard.2.2
  obtain ⟨g, hg⟩ := Dev.bufferIn_of_room (d := es.foldl Dev.laneTakes d) (ins := d.heardBy es) (t := t)
    (fun y hy => by obtain ⟨e, -, rfl⟩ := mem_heardBy hy; exact Lane.hears_length ..)
    (fun y hy => by obtain ⟨e, he, rfl⟩ := mem_heardBy hy; rw [hlev]; exact hroom e he)
    (fun y hy hs b hb => by
      obtain ⟨e, he, rfl⟩ := mem_heardBy hy
      rcases hdata e he with hn | hd
      · simp [Lane.hears, hn] at hs
      · rw [Lane.hears_of_data hd] at hb
        exact not_isFill_of_isData (hd.2 b hb))
  obtain ⟨hdev, hlane⟩ := hheard.onlyLanes (Dev.onlyLanes_foldl_onLane g (d.heardBy es) (.refl _ ls) fun y hy => by
    obtain ⟨e, he, rfl⟩ := mem_heardBy hy; exact hes e he)
  refine ⟨_, hg, hdev, hlane, fun a => ?_⟩
  exact foldl_keeps (fun x : Dev => x.rd a) _ _ _ fun _ _ => rfl

theorem length_flatMap_blocks {ins : List (Nat × LaneIn)} (h : ∀ e ∈ ins, e.2.1.length = 19) :
    (ins.flatMap (fun e => e.2.1)).length = 19 * ins.length := by
  induction ins with
  | nil => rfl
  | cons e ins ih =>
    rw [List.flatMap_cons, List.length_append, h e List.mem_cons_self, ih fun x hx => h x (List.mem_cons_of_mem _ hx), List.length_cons]
    omega

/-- A column of data blocks without an error advances the port by the cells that end in it. -/
theorem Dev.columnIn_of_data {d e : Dev} {p t : Nat} {ins : List (Nat × LaneIn)} (hbuf : d.bufferIn ins t = (e, false))
    (hreq : (e.port p).reqOpen = false) (htakes : takesCells (e.port p) = true) (hlen : ∀ x ∈ ins, x.2.1.length = 19)
    (hsome : ∀ x ∈ ins, x.2.2.isSome = true) (hdata : ∀ x ∈ ins, ∀ b ∈ x.2.1, isData b = true) :
    e.OnlyPort (d.columnIn p ins t) p ∧
      ((d.columnIn p ins t).port p).ackRseq = (e.port p).ackRseq + BitVec.ofNat 12 (((e.port p).rxBlocks + 19 * ins.length) / 8) ∧
      ((d.columnIn p ins t).port p).rxBlocks = ((e.port p).rxBlocks + 19 * ins.length) % 8 := by
  have hn : ((ins.flatMap (fun x => x.2.1)).filter isData).length = 19 * ins.length := by
    rw [List.filter_eq_self.2 fun b hb => ?_, length_flatMap_blocks hlen]
    obtain ⟨x, hx, hb⟩ := List.mem_flatMap.1 hb
    exact hdata x hx b hb
  have hgood : ins.filter (fun x => x.2.2.isSome) = ins := List.filter_eq_self.2 hsome
  have hp (f : Port → Port) : e.OnlyPort (e.onPort p f) p := Dev.OnlyPort.setPort ⟨rfl, fun _ _ => rfl, fun _ => rfl⟩ _
  rw [Dev.columnIn_of_buffered hbuf hreq fun x hx _ => hdata x hx]
  dsimp only
  rw [hn, hgood, if_neg (Nat.lt_irrefl _), if_pos htakes]
  split
  next h0 =>
    refine ⟨hp _, ?_⟩
    rw [Dev.onPort, Dev.port_setPort_self, h0]
    exact ⟨(BitVec.add_zero _).symm, rfl⟩
  next =>
    refine ⟨(hp _).setPort _, ?_⟩
    rw [Dev.onPort, Dev.port_setPort_self, Dev.onPort, Dev.port_setPort_self]
    exact ⟨rfl, rfl⟩

/-! ## A column with a word lost (R126) -/

/-- The port as it sends its first REQ for a cell. -/
def Port.asks (x : Port) (ack : BitVec 12) (now : Nat) : Port :=
  { x with reqAck := ack, reqId := x.reqId + 1, reqOpen := true, resumed := false, reqTries := 1, reqFor := some ack, reqAt := now }

/-- The first REQ with its ACK_RSEQ. -/
theorem Dev.issueReq_of_first {d : Dev} {p : Nat} {ack : BitVec 12} (h : (d.port p).reqFor ≠ some ack) :
    d.issueReq p ack = ((d.setPort p ((d.port p).asks ack d.now)).add64 (rp 3 0x50 p) 1).emit (.req p ack ((d.port p).reqId + 1)) := by
  unfold Dev.issueReq
  extract_lets x id tries d1
  have ht : tries = 1 := if_neg h
  rw [if_neg (by omega)]
  simp only [d1, ht]
  rfl

theorem Dev.add64_ports (d : Dev) (a n : Nat) : (d.add64 a n).ports = d.ports := by rw [Dev.add64, Dev.wr64, Dev.wr_ports, Dev.wr_ports]
theorem Dev.add64_out (d : Dev) (a n : Nat) : (d.add64 a n).out = d.out := by rw [Dev.add64, Dev.wr64, Dev.wr_out, Dev.wr_out]

theorem Dev.issueReq_spec {d : Dev} {p : Nat} {ack : BitVec 12} (h : (d.port p).reqFor ≠ some ack) :
    (d.issueReq p ack).out = .req p ack ((d.port p).reqId + 1) :: d.out ∧ (d.issueReq p ack).port p = (d.port p).asks ack d.now ∧
      ∀ q, q ≠ p → (d.issueReq p ack).port q = d.port q := by
  have hports : (d.issueReq p ack).ports = (d.setPort p ((d.port p).asks ack d.now)).ports := by
    rw [Dev.issueReq_of_first h, Dev.emit_ports, Dev.add64_ports]
  refine ⟨?_, (Dev.port_congr hports p).trans (Dev.port_setPort_self ..), fun q hq => (Dev.port_congr hports q).trans (Dev.port_setPort_ne _ _ hq)⟩
  rw [Dev.issueReq_of_first h, Dev.emit, Dev.add64_out]
  rfl

/-- With no packet of the port unconfirmed, only the port itself goes back. -/
theorem Dev.discardRx_of_no_packet {d : Dev} {p : Nat} (h : ∀ k ∈ d.pkts, k.ing ≠ some p) :
    d.discardRx p = (d.onPort p (fun x => { x with rxNext := (d.port p).ackRseq })).issueReq p (d.port p).ackRseq := by
  have hmine : d.pkts.filter (fun k => k.ing == some p && ! k.conf) = [] := List.filter_eq_nil_iff.2 fun k hk => by simp [h k hk]
  unfold Dev.discardRx
  rw [hmine]
  rfl

/-- Its words lost, a column makes the port ask for replay from the cell expected next (R126). -/
theorem Dev.columnIn_of_lost {d e : Dev} {p t : Nat} {ins : List (Nat × LaneIn)} (hbuf : d.bufferIn ins t = (e, false))
    (hreq : (e.port p).reqOpen = false) (hdata : ∀ x ∈ ins, x.2.2.isSome = true → ∀ b ∈ x.2.1, isData b = true)
    (hlost : ∃ x ∈ ins, x.2.2 = none) (hfor : (e.port p).reqFor ≠ some (e.port p).ackRseq) (hpk : ∀ k ∈ e.pkts, k.ing ≠ some p) :
    ∃ f y : _, d.columnIn p ins t = f ∧ f.port p = y ∧ f.out = .req p (e.port p).ackRseq ((e.port p).reqId + 1) :: e.out ∧
      y.reqOpen = true ∧ y.reqAck = (e.port p).ackRseq ∧ y.reqId = (e.port p).reqId + 1 ∧ y.ackRseq = (e.port p).ackRseq ∧ y.reqAt = e.now ∧
      ∀ q, q ≠ p → f.port q = e.port q := by
  have hless : (ins.filter (fun x => x.2.2.isSome)).length < ins.length := by
    obtain ⟨x, hx, hn⟩ := hlost
    exact List.length_filter_lt_length_iff_exists.2 ⟨x, hx, by simp [hn]⟩
  have hne (e : Dev) (f : Port → Port) (q : Nat) (hq : q ≠ p) : (e.onPort p f).port q = e.port q := Dev.port_setPort_ne _ _ hq
  have hself (e : Dev) (f : Port → Port) : (e.onPort p f).port p = f (e.port p) := Dev.port_setPort_self ..
  rw [Dev.columnIn_of_buffered hbuf hreq hdata]
  dsimp only
  generalize (e.port p).rxBlocks + ((ins.flatMap (fun x => x.2.1)).filter isData).length = n
  have hack : ((e.onPort p (fun y => y.atBlocks n)).port p).ackRseq = (e.port p).ackRseq := by rw [hself]; rfl
  rw [if_pos hless, Dev.discardRx_of_no_packet (d := e.onPort p fun y => y.atBlocks n) hpk, hack]
  obtain ⟨hout, hport, hother⟩ := Dev.issueReq_spec
    (d := (e.onPort p fun y => y.atBlocks n).onPort p fun x => { x with rxNext := (e.port p).ackRseq }) (p := p) (ack := (e.port p).ackRseq)
    (by rw [hself, hself]; exact hfor)
  rw [hself, hself] at hout hport
  exact ⟨_, _, rfl, hport, hout, rfl, rfl, rfl, rfl, rfl, fun q hq => (hother q hq).trans ((hne _ _ q hq).trans (hne _ _ q hq))⟩

/-! ## A sideband word (R53, R85) -/

theorem Dev.verdIn_of_none {d : Dev} {p : Nat} {w : Lsw} (h0 : w.bad0 = none) (h1 : w.bad1 = none) (hu : w.upToV = false) : d.verdIn p w = d := by
  unfold Dev.verdIn
  dsimp only
  rw [h0, h1, hu, if_pos (by simp), List.filter_eq_nil_iff.2 (by simp)]
  rfl

/-- What a word without retry tells the port: FC_XOFF, and what the partner has. -/
def Dev.hearsWord (d : Dev) (p : Nat) (w : Lsw) : Dev := (d.onPort p (fun x => { x with rxXoff := w.xoff })).ackTo p w.ack

theorem Dev.lswIn_of_plain {d : Dev} {p : Nat} {w : Lsw} {cycle : Nat} (hrop : w.rop = 0 ∨ w.rop = 3) (h0 : w.bad0 = none)
    (h1 : w.bad1 = none) (hu : w.upToV = false) : d.lswIn p w cycle = (d.hearsWord p w).markIn p w cycle := by
  have hreq : w.rop ≠ 1 ∧ w.rop ≠ 2 := by rcases hrop with h | h <;> simp [h]
  unfold Dev.lswIn
  extract_lets d1 d2 d3
  have h2 : d2 = d.hearsWord p w := if_neg hreq.1
  have h3 : d3 = d2 := if_neg hreq.2
  rw [Dev.verdIn_of_none h0 h1 hu, h3, h2]

/-- It changes the port alone: FC_XOFF is the word's, and what it acknowledges leaves the replay buffer. -/
theorem Dev.hearsWord_spec (d : Dev) (p : Nat) (w : Lsw) :
    ∃ y : Port, (∃ l, d.hearsWord p w = { d with ports := l }) ∧ (∀ q, q ≠ p → (d.hearsWord p w).port q = d.port q) ∧
      (d.hearsWord p w).port p = y ∧ y.rxXoff = w.xoff ∧ y.delay = (d.port p).delay ∧
      ∀ i, ackPos (d.port p) w.ack = some i → y.replay = (d.port p).replay.drop i := by
  have hpos : ackPos ((d.onPort p (fun x => { x with rxXoff := w.xoff })).port p) w.ack = ackPos (d.port p) w.ack := by
    rw [Dev.onPort, Dev.port_setPort_self]; rfl
  have hne (e : Dev) (f : Port → Port) (q : Nat) (hq : q ≠ p) : (e.onPort p f).port q = e.port q := Dev.port_setPort_ne _ _ hq
  unfold Dev.hearsWord Dev.ackTo
  rw [hpos]
  cases ha : ackPos (d.port p) w.ack with
  | none => exact ⟨_, ⟨_, rfl⟩, hne _ _, Dev.port_setPort_self .., rfl, rfl, fun i hi => nomatch hi⟩
  | some i =>
    dsimp only
    split
    next h0 =>
      refine ⟨_, ⟨_, rfl⟩, hne _ _, Dev.port_setPort_self .., rfl, rfl, fun j hj => ?_⟩
      obtain rfl := Option.some.inj hj
      rw [h0]; rfl
    next =>
      refine ⟨_, ⟨_, rfl⟩, fun q hq => (hne _ _ q hq).trans (hne _ _ q hq), Dev.port_setPort_self .., ?_⟩
      rw [Dev.onPort, Dev.port_setPort_self]
      refine ⟨rfl, rfl, fun j hj => ?_⟩
      obtain rfl := Option.some.inj hj
      rfl

/-- A marker more than one frame off stops CORR on the port under FRM 06h (R53). -/
theorem Dev.markIn_of_off {d : Dev} {p cycle : Nat} {w : Lsw} (hal : d.aligned = true) (ho : 1 < d.markOff p w cycle) :
    d.markIn p w cycle = (d.onPort p (fun x => { x with skewed := true, skewGood := 0 })).raise 1 6 (p * 256 + min (d.markOff p w cycle) 255) := by
  unfold Dev.markIn
  rw [if_neg (by simp [hal])]
  exact if_pos ho

theorem findSome_replicate_none {α : Type} (k : Nat) (b : α) (rest : List (Option α)) :
    (List.replicate k none ++ some b :: rest).findSome? id = some b := by
  induction k with
  | zero => rfl
  | succ k ih => exact ih

end Sys2Proof.Machine

namespace Sys2Proof.Claim
open Sys2Proof Sys2Proof.Machine

section
variable {s : State} {p : BitVec 7}

/-- A port whose lanes all listen takes its column. -/
theorem exec_codewordDecode_of_listens {col : Column} {e : Dev} (hv : s.dev.pvalid p.toNat = true) (hl : linked (s.dev.port p.toNat).st = true)
    (hlen : col.words.length = (s.dev.lanesOf p.toNat).length) (hls : ∀ l ∈ s.dev.lanesOf p.toNat, (s.dev.lane l).listens)
    (he : ((List.zip (s.dev.lanesOf p.toNat) col.words).foldl Dev.laneTakes s.dev).columnIn p.toNat
      (s.dev.heardBy (List.zip (s.dev.lanesOf p.toNat) col.words)) (s.dev.cycles 0 + col.cycle.toNat) = e) :
    exec (.codewordDecode p col) s = .next { s with dev := e } := by
  generalize hes : List.zip (s.dev.lanesOf p.toNat) col.words = es at he
  have hfst : es.map (·.1) = s.dev.lanesOf p.toNat := hes ▸ List.map_fst_zip (Nat.le_of_eq hlen.symm)
  have hmem (e : Nat × BitVec 5440) (he : e ∈ es) : e.1 ∈ s.dev.lanesOf p.toNat := hfst ▸ List.mem_map_of_mem (f := (·.1)) he
  have hfold := Dev.foldl_laneIn es s.dev [] (hfst ▸ s.dev.lanesOf_nodup _) fun e he => hls _ (hmem e he)
  have hall : ((s.dev.lanesOf p.toNat).all fun l => s.dev.rxLocked l && ! (s.dev.lane l).rxEi) = true := by
    refine List.all_eq_true.2 fun l hm => ?_
    obtain ⟨hc, hei, -⟩ := hls l hm
    simp [Dev.rxLocked, hei, hc]
  refine congrArg Host.Outcome.next (onDev_of_eq ?_)
  dsimp only
  rw [hv, if_neg (by simp), hl, hall, hes, hfold]
  exact he

/-- The word of the lowest usable lane acts. -/
theorem exec_lswReceive_of_word {sb : Sideband} {b : BitVec 238} (hl : linked (s.dev.port p.toNat).st = true)
    (hb : sb.words.findSome? id = some b) :
    exec (.lswReceive p sb) s = .next { s with dev := s.dev.lswIn p.toNat (lswOf b) sb.cycle.toNat } := by
  refine congrArg Host.Outcome.next (onDev_of_eq ?_)
  rw [hb]
  exact if_pos hl

/-- Without a usable word nothing happens. -/
theorem exec_lswReceive_of_none {sb : Sideband} (hb : sb.words.findSome? id = none) : exec (.lswReceive p sb) s = .next s := by
  refine congrArg Host.Outcome.next (onDev_of_eq (e := s.dev) ?_)
  rw [hb]

section
variable (hl : linked (s.dev.port p.toNat).st = true)
include hl

section
variable {col : Column} (hv : s.dev.pvalid p.toNat = true) (hreq : (s.dev.port p.toNat).reqOpen = false)
  (hlen : col.words.length = (s.dev.lanesOf p.toNat).length)
  (hls : ∀ l ∈ s.dev.lanesOf p.toNat, (s.dev.lane l).listens ∧ (s.dev.lane l).levelNow (s.dev.cycles 0 + col.cycle.toNat) ≤ 45 * 8192)
include hv hreq hlen hls

/-- A column of data blocks without an error (R81, R126). -/
theorem runs_column_of_data (htakes : takesCells (s.dev.port p.toNat) = true)
    (hc : ∀ e ∈ List.zip (s.dev.lanesOf p.toNat) col.words, (s.dev.lane e.1).hearsData e.2) :
    Runs (.codewordDecode p col) s fun t =>
      let x := s.dev.port p.toNat
      let ls := s.dev.lanesOf p.toNat
      Kept s t ∧ t.dev = { s.dev with lanes := t.dev.lanes, ports := t.dev.ports, regs := t.dev.regs } ∧
      (∀ l, l ∉ ls → t.dev.lane l = s.dev.lane l) ∧ (∀ q, q ≠ p.toNat → t.dev.port q = s.dev.port q) ∧
      RegsBut s t (ls.map (rl 0x20) ++ ls.map (rl 0x24)) ∧
      (t.dev.port p.toNat).ackRseq = x.ackRseq + BitVec.ofNat 12 ((x.rxBlocks + 19 * ls.length) / 8) ∧
      (t.dev.port p.toNat).rxBlocks = (x.rxBlocks + 19 * ls.length) % 8 ∧
      ∀ l ∈ ls, t.dev.rd64 (rl 0x20 l) = (s.dev.rd64 (rl 0x20 l) + 1) % 2 ^ 64 := by
  have hzip (e : Nat × BitVec 5440) (he : e ∈ List.zip (s.dev.lanesOf p.toNat) col.words) : e.1 ∈ s.dev.lanesOf p.toNat := (List.of_mem_zip he).1
  obtain ⟨f, hbuf, hf, hlanes, hregs⟩ := Dev.bufferIn_heardBy hzip (fun e he => (hls _ (hzip e he)).2) (fun e he => .inr (hc e he))
  have hport (q : Nat) : f.port q = s.dev.port q := Dev.port_congr (by rw [hf]) q
  have hins : (s.dev.heardBy (List.zip (s.dev.lanesOf p.toNat) col.words)).length = (s.dev.lanesOf p.toNat).length := by
    simp [Dev.heardBy, hlen]
  have hcol := Dev.columnIn_of_data hbuf (by rw [hport]; exact hreq) (by rw [hport]; exact htakes)
    (fun y hy => by obtain ⟨e, -, rfl⟩ := mem_heardBy hy; exact Lane.hears_length ..)
    (fun y hy => by obtain ⟨e, he, rfl⟩ := mem_heardBy hy; rw [Lane.hears_of_data (hc e he)]; rfl)
    (fun y hy b hb => by obtain ⟨e, he, rfl⟩ := mem_heardBy hy; rw [Lane.hears_of_data (hc e he)] at hb; exact (hc e he).2 b hb)
  rw [hport, hins] at hcol
  have hfst : (List.zip (s.dev.lanesOf p.toNat) col.words).map (·.1) = s.dev.lanesOf p.toNat := List.map_fst_zip (Nat.le_of_eq hlen.symm)
  obtain ⟨hother, hcount⟩ := Dev.foldl_laneTakes_rd_of_data _ s.dev (by rw [hfst]; exact s.dev.lanesOf_nodup p.toNat) hc
  rw [hfst] at hother hcount
  have hrun := exec_codewordDecode_of_listens hv hl hlen (fun l hm => (hls l hm).1) rfl
  generalize Dev.columnIn _ _ _ _ = g at hcol hrun
  obtain ⟨⟨hdev, hothers, hrd⟩, hack, hblocks⟩ := hcol
  exact ⟨_, hrun, ⟨rfl, rfl, rfl⟩, by rw [hdev, hf], fun l hl => (Dev.lane_congr (by rw [hdev]) l).trans (hlanes l hl),
    fun q hq => (hothers q hq).trans (hport q), fun a ha => ((hrd a).trans (hregs a)).trans (hother a ha), hack, hblocks,
    fun l hm => (Dev.rd64_congr (fun a => (hrd a).trans (hregs a)) _).trans (hcount l hm)⟩

/-- A column of which a word is lost (R126). -/
theorem runs_column_of_lost (hfor : (s.dev.port p.toNat).reqFor ≠ some (s.dev.port p.toNat).ackRseq)
    (hpk : ∀ k ∈ s.dev.pkts, k.ing ≠ some p.toNat)
    (hc : ∀ e ∈ List.zip (s.dev.lanesOf p.toNat) col.words, rsDecode e.2 = none ∨ (s.dev.lane e.1).hearsData e.2)
    (hbad : ∃ e ∈ List.zip (s.dev.lanesOf p.toNat) col.words, rsDecode e.2 = none) :
    Runs (.codewordDecode p col) s fun t =>
      let x := s.dev.port p.toNat
      Kept s t ∧ t.dev.out = .req p.toNat x.ackRseq (x.reqId + 1) :: s.dev.out ∧
      (t.dev.port p.toNat).reqOpen = true ∧ (t.dev.port p.toNat).reqAck = x.ackRseq ∧ (t.dev.port p.toNat).reqId = x.reqId + 1 ∧
      (t.dev.port p.toNat).ackRseq = x.ackRseq ∧ (t.dev.port p.toNat).reqAt = s.dev.now ∧
      ∀ q, q ≠ p.toNat → t.dev.port q = s.dev.port q := by
  have hzip (e : Nat × BitVec 5440) (he : e ∈ List.zip (s.dev.lanesOf p.toNat) col.words) : e.1 ∈ s.dev.lanesOf p.toNat := (List.of_mem_zip he).1
  obtain ⟨f, hbuf, hf, -, -⟩ := Dev.bufferIn_heardBy hzip (fun e he => (hls _ (hzip e he)).2) hc
  have hport (q : Nat) : f.port q = s.dev.port q := Dev.port_congr (by rw [hf]) q
  obtain ⟨e, he, hnone⟩ := hbad
  obtain ⟨g, y, hg, rfl, hout, hopen, hack, hid, hrseq, hat, hothers⟩ := Dev.columnIn_of_lost hbuf (by rw [hport]; exact hreq)
    (fun y hy hs b hb => by
      obtain ⟨e, he, rfl⟩ := mem_heardBy hy
      rcases hc e he with hn | hd
      · simp [Lane.hears, hn] at hs
      · rw [Lane.hears_of_data hd] at hb; exact hd.2 b hb)
    ⟨_, List.mem_map_of_mem he, by simp [Lane.hears, hnone]⟩ (by rw [hport]; exact hfor) (by rw [hf]; exact hpk)
  rw [hport] at hout hack hid hrseq
  have hfout : f.out = s.dev.out := by rw [hf]
  have hfnow : f.now = s.dev.now := by rw [hf]; rfl
  exact ⟨_, exec_codewordDecode_of_listens hv hl hlen (fun l hm => (hls l hm).1) hg, ⟨rfl, rfl, rfl⟩, hfout ▸ hout, hopen, hack, hid, hrseq,
    hat.trans hfnow, fun q hq => (hothers q hq).trans (hport q)⟩

end

section
variable {b : BitVec 238} {sb : Sideband} (hb : sb.words.findSome? id = some b) (hrop : (lswOf b).rop = 0 ∨ (lswOf b).rop = 3)
  (h0 : (lswOf b).bad0 = none) (h1 : (lswOf b).bad1 = none) (hup : (lswOf b).upToV = false)
include hb hrop h0 h1 hup

theorem exec_lswReceive_of_plain : exec (.lswReceive p sb) s =
    .next { s with dev := (s.dev.hearsWord p.toNat (lswOf b)).markIn p.toNat (lswOf b) sb.cycle.toNat } := by
  rw [exec_lswReceive_of_word hl hb, Dev.lswIn_of_plain hrop h0 h1 hup]

/-- Outside LOCKED and HOLDOVER a word's marker is not looked at. -/
theorem runs_word_of_unaligned (hal : s.dev.aligned = false) : Runs (.lswReceive p sb) s fun t => PortAnd s t p.toNat [] [] ∧
    (t.dev.port p.toNat).rxXoff = (lswOf b).xoff ∧
    ∀ i, ackPos (s.dev.port p.toNat) (lswOf b).ack = some i → (t.dev.port p.toNat).replay = (s.dev.port p.toNat).replay.drop i := by
  have hrun := exec_lswReceive_of_plain hl hb hrop h0 h1 hup
  obtain ⟨y, ⟨l, hdev⟩, hother, rfl, hxoff, -, hack⟩ := s.dev.hearsWord_spec p.toNat (lswOf b)
  generalize s.dev.hearsWord p.toNat (lswOf b) = e at *
  have hale : e.aligned = false := by rw [hdev]; exact hal
  have hmark : e.markIn p.toNat (lswOf b) sb.cycle.toNat = e := by
    unfold Dev.markIn
    rw [hale]
    rfl
  rw [hmark] at hrun
  exact ⟨_, hrun, ⟨⟨rfl, rfl, rfl⟩, by rw [hdev]; rfl, hother, fun a _ => by rw [hdev]; rfl⟩, hxoff, hack⟩

/-- A marker more than one frame off (R53). -/
theorem runs_word_of_off (hal : s.dev.aligned = true) (hoff : 1 < s.dev.markOff p.toNat (lswOf b) sb.cycle.toNat) :
    Runs (.lswReceive p sb) s fun t => Kept s t ∧ (t.dev.port p.toNat).rxXoff = (lswOf b).xoff ∧ (t.dev.port p.toNat).skewed = true ∧
      condWord 1 6 (p.toNat * 256 + min (s.dev.markOff p.toNat (lswOf b) sb.cycle.toNat) 255) ∈ t.dev.words ∧
      RegsBut s t (condRegs 1 0) := by
  have hrun := exec_lswReceive_of_plain hl hb hrop h0 h1 hup
  obtain ⟨y, ⟨l, hdev⟩, -, hy, hxoff, hdelay, -⟩ := s.dev.hearsWord_spec p.toNat (lswOf b)
  generalize s.dev.hearsWord p.toNat (lswOf b) = e at *
  have hsame : e.markOff p.toNat (lswOf b) sb.cycle.toNat = s.dev.markOff p.toNat (lswOf b) sb.cycle.toNat := by
    unfold Dev.markOff
    rw [hy, hdelay, hdev]
    rfl
  have hregs (a : Nat) : e.rd a = s.dev.rd a := by rw [hdev]; rfl
  rw [Dev.markIn_of_off (by rw [hdev]; exact hal) (by rw [hsame]; exact hoff), hsame, Dev.raise_eq] at hrun
  have hport (k : Nat) : ((e.onPort p.toNat (fun x => { x with skewed := true, skewGood := 0 })).raiseAt 1 6 k 0).port p.toNat =
      { y with skewed := true, skewGood := 0 } := by
    rw [Dev.port_congr (Dev.raiseAt_ports ..), Dev.onPort, Dev.port_setPort_self, hy]
  exact ⟨_, hrun, ⟨rfl, rfl, rfl⟩, (congrArg Port.rxXoff (hport _)).trans hxoff, congrArg Port.skewed (hport _), by simp,
    fun a ha => ((raisedOn_raiseAt _ 1 6 _ 0).2.2 a ha).trans (hregs a)⟩

end

end

end

/-- Settles O27: columns, sideband words and PROTO_ERR on a linked port, clause by clause. -/
theorem columnsAndSidebandWords : Obligations.ColumnsAndSidebandWords := by
  unfold Obligations.ColumnsAndSidebandWords
  intro s p n x ls open_ clean ready hl
  have hready (col : Column) (hr : ∀ l ∈ ls, ready col.cycle l) (l : Nat) (hm : l ∈ ls) :
      (s.dev.lane l).listens ∧ (s.dev.lane l).levelNow (s.dev.cycles 0 + col.cycle.toNat) ≤ 45 * 8192 := by
    obtain ⟨hc, hei, hh, hlevel⟩ := hr l hm
    exact ⟨⟨hc, hei, hh⟩, hlevel⟩
  refine ⟨fun col hv htakes hreq hlen hr hc => runs_column_of_data hl hv hreq hlen (hready col hr) htakes hc,
    fun col hv hreq hfor hpk hlen hr hc hbad => runs_column_of_lost hl hv hreq hlen (hready col hr) hfor hpk hc hbad, fun k b rest sb hsb => ?_,
    fun sb hsb => ⟨_, exec_lswReceive_of_none (List.findSome?_eq_none_iff.2 hsb), rfl⟩,
    fun code => runs_dev rfl (if_pos hl) ⟨⟨rfl, rfl, rfl⟩, raisedOn_raiseAt ..⟩⟩
  intro w hrop h0 h1 hup
  have hb : sb.words.findSome? id = some b := hsb ▸ findSome_replicate_none k b rest
  exact ⟨fun hal => runs_word_of_unaligned hl hb hrop h0 h1 hup hal, fun hal hoff => runs_word_of_off hl hb hrop h0 h1 hup hal hoff⟩

end Sys2Proof.Claim
end

section
/-! PROOFS. What a step of the machine keeps in order: the numbers of packets and queue entries, the losses
noted, and, where it is watched, the clock and what waits to be sampled (R55, R71, R186, R479). -/

namespace Sys2Proof.Machine

/-- The clock, and what waits for a boundary. -/
structure Calm where
  frm : Frm
  inputs : List Instr
  acts : List CtlAct
  reads : List RdAct
  dpDue : Bool

/-- What the order of a device is about. -/
structure Books where
  pkts : List Pkt
  queue : List QEnt
  nextId : Nat
  lost : List (Packet × Word)
  calm : Calm

def Dev.books (d : Dev) : Books :=
  { pkts := d.pkts, queue := d.queue, nextId := d.nextId, lost := d.lost
    calm :=
      { frm := d.frm, inputs := d.inputs, acts := d.obvo.acts, reads := d.obvo.reads, dpDue := d.dpDue } }

/-- What is watched: the numbers, that no loss waits to be settled, and the clock. -/
structure Watch where
  counted : Bool
  settled : Bool
  calm : Option Calm

/-- The watch while losses may be noted. -/
def Watch.loud (W : Watch) : Watch := { W with settled := false }

/-- The watch while the clock may run. -/
def Watch.free (W : Watch) : Watch := { W with calm := none }

/-- Packets and queue entries are numbered below the next number, no loss waits, and the clock stands, where
each is watched. -/
structure Watch.Holds (W : Watch) (b : Books) : Prop where
  ids : W.counted = true → ∀ k ∈ b.pkts, k.id < b.nextId
  keys : W.counted = true → ∀ q ∈ b.queue, q.key < b.nextId
  lost : W.settled = true → b.lost = []
  calm : ∀ c, W.calm = some c → b.calm = c

/-- The device's books are in order. -/
def Dev.Sound (W : Watch) (d : Dev) : Prop := W.Holds d.books

def State.Sound (W : Watch) (s : State) : Prop := s.dev.Sound W

namespace Watch
variable {W : Watch}

/-- While losses may be noted, none is watched for. -/
theorem loud_mute {P : Prop} (hq : W.loud.settled = true) : P := Bool.noConfusion hq

end Watch

namespace Dev.Sound
variable {W : Watch} {d e f : Dev}

theorem loud (h : d.Sound W) : d.Sound W.loud := ⟨h.ids, h.keys, Watch.loud_mute, h.calm⟩

theorem free (h : d.Sound W) : d.Sound W.free := ⟨h.ids, h.keys, h.lost, nofun⟩

/-- What changes no book keeps the order. -/
theorem keep (h : d.Sound W) (k : e.books = d.books) : e.Sound W := by
  unfold Dev.Sound
  rw [k]
  exact h

/-- Where nothing waits, everything is in order. -/
theorem blank (hp : d.pkts = []) (hq : d.queue = []) (hl : d.lost = []) : d.Sound W.free where
  ids _ k hk := by
    rw [show d.books.pkts = [] from hp] at hk
    nomatch hk
  keys _ q hq' := by
    rw [show d.books.queue = [] from hq] at hq'
    nomatch hq'
  lost _ := hl
  calm := nofun

theorem ite {c : Prop} [Decidable c] (he : e.Sound W) (hf : f.Sound W) :
    (if c then e else f).Sound W := by
  split
  · exact he
  · exact hf

theorem foldl {α : Type} {l : List α} {g : Dev → α → Dev} (h : d.Sound W)
    (hg : ∀ x a, x.Sound W → (g x a).Sound W) : (l.foldl g d).Sound W :=
  List.foldlRecOn l g h fun x hx a _ => hg x a hx

theorem someElse {c : Prop} [Decidable c] {o : Option Dev} (he : e.Sound W)
    (ho : ∀ x ∈ o, x.Sound W) : ∀ x ∈ (if c then some e else o), x.Sound W := by
  split
  · exact fun x hx => Option.some.inj hx ▸ he
  · exact ho

end Dev.Sound

namespace State.Sound
variable {W : Watch} {s t u : State}

theorem of {p : List Instr} {d : Dev} {nv : Nv} {m : List (Nat × Byte)} (h : d.Sound W) :
    State.Sound W { pending := p, dev := d, nv := nv, mem := m } := h

theorem loud (h : s.Sound W) : s.Sound W.loud := Dev.Sound.loud h

theorem free (h : s.Sound W) : s.Sound W.free := Dev.Sound.free h

theorem ite {c : Prop} [Decidable c] (ht : t.Sound W) (hu : u.Sound W) :
    (if c then t else u).Sound W := by
  split
  · exact ht
  · exact hu

theorem foldl {α : Type} {l : List α} {g : State → α → State} (h : s.Sound W)
    (hg : ∀ x a, x.Sound W → (g x a).Sound W) : (l.foldl g s).Sound W :=
  List.foldlRecOn l g h fun x hx a _ => hg x a hx

end State.Sound

/-- The causes of losses that abort a collective or Fan operation (R479, R480). -/
def Cause.noted : Cause → Bool
  | .flush | .linkLost | .residue _ => true
  | _ => false

theorem lossWord_of_unnoted {dr : Drop} (hd : dr.cause.noted = false) : lossWord dr = none := by
  unfold lossWord
  split
  case h_4 => rfl
  all_goals
    rename_i hc
    rw [hc] at hd
    nomatch hd

/-- The causes with which an offer fails abort nothing. -/
def Try.noted : Try → Bool
  | .ok _ _ => false
  | .no _ c => c.noted
  | .gone _ c => c.noted

theorem outDrop_cause (o : Nat) (c : Cause) (p : Nat) : (outDrop o c p).cause = c := by
  unfold outDrop
  split <;> rfl

theorem Dev.tryOut_unnoted (d : Dev) (r : Nat) (k : Pkt) (o u : Nat) :
    (d.tryOut r k o u).noted = false := by
  unfold Dev.tryOut
  simp only [apply_ite Try.noted]
  simp only [Try.noted, Cause.noted, ite_self]

theorem firstOk_unnoted (t : Try) (ts : List Try) (ht : t.noted = false)
    (hts : ∀ x ∈ ts, x.noted = false) :
    (firstOk t ts).noted = false := by
  induction ts generalizing t with
  | nil => exact ht
  | cons x xs ih =>
    have hx := hts x List.mem_cons_self
    have hxs := fun y hy => hts y (List.mem_cons_of_mem x hy)
    cases x with
    | ok o n => rfl
    | no o c => exact ih _ hx hxs
    | gone o c => exact ih _ hx hxs

theorem Dev.tryTgt_unnoted (d : Dev) (r : Nat) (k : Pkt) (t : Tgt) :
    (d.tryTgt r k t).noted = false := by
  unfold Dev.tryTgt
  split
  · exact d.tryOut_unnoted ..
  · cases d.group t.dir
    case nil => rfl
    case cons =>
      dsimp only
      split_ifs
      · exact d.tryOut_unnoted ..
      · rfl
      · rfl
      · rfl
      · refine firstOk_unnoted _ _ rfl fun x hx => ?_
        obtain ⟨p, -, rfl⟩ := List.mem_map.mp hx
        exact d.tryOut_unnoted ..

/-- Whatever comes of a presentation, the device it leaves is in order. -/
def Grant.Sound (W : Watch) : Grant → Prop
  | .done d => d.Sound W
  | .lost d _ => d.Sound W
  | .wait d => d.Sound W

/-- A command that ends well leaves an ordered state. -/
def Leaves (W : Watch) : Host.Outcome State Fault Refusal → Prop
  | .next t => t.Sound W
  | _ => True

/-! ### Operations of the state -/

namespace State.Sound
section
variable {W : Watch} {s : State} (h : s.Sound W)
include h

theorem onDev {f : Dev → Dev} (hf : ∀ x, x.Sound W → (f x).Sound W) : (s.onDev f).Sound W := hf _ h

theorem devStep {f : Dev → Dev} (hf : ∀ x, x.Sound W → (f x).Sound W) : Leaves W (devStep f s) :=
  h.onDev hf

end
end State.Sound

namespace Dev.Sound
section
variable {W : Watch} {d : Dev} (h : d.Sound W)
include h

theorem wr {a : Nat} {v : Word} : (d.wr a v).Sound W := h.keep (by rfl)

theorem setFld {a lo len v : Nat} : (d.setFld a lo len v).Sound W := h.wr

theorem addSat {a n : Nat} : (d.addSat a n).Sound W := h.wr

theorem wr64 {a n : Nat} : (d.wr64 a n).Sound W := h.wr.wr

theorem add64 {a n : Nat} : (d.add64 a n).Sound W := h.wr64

theorem setLane {l : Nat} {v : Lane} : (d.setLane l v).Sound W := h.keep (by rfl)

theorem setPort {p : Nat} {v : Port} : (d.setPort p v).Sound W := h.keep (by rfl)

theorem onPort {p : Nat} {f : Port → Port} : (d.onPort p f).Sound W := h.setPort

theorem onLane {l : Nat} {f : Lane → Lane} : (d.onLane l f).Sound W := h.setLane

theorem holdAt {b c det idx : Nat} : (d.holdAt b c det idx).Sound W := by
  obtain ⟨r, q, a, e, hd⟩ := Dev.holdAt_eq d b c det idx
  rw [hd]
  exact h.keep (by rfl)

theorem raiseAt {b c det idx : Nat} : (d.raiseAt b c det idx).Sound W := (h.keep (by rfl)).holdAt

theorem raise {b c det : Nat} : (d.raise b c det).Sound W := h.raiseAt

theorem raiseOnce {mask : Word} {b c det : Nat} : (d.raiseOnce mask b c det).Sound W := by
  unfold Dev.raiseOnce
  extract_lets m
  exact h.ite h.raise

theorem emit {o : Out} : (d.emit o).Sound W := h.keep (by rfl)

end
end Dev.Sound

namespace State.Sound
section
variable {W : Watch} {s : State} (h : s.Sound W.free)
include h

theorem wait {c : Instr} : (s.wait c).Sound W.free := ⟨h.ids, h.keys, h.lost, nofun⟩

end
end State.Sound

namespace State.Sound
section
variable {W : Watch} {s : State} (h : s.Sound W)
include h

theorem unheard : s.unheard.Sound W := h.onDev (fun _ hx => hx.ite hx.addSat)

end
end State.Sound

namespace State.Sound
section
variable {W : Watch} {s : State} (h : s.Sound W.free)
include h

theorem waitFrom {src : Src} {c : Instr} : (s.waitFrom src c).Sound W.free := h.unheard.ite h.wait

end
end State.Sound

namespace Dev.Sound
section
variable {W : Watch} {d : Dev} (h : d.Sound W)
include h

theorem setBit {a i : Nat} {b : Bool} : (d.setBit a i b).Sound W := h.setFld

theorem stackTake {us : List Nat} {cur : Bool} : ∀ x ∈ d.stackTake us cur, x.Sound W := by
  refine List.foldlRecOn us _ (motive := fun m : Option Dev => ∀ x ∈ m, x.Sound W) ?_
      fun m hm u _ => ?_
  · intro x hx
    obtain rfl := Option.some.inj hx
    exact h
  · intro x hx
    cases m with
    | none => nomatch hx
    | some y =>
      obtain ⟨-, hx⟩ := Option.ite_none_left_eq_some.mp hx
      exact (Option.some.inj hx) ▸ ((hm y rfl).keep (by rfl))

theorem reserve {a n : Nat} : ∀ x ∈ d.reserve a n, x.Sound W := by
  unfold Dev.reserve
  extract_lets us
  split
  · rename_i y hy
    intro x hx
    obtain rfl := Option.some.inj hx
    exact h.stackTake _ hy
  · exact h.stackTake

theorem drawUnits {a n : Nat} : (d.drawUnits a n).Sound W := by
  unfold Dev.drawUnits
  split
  · rename_i x hx
    exact h.stackTake x hx
  · exact h.keep (by rfl)

theorem pushEv {kind : Nat} {body : List Byte} : (d.pushEv kind body).Sound W := h.keep (by rfl)

theorem event {kind : Nat} {body : List Byte} : (d.event kind body).Sound W := by
  unfold Dev.event
  extract_lets _ d1 _ d2 _
  split
  · exact Dev.Sound.addSat (h.keep (by rfl))
  · split
    · exact h.pushEv
    · have h1 : d1.Sound W := h.pushEv
      have h2 : d2.Sound W := h1.keep (by rfl)
      split
      · exact Dev.Sound.addSat (h2.keep (by rfl))
      · exact h2.pushEv

end
end Dev.Sound

/-! ### Flags -/

namespace Dev.Sound
section
variable {W : Watch} {d : Dev} (h : d.Sound W)
include h

theorem countDrop {p c k pkts cells : Nat} : (d.countDrop p c k pkts cells).Sound W :=
  h.add64.add64.ite h

theorem countStomp {ing : Option Nat} {hv : Header} : (d.countStomp ing hv).Sound W := by
  unfold Dev.countStomp
  split
  · exact h.countDrop
  · exact h

theorem countPkt {c : Nat} {ing : Option Nat} : (d.countPkt c ing).Sound W := by
  unfold Dev.countPkt
  split
  · exact h.add64
  · exact h.add64

theorem orderCond {c : Nat} {ing o : Option Nat} : (d.orderCond c ing o).Sound W := h.countPkt.raise

theorem settleDrop {ing : Option Nat} {hv : Header} {dr : Drop} :
    (d.settleDrop ing hv dr).Sound W := by
  unfold Dev.settleDrop
  split
  · exact h.orderCond.ite h.countPkt.raiseOnce
  · exact h.add64.raiseOnce
  · exact h.countDrop.raiseOnce
  · exact h.countDrop.raiseOnce
  · exact h
  · exact h.countDrop

theorem wmark {a n : Nat} : (d.wmark a n).Sound W := h.setFld.ite h

end
end Dev.Sound

/-! ### Routes -/

namespace Dev.Sound
section
variable {W : Watch} {d : Dev} (h : d.Sound W)
include h

theorem drawVia {p : Nat} {hv : Header} {ev : DtE} : (d.drawVia p hv ev).1.Sound W := by
  have h1 : (d.drawVia p hv ev).1 =
      ({ d with lfsr := d.lfsr.set (d.owner p) (lfsrStep (d.lfsr.getD (d.owner p) 1)) }).add64 (ra 6 0xA8) 1 := by
    unfold Dev.drawVia
    dsimp only
    split <;> rfl
  rw [h1]
  exact Dev.Sound.add64 (h.keep (by rfl))

theorem addPkt {k : Pkt} : (d.addPkt k).Sound W where
  ids := by
    intro hc x hx
    rcases List.mem_append.mp hx with hx | hx
    · exact Nat.lt_succ_of_lt (h.ids hc x hx)
    · obtain rfl := List.mem_singleton.mp hx
      exact Nat.lt_succ_self _
  keys hc q hq := Nat.lt_succ_of_lt (h.keys hc q hq)
  lost := h.lost
  calm := h.calm

theorem originate {pk : Packet} {dir cin : Option Nat} {col : Bool} :
    (d.originate pk dir cin col).Sound W := by
  unfold Dev.originate
  extract_lets hd e
  split
  · exact h.settleDrop
  · split
    extract_lets mc lost
    refine .ite h.settleDrop ?_
    exact Dev.Sound.ite (h.foldl fun x _ hx => hx.settleDrop) (Dev.Sound.addPkt (h.foldl
        fun x _ hx => hx.settleDrop))

theorem send {op cls slice dst seq : Nat} {payload : List Byte} :
    (d.send op cls slice dst seq payload).Sound W :=
  h.originate

theorem ordDone {hv : Header} {status : Nat} : (d.ordDone hv status).Sound W := h.send

theorem answer {ing : Option Nat} {hv : Header} {payload : List Byte} {w : Word} :
    (d.answer ing hv payload w).Sound W := by
  unfold Dev.answer
  split
  · extract_lets corr u
    exact h.originate
  · exact h.send.ite h

theorem noteLoss {pk : Packet} {dr : Drop}
    (hq : W.settled = true → dr.cause.noted = false) :
    (d.noteLoss pk dr).Sound W := by
  unfold Dev.noteLoss
  split
  · split
    next w hw =>
      refine ⟨h.ids, h.keys, fun hs => ?_, h.calm⟩
      rw [lossWord_of_unnoted (hq hs)] at hw
      nomatch hw
    next => exact h
  · exact h

theorem discard {k : Pkt} {dr : Drop}
    (hq : W.settled = true → dr.cause.noted = false) :
    (d.discard k dr).Sound W := by
  unfold Dev.discard
  extract_lets hd ing d1 passed3 d2
  have h1 : d1.Sound W := h.settleDrop.noteLoss hq
  have h2 : d2.Sound W := by
    dsimp only [d2]
    split
    · exact h1.answer.ite h1
    · exact h1
  exact h2.ordDone.ite h2

theorem resolve {p : Nat} {k : Pkt} : (d.resolve p k).1.Sound W := by
  have hv : ∀ c : Prop, ∀ [Decidable c] h0 e,
      (if c then d.drawVia p h0 e else (d, h0)).1.Sound W := by
    intro c _ h0 e
    split
    · exact h.drawVia
    · exact h
  unfold Dev.resolve
  extract_lets h0 gone e
  split
  · exact h
  · split
    next d1 h1 hd =>
    have hd1 : d1.Sound W := by
      have hv := hv (d.valiant p h0 e = true) h0 e
      rwa [hd] at hv
    split
    dsimp only
    split
    · exact hd1
    · split
      · exact hd1
      · split
        · exact hd1
        · exact hd1
        · exact hd1

theorem lookup {p : Nat} {pk : Packet} {tag rseq : BitVec 12} : (d.lookup p pk tag rseq).Sound W :=
  h.resolve.addPkt

theorem onPkt {id : Nat} {f : Pkt → Pkt}
    (hf : ∀ k, k.id = id → (f k).id = id) : (d.onPkt id f).Sound W where
  ids := by
    intro hc x hx
    obtain ⟨k, hk, rfl⟩ := List.mem_map.mp hx
    split
    next he => exact (hf k he).trans he.symm ▸ h.ids hc k hk
    next => exact h.ids hc k hk
  keys := h.keys
  lost := h.lost
  calm := h.calm

theorem fewerPkts {f : Pkt → Bool} : ({ d with pkts := d.pkts.filter f } : Dev).Sound W :=
  ⟨fun hc k hk => h.ids hc k (List.mem_of_mem_filter hk), h.keys, h.lost, h.calm⟩

theorem rmPkt {id : Nat} : (d.rmPkt id).Sound W := h.fewerPkts

theorem relook {k : Pkt} : (d.relook k).1.Sound W := h.resolve

end
end Dev.Sound

/-! ### Buffers -/

namespace Dev.Sound
section
variable {W : Watch} {d : Dev} (h : d.Sound W)
include h

theorem ptrFault {k j : Nat} {buf : Option Nat} : (d.ptrFault k j buf).Sound W := by
  unfold Dev.ptrFault
  extract_lets d1
  have h1 : d1.Sound W := h.addSat.raise
  split
  · exact (h1.keep (by rfl)).addSat.ite h1
  · exact h1

theorem handOut {k j pid n : Nat} : (d.handOut k j pid n).Sound W := by
  unfold Dev.handOut
  split
  · exact h.keep (by rfl)
  · extract_lets l
    exact h.keep (by rfl)

theorem takeBack {k j pid i : Nat} : (d.takeBack k j pid i).Sound W := by
  unfold Dev.takeBack
  split
  · exact h
  · split
    · exact h
    · split
      · exact h.raise.ptrFault
      · extract_lets nb
        exact (h.keep (by rfl)).ite (h.keep (by rfl))

theorem giveUp {k j pid m n : Nat} : (d.giveUp k j pid m n).Sound W :=
  h.foldl fun _ _ hx => hx.takeBack

end
end Dev.Sound

/-! ### The keeper -/

namespace Dev.Sound
section
variable {W : Watch} {d : Dev} (h : d.Sound W)
include h

theorem setBud {o c : Nat} {b : Nat × Nat} : (d.setBud o c b).Sound W := h.keep (by rfl)

theorem openBud {o : Nat} : (d.openBud o).Sound W := by
  unfold Dev.openBud
  extract_lets d1
  have h1 : d1.Sound W := h.foldl fun x _ hx => hx.setBud
  exact h1.foldl fun x _ hx => hx.keep (by rfl)

theorem shutBud {o : Nat} : (d.shutBud o).Sound W := by
  unfold Dev.shutBud
  extract_lets d1
  have h1 : d1.Sound W := h.foldl fun x _ hx => hx.setBud
  exact h1.keep (by rfl)

theorem holdSync : d.holdSync.Sound W := by
  unfold Dev.holdSync
  extract_lets d1
  have h1 : d1.Sound W := h.keep (by rfl)
  exact h1.foldl fun x _ hx => hx.handOut

theorem injUnits {p n : Nat} : (d.injUnits p n).Sound W := by
  unfold Dev.injUnits
  split
  · exact h
  · extract_lets m rest
    exact (h.keep (by rfl)).addSat

theorem refreshXoff {p : Nat} : (d.refreshXoff p).Sound W := by
  unfold Dev.refreshXoff
  extract_lets old bits
  exact h.ite h.onPort.emit

theorem countInj {k : Pkt} {o : Nat} : (d.countInj k o).Sound W := by
  unfold Dev.countInj
  split
  · exact h
  · extract_lets p c n a
    exact h.keep (by rfl)

theorem sample {p dir : Nat} {pk : Packet} : (d.sample p dir pk).Sound W := by
  unfold Dev.sample
  extract_lets r n cnt d1 k size tail head rec_ d2
  split
  · exact h
  · have h1 : d1.Sound W := h.keep (by rfl)
    split
    · exact h1
    · split
      · exact h1.addSat.raiseOnce
      · have h2 : d2.Sound W := h1.setFld
        exact h2.keep (by rfl)

theorem patAccepted {k : Pkt} : (d.patAccepted k).Sound W := by
  unfold Dev.patAccepted
  split
  · extract_lets x
    exact (h.keep (by rfl)).add64.ite h
  · exact h

theorem patWithdraw {sv : Nat} : (d.patWithdraw sv).Sound W := h.fewerPkts.keep (by rfl)

theorem moreQueue {q : QEnt} (hq : q.key = d.nextId) :
    ({ d with queue := d.queue ++ [q], nextId := d.nextId + 1 } : Dev).Sound W where
  ids hc k hk := Nat.lt_succ_of_lt (h.ids hc k hk)
  keys := by
    intro hc x hx
    rcases List.mem_append.mp hx with hx | hx
    · exact Nat.lt_succ_of_lt (h.keys hc x hx)
    · obtain rfl := List.mem_singleton.mp hx
      exact hq ▸ Nat.lt_succ_self _
  lost := h.lost
  calm := h.calm

theorem fewerEnts {f : QEnt → Bool} : ({ d with queue := d.queue.filter f } : Dev).Sound W :=
  ⟨h.ids, fun hc q hq => h.keys hc q (List.mem_of_mem_filter hq), h.lost, h.calm⟩

theorem mapEnts {f : QEnt → QEnt} (hf : ∀ q, (f q).key = q.key) :
    ({ d with queue := d.queue.map f } : Dev).Sound W where
  ids := h.ids
  keys := by
    intro hc x hx
    obtain ⟨q, hq, rfl⟩ := List.mem_map.mp hx
    exact (hf q).symm ▸ h.keys hc q hq
  lost := h.lost
  calm := h.calm

theorem mapPkts {f : Pkt → Pkt} (hf : ∀ k, (f k).id = k.id) :
    ({ d with pkts := d.pkts.map f } : Dev).Sound W where
  ids := by
    intro hc x hx
    obtain ⟨k, hk, rfl⟩ := List.mem_map.mp hx
    exact (hf k).symm ▸ h.ids hc k hk
  keys := h.keys
  lost := h.lost
  calm := h.calm

theorem enqueue {k : Pkt} {t : Tgt} {o : Nat} {next : Bool} : (d.enqueue k t o next).Sound W := by
  unfold Dev.enqueue
  extract_lets hd c n cid b b' d1 _ _ q d2 mk d3 d4 _ d5
  have h1 : d1.Sound W := (h.keep (by rfl)).ite h.setBud
  have h2 : d2.Sound W := Dev.Sound.handOut (Dev.Sound.onPort (h1.moreQueue rfl))
  have h3 : d3.Sound W := (Dev.Sound.add64 (h2.mapEnts fun x => by split <;> rfl)).ite h2
  have h4 : d4.Sound W := h3.countInj.patAccepted
  have h5 : d5.Sound W := (h4.keep (by rfl)).ite h4
  exact h5.wmark

theorem track {o : Nat} {hv : Header} : (d.track o hv).Sound W := by
  unfold Dev.track
  extract_lets a t t1
  exact h.keep (by rfl)

theorem accepted {k : Pkt} {o : Nat} : (d.accepted k o).Sound W := by
  unfold Dev.accepted
  extract_lets hd cnt d1 d2 d3
  have h1 : d1.Sound W := h.track.ite h
  have h2 : d2.Sound W := by
    dsimp only [d2]
    split
    · exact h1.sample.ite h1
    · exact h1
  have h3 : d3.Sound W := h2.keep (by rfl)
  exact h3.rmPkt.ite (h3.onPkt (by simp))

theorem dropPkt {k : Pkt} {dr : Drop}
    (hq : W.settled = true → dr.cause.noted = false) :
    (d.dropPkt k dr).Sound W := by
  unfold Dev.dropPkt
  extract_lets d1
  have h1 : d1.Sound W := h.keep (by rfl)
  exact (h1.discard hq).rmPkt.ite (h1.onPkt (by simp))

theorem dropCopy {k : Pkt} {dr : Drop} : (d.dropCopy k dr).Sound W := h.settleDrop.ite (h.onPkt (by simp))

theorem wantWake {o : Nat} : (d.wantWake o).Sound W := h.onPort.ite h

theorem noRoom {k : Pkt} {o : Nat} {c : Cause}
    (hq : W.settled = true → c.noted = false) :
    (d.noRoom k o c).Sound W := by
  unfold Dev.noRoom
  extract_lets d1
  have h1 : d1.Sound W := h.wantWake
  exact (h1.dropPkt hq).ite h1

theorem countFenced {k : Pkt} {o : Nat} : (d.countFenced k o).Sound W := by
  unfold Dev.countFenced
  extract_lets g l d1
  have h1 : d1.Sound W := h.add64.raiseOnce
  exact (h1.keep (by rfl)).ite h1

theorem fenceCopy {k : Pkt} {o : Nat} : (d.fenceCopy k o).Sound W := h.countFenced.ite h.dropCopy

end
end Dev.Sound

namespace Dev.Sound
section
variable {W : Watch} {d : Dev} (h : d.Sound W.loud)
include h

theorem settleDues {k : Pkt} {l : List Drop} : (d.settleDues k l).Sound W.loud :=
  h.foldl fun _ _ hx => hx.countFenced.ite (hx.settleDrop.noteLoss Watch.loud_mute)

end
end Dev.Sound

namespace Dev.Sound
section
variable {W : Watch} {d : Dev} (h : d.Sound W)
include h

theorem settled {k : Pkt} : (d.settled k).Sound W := by
  unfold Dev.settled
  extract_lets got d1 d2
  have h1 : d1.Sound W := by
    dsimp only [d1]
    split
    · exact h.sample.ite h
    · exact h
  have h2 : d2.Sound W := h1.keep (by rfl)
  exact h2.rmPkt.ite (h2.onPkt (by simp))

theorem offerMany {r : Nat} {k : Pkt} : (d.offerMany r k).1.Sound W := by
  unfold Dev.offerMany
  extract_lets c joint live open_ never d1
  have h1 : d1.Sound W := by
    refine h.foldl fun x a hx => .ite hx.fenceCopy ?_
    split
    · exact hx.enqueue
    · exact hx.wantWake.dropCopy
    · exact hx.dropCopy
  cases hn : never with
  | some m =>
    obtain ⟨o, cc⟩ := m
    obtain ⟨-, hn⟩ := Option.ite_none_right_eq_some.mp hn
    obtain ⟨e, he, hf⟩ := List.exists_of_findSome?_eq_some hn
    obtain ⟨t, -, rfl⟩ := List.mem_map.mp he
    have hm := Dev.tryTgt_unnoted d r k t
    refine h.dropPkt fun _ => ?_
    rw [outDrop_cause]
    split at hf
    next o1 c1 hg =>
      obtain ⟨-, hf⟩ := Option.ite_none_right_eq_some.mp hf
      rw [show d.tryTgt r k t = .gone o1 c1 from hg] at hm
      exact (Prod.mk.inj (Option.some.inj hf)).2 ▸ hm
    next => nomatch hf
  | none =>
    dsimp only
    split
    · refine h.foldl fun x a hx => ?_
      split
      · exact hx.wantWake
      · exact hx
    · exact h1.settled

theorem offer {r : Nat} {k : Pkt} : (d.offer r k).1.Sound W := by
  unfold Dev.offer
  split
  · exact h.offerMany
  · split
    · exact h
    next t _ _ =>
      have hm := Dev.tryTgt_unnoted d r k t
      split
      next => exact h.enqueue.accepted
      next o c hg =>
        rw [hg] at hm
        exact h.noRoom fun _ => hm
      next o c hg =>
        rw [hg] at hm
        split
        · exact h
        · exact h.dropPkt fun _ => (outDrop_cause ..).symm ▸ hm

theorem nextEpoch {o : Nat} {src : BitVec 16} : (d.nextEpoch o src).Sound W := by
  unfold Dev.nextEpoch
  extract_lets a t t1
  exact h.keep (by rfl)

theorem orderTimeout {k : Pkt} {o : Nat} : (d.orderTimeout k o).Sound W := by
  unfold Dev.orderTimeout
  extract_lets d1
  have h1 : d1.Sound W := h.nextEpoch.add64.orderCond
  exact h1.ordDone.rmPkt

theorem orderOffer {r : Nat} {k : Pkt} {o : Nat} {step : Bool} :
    (d.orderOffer r k o step).Sound W := by
  unfold Dev.orderOffer
  split
  · exact h
  · split
    · extract_lets d1
      have h1 : d1.Sound W := h.enqueue.accepted
      exact (h1.nextEpoch.ite h1).ordDone
    · exact h.wantWake
    · exact h.settleDrop.orderTimeout

theorem orderPresent {r : Nat} {k : Pkt} {o : Nat} : (d.orderPresent r k o).Sound W :=
  h.orderCond.ordDone.rmPkt.ite (h.orderOffer.ite (h.onPkt (by simp)))

theorem oxDraw {slot : Nat} {k : Pkt} : (d.oxDraw slot k).Sound W := h.drawUnits

theorem parks {l : List (Nat × Nat)} : ({ d with oxbow := l } : Dev).Sound W := h.keep (by rfl)

theorem park {k : Pkt} : (d.park k).Sound W := (h.oxDraw.onPkt (by simp)).parks.add64

theorem drainTurn {r : Nat} {k : Pkt} {a : Act} : (d.drainTurn r k a).Sound W := by
  unfold Dev.drainTurn
  split
  · exact h.park.ite h
  · extract_lets d1
    have h1 : d1.Sound W := h.raiseOnce.ite h
    exact h1.offer.ite h1

theorem turn {r : Nat} {k0 : Pkt} : (d.turn r k0).Sound W := by
  unfold Dev.turn
  split
  · exact h
  · split
    · split
      · exact h.orderOffer
      · split
        · exact h.drainTurn
        · exact h.ite h.orderPresent
    · exact h.drainTurn
    · exact h.ite h.offer

theorem serve {r : Nat} {l : List Pkt} : (d.serve r l).Sound W := by
  unfold Dev.serve
  extract_lets meet
  exact h.foldl fun x _ hx => hx.foldl fun x _ hx => hx.turn

theorem stepEpochs {l : List Pkt} : (d.stepEpochs l).Sound W := by
  unfold Dev.stepEpochs
  refine h.foldl fun x _ hx => ?_
  split
  · exact hx.nextEpoch.ite hx
  · exact hx

theorem round {r : Nat} : (d.round r).Sound W := by
  unfold Dev.round
  extract_lets l late first
  exact h.serve.stepEpochs.serve

theorem dropEnt {q : QEnt} {c : Cause}
    (hq : W.settled = true → c.noted = false) : (d.dropEnt q c).Sound W :=
  (h.settleDrop.noteLoss hq).ite (h.onPkt (by simp))

theorem freeEnt {q : QEnt} : (d.freeEnt q).Sound W := h.giveUp

end
end Dev.Sound

namespace Dev.Sound
section
variable {W : Watch} {d : Dev} (h : d.Sound W.loud)
include h

theorem loseCells {p pid n : Nat} {pk : Packet} : (d.loseCells p pid n pk).Sound W.loud :=
  (h.onPkt (by simp)).ite (h.settleDrop.noteLoss Watch.loud_mute)

theorem loseTrain {p : Nat} {q : QEnt} : (d.loseTrain p q).Sound W.loud := h.loseCells.add64

theorem flushQueue {p : Nat} {quar : Bool} : (d.flushQueue p quar).Sound W.loud := by
  unfold Dev.flushQueue
  extract_lets mine d1 gone
  have h1 : d1.Sound W.loud := h.foldl fun x q hx =>
    .ite hx (.ite (Dev.Sound.ite hx.loseTrain hx).freeEnt (hx.dropEnt Watch.loud_mute).freeEnt)
  exact Dev.Sound.onPort h1.fewerEnts

theorem flushHolds {p : Nat} : (d.flushHolds p).Sound W.loud :=
  h.foldl fun _ _ hx => hx.dropPkt Watch.loud_mute

end
end Dev.Sound

namespace Dev.Sound
section
variable {W : Watch} {d : Dev} (h : d.Sound W)
include h

theorem flushOrder {p : Nat} : (d.flushOrder p).Sound W := h.foldl fun _ _ hx => hx.orderTimeout

end
end Dev.Sound

namespace Dev.Sound
section
variable {W : Watch} {d : Dev} (h : d.Sound W.loud)
include h

theorem dropReplay {p : Nat} : (d.dropReplay p).Sound W.loud := by
  unfold Dev.dropReplay
  extract_lets x cells live d1 bare
  have h1 : d1.Sound W.loud := by
    dsimp only [d1]
    refine h.foldl fun x _ hx => ?_
    split
    · exact hx
    · exact hx.loseCells
  exact (h1.foldl fun x _ hx => hx.loseTrain).add64.onPort

end
end Dev.Sound

/-! ### Captures -/

namespace Dev.Sound
section
variable {W : Watch} {d : Dev} (h : d.Sound W)
include h

theorem setCap {c : Nat} {v : Cap} : (d.setCap c v).Sound W := h.keep (by rfl)

theorem stageRec {c kind p dir : Nat} {hv : Option Header} {fno : Nat} {cond : Word}
    {data : List Byte} : (d.stageRec c kind p dir hv fno cond data).Sound W := by
  unfold Dev.stageRec
  extract_lets cp r
  exact h.setCap.addSat.raiseOnce.ite h.setCap

theorem capPacket {p dir : Nat} {pk : Packet} {fno : Nat} : (d.capPacket p dir pk fno).Sound W := by
  unfold Dev.capPacket
  refine h.foldl fun x _ hx => ?_
  extract_lets m all
  split
  · exact hx.stageRec
  · exact hx

theorem capStomp {p : Nat} {hv : Header} : (d.capStomp p hv).Sound W :=
  h.foldl fun _ _ hx => hx.stageRec

theorem check {p : Nat} {w : Word} {pk : Option Packet} : (d.check p w pk).Sound W :=
  h.ite (h.addSat.foldl fun _ _ hx => hx.stageRec)

end
end Dev.Sound

/-! ### Catchment -/

namespace Dev.Sound
section
variable {W : Watch} {d : Dev} (h : d.Sound W)
include h

theorem setLaunch {g : Nat} {l : Launch} : (d.setLaunch g l).Sound W := h.keep (by rfl)

theorem adopt {g af : Nat} {w : Word} {src : Option Nat} {foreign : Bool} :
    (d.adopt g af w src foreign).Sound W := by
  unfold Dev.adopt
  extract_lets l lower e d1 d2 dirs
  split
  · exact h
  · have h1 : d1.Sound W := h.setLaunch
    have h2 : d2.Sound W := h1.raise.ite h1
    exact h2.foldl fun x _ hx => hx.originate

theorem cause {g : Nat} {w : Word} {loss : Bool} : (d.cause g w loss).Sound W := by
  unfold Dev.cause
  extract_lets l
  exact h.adopt.ite h

theorem catFail {g launch c det : Nat} : (d.catFail g launch c det).Sound W := by
  unfold Dev.catFail
  extract_lets d1
  have h1 : d1.Sound W := h.raise
  exact h1.cause.ite h1

theorem postCat {g word st : Nat} : (d.postCat g word st).Sound W := by
  unfold Dev.postCat
  extract_lets l
  exact h.event

theorem onChunk {g c : Nat} {f : Chunk → Chunk} : (d.onChunk g c f).Sound W := h.keep (by rfl)

theorem dropChunks {f : Chunk → Bool} : (d.dropChunks f).Sound W := h.fewerPkts.keep (by rfl)

theorem freeChunk {g c : Nat} : (d.freeChunk g c).Sound W := h.keep (by rfl)

theorem spillDraw {g c : Nat} {pk : Packet} : (d.spillDraw g c pk).Sound W := by
  unfold Dev.spillDraw
  extract_lets e base
  split
  · exact h.drawUnits
  · split
    · exact h.drawUnits

theorem setDrawn {k kind : Nat} {v : Nat × Nat} : (d.setDrawn k kind v).Sound W := h.keep (by rfl)

theorem drawFrom {k n : Nat} {corr cur : Bool} : ∀ x ∈ d.drawFrom k n corr cur, x.Sound W := by
  unfold Dev.drawFrom
  intro x hx
  dsimp only at hx
  split at hx
  · obtain ⟨-, hx⟩ := Option.ite_none_right_eq_some.mp hx
    exact Option.some.inj hx ▸ h.setDrawn.setDrawn
  · obtain ⟨-, hx⟩ := Option.ite_none_right_eq_some.mp hx
    exact Option.some.inj hx ▸ h.setDrawn

theorem openChunk {g c : Nat} {l : BitVec 16} {x : Dev} {b : Bool}
    (hx : d.openChunk g c l = (some x, b)) : x.Sound W := by
  have hk : ∀ l b', (some ({ d with chunks := l } : Dev), b') = (some x, b) → x.Sound W :=
    fun l b' he => Option.some.inj (Prod.mk.inj he).1 ▸ (h.keep (by rfl))
  unfold Dev.openChunk at hx
  dsimp only at hx
  split at hx
  · exact hk _ _ hx
  · split at hx
    · nomatch (Prod.mk.inj hx).1
    · split at hx
      · nomatch (Prod.mk.inj hx).1
      · exact hk _ _ hx

theorem drawSpill {k n : Nat} : ∀ x ∈ d.drawSpill k n, x.Sound W := by
  unfold Dev.drawSpill
  intro x hx
  dsimp only at hx
  split at hx
  · exact Option.some.inj hx ▸ h.setDrawn
  · obtain ⟨-, hx⟩ := Option.ite_none_right_eq_some.mp hx
    exact Option.some.inj hx ▸ h.setDrawn

theorem laterId {n : Nat} : ({ d with nextId := d.nextId + n } : Dev).Sound W where
  ids hc k hk := Nat.lt_add_right n (h.ids hc k hk)
  keys hc q hq := Nat.lt_add_right n (h.keys hc q hq)
  lost := h.lost
  calm := h.calm

theorem catUndo {k : Pkt} : (d.catUndo k).Sound W := by
  unfold Dev.catUndo
  extract_lets g c
  split
  · exact h
  · split
    · exact h
    · split
      exact Dev.Sound.ite (Dev.Sound.add64 h.laterId.onChunk) h.laterId.onChunk

theorem catMark {k : Pkt} : (d.catMark k).Sound W := by
  unfold Dev.catMark
  split
  exact h.onChunk.rmPkt

theorem catDisc {g c : Nat} : (d.catDisc g c).Sound W := h.addSat

theorem catConfirmed {k : Pkt} : (d.catConfirmed k).Sound W := by
  unfold Dev.catConfirmed
  extract_lets g c ln added
  split
  · exact h.catUndo.catDisc.catFail.rmPkt
  · exact h.catUndo.catDisc.catFail.rmPkt
  · exact h.catUndo.add64.raise.rmPkt
  · exact h.catUndo.catFail.rmPkt
  · exact h.catUndo.catFail.rmPkt
  · exact h
  · exact h.catMark.ite h

theorem catWait {k : Pkt} : (d.catWait k).Sound W := by
  unfold Dev.catWait
  extract_lets g kd p
  split
  · exact (h.catFail.ite h).dropPkt (by exact fun _ => rfl)
  · exact h.setDrawn.addSat.ite h

/-- What a cluster draws for a packet: a spill cycle, or engine cycles of this frame or the next. -/
theorem catDraw {kd n : Nat} {corr spill : Bool} :
    ∀ x ∈ (if spill then d.drawSpill kd n else match d.drawFrom kd n corr true with
      | some x => some x
      | none => d.drawFrom kd n corr false), x.Sound W := by
  split
  · exact h.drawSpill
  · split
    next y hy =>
      intro x hx
      exact Option.some.inj hx ▸ h.drawFrom y hy
    next => exact h.drawFrom

theorem catAdmit {k : Pkt} : (d.catAdmit k).Sound W := by
  unfold Dev.catAdmit
  dsimp only
  split
  · exact h.catWait
  · split
    next b _ => exact Dev.Sound.catWait (h.raiseOnce.ite h)
    next d1 b h1 =>
      have h1 : d1.Sound W := by
        split at h1
        · exact Option.some.inj (Prod.mk.inj h1).1 ▸ h
        · exact h.openChunk h1
      split
      next => exact h1.catWait
      next d2 h2 =>
        have h2 : d2.Sound W := h1.catDraw d2 h2
        refine Dev.Sound.onChunk (Dev.Sound.onPkt ?_ (by simp))
        exact .ite (Dev.Sound.ite h2.spillDraw h2).add64.sample (Dev.Sound.ite h2.spillDraw h2).add64
  · exact h

theorem catRound {k : Pkt} : (d.catRound k).Sound W := by
  unfold Dev.catRound
  extract_lets l
  refine h.foldl fun x _ hx => ?_
  split
  · exact hx.catAdmit
  · exact hx

theorem catEscape {ch ch1 : Chunk} {f : Dev → Dev} (hf : ∀ x, x.Sound W → (f x).Sound W) :
    (d.catEscape ch ch1 f).Sound W :=
  h.catFail.dropChunks.ite (hf _ (h.ite h.add64))

theorem catAccum {k : Pkt} {uncorr : Bool} : (d.catAccum k uncorr).Sound W := by
  unfold Dev.catAccum
  extract_lets g c kd
  split
  · exact h
  · refine .ite h (.ite (h.catFail.ite h.catFail) ?_)
    split
    exact h.catEscape fun x hx => hx.onChunk.catConfirmed.ite hx.onChunk

theorem catRetract {kd : Nat} : (d.catRetract kd).Sound W := by
  unfold Dev.catRetract
  split
  · exact h
  · exact Dev.Sound.ite h (h.catEscape fun x hx => hx.setDrawn.onChunk)

theorem catTick : d.catTick.Sound W := by
  unfold Dev.catTick
  extract_lets due d1
  have h1 : d1.Sound W := by
    dsimp only [d1]
    refine h.foldl fun x _ hx => ?_
    split
    · exact hx.catAccum
    · exact hx
  exact h1.foldl fun x _ hx => hx.foldl fun x _ hx => hx.catRetract

theorem emitted {g c : Nat} : (d.emitted g c).Sound W := by
  unfold Dev.emitted
  extract_lets l ab low
  exact h.setLaunch.freeChunk

theorem sendPartial {ch : Chunk} : (d.sendPartial ch).Sound W :=
  (h.foldl fun x _ hx => hx.originate.onPkt (by simp)).onChunk

theorem partSent {g c : Nat} : (d.partSent g c).Sound W := by
  unfold Dev.partSent
  split
  · exact h
  · exact h.emitted.ite h.onChunk

theorem handover {ch : Chunk} : (d.handover ch).Sound W := by
  unfold Dev.handover
  dsimp only
  exact h.originate.emitted.setLaunch

theorem resultSeen {k : Pkt} : (d.resultSeen k).Sound W := by
  unfold Dev.resultSeen
  extract_lets g l hd e here d1 l1 c h2 pk n d2
  split
  · exact h
  · have h1 : d1.Sound W := h.setLaunch.ite h
    split
    · have h2 : d2.Sound W := h1.setLaunch.originate
      exact h2.onPkt (by simp)
    · exact h1

theorem holdSeen {k : Pkt} : (d.holdSeen k).Sound W := by
  unfold Dev.holdSeen
  extract_lets g e l pl ext rel p bad d0
  have h0 : d0.Sound W := h.rmPkt
  exact h0.add64.raise.ite (h0.originate.ite (h0.setLaunch.ite h0.raise.cause))

theorem abortSeen {k : Pkt} : (d.abortSeen k).Sound W := by
  unfold Dev.abortSeen
  extract_lets g l pl w d0 held
  have h0 : d0.Sound W := h.rmPkt
  exact h0.add64.ite h0.adopt

theorem owes {l : List (Nat × (Nat × Nat))} : ({ d with pend := l } : Dev).Sound W := h.keep (by rfl)

theorem abortEnd {g : Nat} : (d.abortEnd g).Sound W := by
  unfold Dev.abortEnd
  extract_lets l
  split
  · exact h
  · refine (h.dropChunks.setLaunch.foldl fun x p hx => .ite hx.originate ?_).postCat
    exact hx.wr64.owes.setBit

theorem launchDone {g : Nat} : (d.launchDone g).Sound W := by
  unfold Dev.launchDone
  extract_lets l
  exact h.setLaunch.postCat

theorem launchPort {p : Nat} {gs : List Nat} : (d.launchPort p gs).Sound W := by
  unfold Dev.launchPort
  refine h.foldl fun x _ hx => ?_
  extract_lets e t y
  have hy : y.Sound W := hx.raise.cause.ite hx
  exact hy.raise.cause.ite hy

theorem launchCheck {g : Nat} : (d.launchCheck g).Sound W := by
  unfold Dev.launchCheck
  extract_lets l e say dead dirs fen d1 d2
  split
  · exact h
  · have h1 : d1.Sound W := h.foldl fun x _ hx => hx.ite hx.raise.cause
    have h2 : d2.Sound W := h1.foldl fun x _ hx => hx.ite hx.raise.cause
    exact h2.foldl fun x _ hx => hx.ite hx.raise.cause

end
end Dev.Sound

/-! ### Collectives -/

namespace Dev.Sound
section
variable {W : Watch} {d : Dev} (h : d.Sound W)
include h

theorem onPacket {id : Nat} {ok : Pkt → Bool} {f : Dev → Pkt → Dev} (hf : ∀ k, (f d k).Sound W) :
    (d.onPacket id ok f).Sound W := by
  unfold Dev.onPacket
  split
  · exact .ite (hf _) h
  · exact h

end
end Dev.Sound

namespace State.Sound
section
variable {W : Watch} {s : State} (h : s.Sound W)
include h

theorem execCatContrib {id : Nat} : Leaves W (execCatContrib id s) :=
  h.devStep fun _ hx => hx.onPacket fun _ => hx.catConfirmed

theorem execCatPartial {id : Nat} : Leaves W (execCatPartial id s) :=
  h.devStep fun _ hx => hx.onPacket fun _ => hx.catConfirmed

theorem execClusterAdmit {id : Nat} : Leaves W (execClusterAdmit id s) :=
  h.devStep fun _ hx => hx.onPacket fun _ => hx.catRound

theorem execAccumulate {id : Nat} {uncorr : Bool} : Leaves W (execAccumulate id uncorr s) :=
  h.devStep fun _ hx => hx.onPacket fun _ => hx.catAccum

theorem execRetract {id : Nat} : Leaves W (execRetract id s) :=
  h.devStep fun _ hx => hx.foldl fun _ _ hy => hy.catRetract.ite hy

theorem execChunkComplete {g : BitVec 12} {c : BitVec 32} : Leaves W (execChunkComplete g c s) := by
  refine h.devStep fun d h => ?_
  split
  · exact h.onChunk.ite h
  · exact h

theorem execPartialEmit {g : BitVec 12} {c : BitVec 32} : Leaves W (execPartialEmit g c s) := by
  refine h.devStep fun d h => ?_
  split
  · exact h.sendPartial.ite h
  · exact h

theorem execResultHandover {g : BitVec 12} {c : BitVec 32} :
    Leaves W (execResultHandover g c s) := by
  refine h.devStep fun d h => ?_
  split
  · exact h.handover.ite h
  · exact h

end
end State.Sound

namespace Dev.Sound
section
variable {W : Watch} {d : Dev} (h : d.Sound W)
include h

theorem launchGo {src : Src} : (d.launchGo src).Sound W := by
  unfold Dev.launchGo
  extract_lets l
  split
  · exact h.raise
  · exact h.setLaunch

theorem launchAbort {src : Src} {g : Nat} : (d.launchAbort src g).Sound W := by
  unfold Dev.launchAbort
  extract_lets st
  exact h.raise.ite (h.raise.ite h.raise.cause)

theorem writeLaunchCtl {src : Src} {v : Word} : (d.writeLaunchCtl src v).Sound W := by
  unfold Dev.writeLaunchCtl
  extract_lets d0 d1
  have h0 : d0.Sound W := h.wr
  have h1 : d1.Sound W := h0.launchGo.ite h0
  exact h1.launchAbort.ite h1

end
end Dev.Sound

namespace State.Sound
section
variable {W : Watch} {s : State} (h : s.Sound W)
include h

theorem execLaunchStart {g : BitVec 12} : Leaves W (execLaunchStart g s) := by
  refine h.devStep fun d h => ?_
  extract_lets l
  exact h.setLaunch.ite h

theorem execLaunchDone {g : BitVec 12} : Leaves W (execLaunchDone g s) := by
  refine h.devStep fun d h => ?_
  extract_lets l
  exact h.launchDone.ite h

theorem execStepTimeout {g : BitVec 12} : Leaves W (execStepTimeout g s) := by
  refine h.devStep fun d h => ?_
  extract_lets l
  exact h.raise.cause.ite h

end
end State.Sound

namespace Dev.Sound
section
variable {W : Watch} {d : Dev} (h : d.Sound W)
include h

theorem catHoldAct {id : Nat} : (d.catHoldAct id).Sound W := h.onPacket fun _ => h.holdSeen

end
end Dev.Sound

namespace State.Sound
section
variable {W : Watch} {s : State} (h : s.Sound W.free)
include h

theorem execCatHold {id : Nat} : Leaves W.free (execCatHold id s) := h.wait

end
end State.Sound

namespace State.Sound
section
variable {W : Watch} {s : State} (h : s.Sound W)
include h

theorem execCatResult {id : Nat} : Leaves W (execCatResult id s) :=
  h.devStep fun _ hx => hx.onPacket fun _ => hx.resultSeen.rmPkt.ite (hx.resultSeen.onPkt (by simp))

end
end State.Sound

namespace Dev.Sound
section
variable {W : Watch} {d : Dev} (h : d.Sound W)
include h

theorem catAbortAct {id : Nat} : (d.catAbortAct id).Sound W := h.onPacket fun _ => h.abortSeen

end
end Dev.Sound

namespace State.Sound
section
variable {W : Watch} {s : State} (h : s.Sound W.free)
include h

theorem execCatAbort {id : Nat} : Leaves W.free (execCatAbort id s) := h.wait

end
end State.Sound

namespace State.Sound
section
variable {W : Watch} {s : State} (h : s.Sound W)
include h

theorem execAbortFrame {g : BitVec 12} : Leaves W (execAbortFrame g s) := by
  refine h.devStep fun d h => ?_
  extract_lets l
  split
  · exact h.abortEnd.ite h
  · exact h

end
end State.Sound

/-! ### Fan -/

namespace Dev.Sound
section
variable {W : Watch} {d : Dev} (h : d.Sound W)
include h

theorem setRnd {r : Nat} {v : Round} : (d.setRnd r v).Sound W := h.keep (by rfl)

theorem onRnd {r : Nat} {f : Round → Round} : (d.onRnd r f).Sound W := h.setRnd

theorem roundGo {src : Src} : (d.roundGo src).Sound W := by
  unfold Dev.roundGo
  extract_lets x
  split
  · exact h.raise
  · split
    · exact h.setRnd
    · exact h

theorem fanAdopt {r af : Nat} {w : Word} {foreign : Bool} :
    (d.fanAdopt r af w foreign).Sound W := by
  unfold Dev.fanAdopt
  extract_lets x lower d1
  split
  · exact h
  · have h1 : d1.Sound W := h.setRnd
    exact h1.raise.ite (h1.foldl fun x _ hx => hx.send)

theorem fanCause {r : Nat} {w : Word} : (d.fanCause r w).Sound W := by
  unfold Dev.fanCause
  extract_lets x
  exact h.fanAdopt.ite h

theorem fanFail {r c det : Nat} : (d.fanFail r c det).Sound W := h.raise.fanCause

theorem roundAbort {src : Src} {id : Nat} : (d.roundAbort src id).Sound W := by
  unfold Dev.roundAbort
  split
  · exact h.raise
  · split
    · exact h.raise
    · exact h.fanFail

theorem writeRoundCtl {src : Src} {v : Word} : (d.writeRoundCtl src v).Sound W := by
  unfold Dev.writeRoundCtl
  extract_lets d0 d1
  have h0 : d0.Sound W := h.wr
  have h1 : d1.Sound W := h0.roundGo.ite h0
  exact h1.roundAbort.ite h1

theorem fanStale {id : Nat} : (d.fanStale id).Sound W := h.add64.raise

theorem postFan {r word st : Nat} : (d.postFan r word st).Sound W := by
  unfold Dev.postFan
  extract_lets x
  exact h.event

theorem fanNotice {slice dst round token kind pos expert reason : Nat} :
    (d.fanNotice slice dst round token kind pos expert reason).Sound W :=
  h.send

theorem fanAbortEnd {r : Nat} : (d.fanAbortEnd r).Sound W := by
  unfold Dev.fanAbortEnd
  extract_lets x
  split
  · exact h
  · refine (h.fewerPkts.setRnd.foldl fun y p hy => .ite hy.send ?_).postFan
    exact hy.wr64.owes.setBit

theorem dispFail {k : Pkt} {c : DispChk} : (d.dispFail k c).Sound W := by
  unfold Dev.dispFail
  extract_lets id
  split
  · exact h
  · exact h.fanStale.fanNotice.rmPkt
  · exact h.fanFail.rmPkt
  · exact h.fanFail.rmPkt

theorem setXcnt {ev n : Nat} : (d.setXcnt ev n).Sound W := h.keep (by rfl)

theorem copyOut {r : Nat} {k : Copy} : (d.copyOut r k).Sound W := by
  unfold Dev.copyOut
  extract_lets pk tgts d1
  have h1 : d1.Sound W := by
    dsimp only [d1]
    split
    · exact h.onPkt (by simp)
    · exact h.addPkt
  exact h1.onRnd

theorem copyGone {k : Copy} : (d.copyGone k).Sound W := by
  unfold Dev.copyGone
  split
  · exact h.rmPkt
  · exact h

theorem copyTaken {k : Copy} : (d.copyTaken k).Sound W := by
  unfold Dev.copyTaken
  split
  · exact h.sample.rmPkt
  · exact h

theorem qDraw {r : Nat} {k : Copy} : (d.qDraw r k).Sound W := by
  unfold Dev.qDraw
  extract_lets q
  exact h.drawUnits

theorem copyDrop {r : Nat} {k : Copy} {reason : Nat} : (d.copyDrop r k reason).Sound W := by
  unfold Dev.copyDrop
  extract_lets x
  exact h.copyGone.setRnd.fanNotice

theorem copyAdmit {r : Nat} {k : Copy} : (d.copyAdmit r k).Sound W := h.setXcnt.copyOut

theorem copyTurn {n : Nat} {busy : List Nat} {r : Nat} {k : Copy} :
    (d.copyTurn n busy r k).Sound W := by
  induction n generalizing d busy r k with
  | zero => exact h
  | succ n ih =>
    unfold Dev.copyTurn
    refine .ite h.copyAdmit ?_
    split
    · have h1 : ∀ l : List Pkt, (l.foldl (fun (x : Dev) j =>
          match x.slotOfRound (fanRound j.pk) rsRun with
          | some q => if (x.pkt j.id).any (fun y => y.st == .engine) then
              x.copyTurn n (k.hold.toList ++ busy) q (copyOf j.pk (j.ing.getD 128)
              (some j.id)) else x
          | none => x) d).Sound W := by
        refine fun l => h.foldl fun x j hx => ?_
        split
        · exact (ih hx).ite hx
        · exact hx
      exact .ite (h1 _).onRnd.copyAdmit (h1 _).onRnd.copyDrop
    · exact h.copyDrop.ite h.qDraw.copyTaken.onRnd
    · exact h.copyDrop

theorem copyHold {r : Nat} {k : Copy} : (d.copyHold r k).Sound W := by
  unfold Dev.copyHold
  extract_lets x id
  exact h.copyGone.fanFail.ite (h.copyGone.fanFail.ite h.qDraw.copyTaken.onRnd)

theorem copyHandle {r : Nat} {k : Copy} : (d.copyHandle r k).Sound W := h.copyHold.ite h.copyTurn

theorem fanCopy {k : Pkt} : (d.fanCopy k).Sound W := by
  unfold Dev.fanCopy
  extract_lets id e me l
  split
  · exact h.fanStale.rmPkt
  · refine .ite h.fanFail.rmPkt (.ite h.copyHold (.ite h (h.foldl fun x _ hx => ?_)))
    split
    · exact hx.copyTurn.ite hx
    · exact hx

theorem copyStep {r : Nat} {pk : Packet} {ev : Nat} : ∀ x ∈ d.copyStep r pk ev, x.Sound W := by
  unfold Dev.copyStep
  intro x hx
  split at hx
  · exact Option.some.inj hx ▸ h.copyHandle
  · dsimp only at hx
    split at hx
    · nomatch hx
    · obtain ⟨-, hx⟩ := Option.ite_none_right_eq_some.mp hx
      exact Option.some.inj hx ▸ h.originate.offer

theorem dispAdmit {k : Pkt} : (d.dispAdmit k).Sound W := by
  unfold Dev.dispAdmit
  split
  next r _ =>
    extract_lets x n p ex c d1 res
    have h1 : d1.Sound W := h.rmPkt.onRnd
    have h2 : ∀ x ∈ res, x.Sound W := by
      refine List.foldlRecOn (dispExperts k.pk).zipIdx _ (motive := fun m : Option Dev => ∀ x ∈ m, x.Sound W)
          ?_ fun m hm u _ => ?_
      · exact fun x hx => Option.some.inj hx ▸ h1
      · intro x hx
        cases m with
        | none => nomatch hx
        | some y => exact (hm y rfl).copyStep x hx
    refine .ite h ?_
    cases hr : res with
    | none => exact h
    | some y => exact (h2 y hr).sample
  · exact h.dispFail

theorem rankOne {r ev : Nat} : (d.rankOne r ev).Sound W := by
  unfold Dev.rankOne
  extract_lets x mine t av n adm ovf rest d1
  have h1 : d1.Sound W := h.setRnd.setXcnt
  split
  · exact h1.onRnd
  · exact h1.onRnd
  · exact h1.foldl fun x _ hx => hx.copyDrop

theorem rankAll {r : Nat} : (d.rankAll r).Sound W := by
  unfold Dev.rankAll
  extract_lets es
  exact (h.foldl fun x _ hx => hx.rankOne).onRnd

theorem rankBack {r ev : Nat} : (d.rankBack r ev).Sound W := by
  unfold Dev.rankBack
  extract_lets x mine left n adm rest
  exact h.setRnd.setXcnt.foldl fun x _ hx => hx.copyDrop

theorem rankBackAll {r : Nat} : (d.rankBackAll r).Sound W := by
  unfold Dev.rankBackAll
  extract_lets es
  exact (h.foldl fun x _ hx => hx.rankBack).onRnd

theorem rankRelease {r : Nat} : (d.rankRelease r).Sound W := by
  unfold Dev.rankRelease
  extract_lets go res
  refine .ite h ?_
  refine List.foldlRecOn go _ (motive := fun m : Dev × List (Nat × Nat) => m.1.Sound W) h
      fun m hm c _ => ?_
  dsimp only
  split
  · exact hm
  · exact hm.onRnd.qDraw.copyOut

theorem windowStart {ev : Nat} : (d.windowStart ev).Sound W := by
  unfold Dev.windowStart
  extract_lets t d0
  have h0 : d0.Sound W := (h.keep (by rfl)).setXcnt
  split
  · exact h0
  · refine h0.foldl fun x _ hx => ?_
    split
    · exact hx
    · extract_lets q
      exact hx.foldl fun x _ hx => hx.onRnd.setXcnt.qDraw.copyOut

theorem onCombo {r key : Nat} {f : Combo → Combo} : (d.onCombo r key f).Sound W := h.onRnd

theorem fanEscape {r : Nat} {c : Combo} {l : List Acc} {f : Dev → List Acc → Dev}
    (hf : ∀ x a, x.Sound W → (f x a).Sound W) :
    (d.fanEscape r c l f).Sound W := h.fanFail.ite (hf _ _ (h.ite h.add64))

theorem fanAdd {r : Nat} {c : Combo} {k : Pkt} : (d.fanAdd r c k).Sound W :=
  h.fanEscape fun _ _ hx => Dev.Sound.onPkt (Dev.Sound.onCombo (hx.sample.ite hx)) (by simp)

theorem fanMark {r : Nat} {c : Combo} {k : Pkt} : (d.fanMark r c k).Sound W := by
  unfold Dev.fanMark
  extract_lets x i ts
  exact h.onCombo.rmPkt

theorem fanUndo {k : Pkt} : (d.fanUndo k).Sound W := by
  unfold Dev.fanUndo
  split
  · exact h
  · extract_lets ts
    exact h.onCombo

theorem fanOutIn {k : Pkt} : (d.fanOutIn k).Sound W := by
  unfold Dev.fanOutIn
  extract_lets id
  split
  · exact h.ite (h.fanUndo.fanStale.rmPkt.ite (h.fanUndo.fanFail.rmPkt.ite h.fanMark))
  · split
    · exact h.fanStale.rmPkt.ite h
    · split
      · exact h.fanFail.rmPkt.ite h
      · exact h.fanFail.rmPkt.ite h
      · extract_lets d1
        have h1 : d1.Sound W := h.fanAdd
        split
        · exact h1.fanMark
        · exact h1.rmPkt
        · exact h1

theorem fanOutFwd {k : Pkt} : (d.fanOutFwd k).Sound W := by
  unfold Dev.fanOutFwd
  extract_lets id e t t0 hd pk
  split
  · exact h.fanStale.rmPkt
  · split
    · exact h.fanFail.rmPkt
    · exact (h.onPkt (by simp)).ite h.sample.rmPkt.originate

theorem fanCombined {r : Nat} {c : Combo} : (d.fanCombined r c).Sound W := by
  unfold Dev.fanCombined
  extract_lets x all es fl dr u n d1
  have h1 : d1.Sound W := h.originate
  exact (h1.onPkt (by simp)).onCombo.onRnd

theorem combSent {r key : Nat} : (d.combSent r key).Sound W := h.onRnd

theorem noticeSeen {k : Pkt} : (d.noticeSeen k).Sound W := by
  unfold Dev.noticeSeen
  extract_lets e i
  split
  · exact h
  · split
    · exact h
    · split
      · exact h
      · exact h.onCombo.ite h

theorem memberDownFan {p : Nat} : (d.memberDownFan p).Sound W := by
  unfold Dev.memberDownFan
  refine h.foldl fun x _ hx => ?_
  extract_lets x
  exact hx.fanFail.ite hx

theorem fanMsg {k : Pkt} : (d.fanMsg k).Sound W := by
  unfold Dev.fanMsg
  extract_lets pl d0
  have h0 : d0.Sound W := h.rmPkt
  split
  · exact h0
  · exact h0.fanAdopt

end
end Dev.Sound

namespace State.Sound
section
variable {W : Watch} {s : State} (h : s.Sound W)
include h

theorem execRoundOpen {r : BitVec 4} : Leaves W (execRoundOpen r s) := by
  refine h.devStep fun d h => ?_
  extract_lets x
  exact h.setRnd.ite h

theorem execRoundClose {r : BitVec 4} : Leaves W (execRoundClose r s) := by
  refine h.devStep fun d h => ?_
  extract_lets x
  exact h.setRnd.ite h

theorem execRank {r : BitVec 4} : Leaves W (execRank r s) := by
  refine h.devStep fun d h => ?_
  extract_lets x
  exact h.rankAll.ite h

theorem execRankFallback {r : BitVec 4} : Leaves W (execRankFallback r s) := by
  refine h.devStep fun d h => ?_
  extract_lets x
  exact h.rankBackAll.ite h

theorem execRoundDone {r : BitVec 4} : Leaves W (execRoundDone r s) := h.onRnd.postFan.ite h

theorem execRoundTimeout {r : BitVec 4} : Leaves W (execRoundTimeout r s) := by
  refine h.devStep fun d h => ?_
  extract_lets x
  exact h.fanFail.ite h

theorem execFanDispatch {id : Nat} : Leaves W (execFanDispatch id s) :=
  h.devStep fun _ hx => hx.onPacket fun _ => hx.dispFail

theorem execDispatchAdmit {id : Nat} : Leaves W (execDispatchAdmit id s) :=
  h.devStep fun _ hx => hx.onPacket fun _ => hx.dispAdmit

theorem execFanCopy {id : Nat} : Leaves W (execFanCopy id s) :=
  h.devStep fun _ hx => hx.onPacket fun _ => hx.fanCopy

theorem execWindowBoundary {ev : BitVec 14} : Leaves W (execWindowBoundary ev s) := by
  refine h.devStep fun d h => ?_
  extract_lets t
  exact h.windowStart.ite h

theorem execFanOutForward {id : Nat} : Leaves W (execFanOutForward id s) :=
  h.devStep fun _ hx => hx.onPacket fun _ => hx.fanOutFwd

theorem execFanOutCombine {id : Nat} : Leaves W (execFanOutCombine id s) :=
  h.devStep fun _ hx => hx.onPacket fun _ => hx.fanOutIn

end
end State.Sound

namespace Dev.Sound
section
variable {W : Watch} {d : Dev} (h : d.Sound W)
include h

theorem fanSub {id : Nat} : (d.fanSub id).Sound W := by
  unfold Dev.fanSub
  extract_lets due
  split
  · exact h
  · exact Dev.Sound.add64 (h.fanEscape fun _ _ hx => hx.onCombo)

end
end Dev.Sound

namespace State.Sound
section
variable {W : Watch} {s : State} (h : s.Sound W)
include h

theorem execFanRetract {id : Nat} : Leaves W (execFanRetract id s) := h.fanSub

end
end State.Sound

namespace Dev.Sound
section
variable {W : Watch} {d : Dev} (h : d.Sound W)
include h

theorem fanTick : d.fanTick.Sound W := h.foldl fun _ _ hx => hx.fanSub

end
end Dev.Sound

namespace State.Sound
section
variable {W : Watch} {s : State} (h : s.Sound W)
include h

theorem execFanNotice {id : Nat} : Leaves W (execFanNotice id s) :=
  h.devStep fun _ hx => hx.onPacket fun _ => hx.noticeSeen.rmPkt.ite (hx.noticeSeen.onPkt (by simp))

theorem execCombineSend {p : BitVec 7} {round : BitVec 16} {token : BitVec 32} :
    Leaves W (execCombineSend p round token s) := by
  refine h.devStep fun d h => ?_
  split
  · exact h
  · split
    · exact h.fanCombined.ite h
    · exact h

end
end State.Sound

namespace Dev.Sound
section
variable {W : Watch} {d : Dev} (h : d.Sound W)
include h

theorem fanAbortAct {id : Nat} : (d.fanAbortAct id).Sound W := h.onPacket fun _ => h.fanMsg

end
end Dev.Sound

namespace State.Sound
section
variable {W : Watch} {s : State} (h : s.Sound W.free)
include h

theorem execFanAbortMessage {id : Nat} : Leaves W.free (execFanAbortMessage id s) := h.wait

end
end State.Sound

namespace State.Sound
section
variable {W : Watch} {s : State} (h : s.Sound W)
include h

theorem execFanAbortFrame {r : BitVec 4} : Leaves W (execFanAbortFrame r s) := by
  refine h.devStep fun d h => ?_
  extract_lets x
  split
  · exact h.fanAbortEnd.ite h
  · exact h

end
end State.Sound

end Sys2Proof.Machine
end

section
/-! PROOFS. What a step of the machine keeps in order, continued: Basin, ports, lanes,
links and packets. -/

namespace Sys2Proof.Machine

/-! ### Basin -/

namespace Dev.Sound
section
variable {W : Watch} {d : Dev} (h : d.Sound W)
include h

theorem uncorr {ws : List Nat} : (d.uncorr ws).Sound W := by
  unfold Dev.uncorr
  refine h.foldl fun x _ hx => ?_
  extract_lets t0 y r
  have hy : y.Sound W := hx.addSat.raise
  exact hy.ite (hy.keep (by rfl))

theorem wrote {a n : Nat} : (d.wrote a n).Sound W := h.keep (by rfl)

theorem basRequest {k : Pkt} : (d.basRequest k).Sound W := by
  unfold Dev.basRequest
  split
  · extract_lets d1
    have h1 : d1.Sound W := h.add64.raise.rmPkt
    exact h1.answer
  · exact h.onPkt (by simp)

theorem basWait {k : Pkt} : (d.basWait k).Sound W := by
  unfold Dev.basWait
  extract_lets p
  exact (h.dropPkt (by exact fun _ => rfl)).ite (h.ite h.addSat.raise)

theorem basTake {k : Pkt} : (d.basTake k).1.Sound W := by
  unfold Dev.basTake
  extract_lets die free isW da res
  have hr : ∀ x ∈ res, x.Sound W := by
    dsimp only [res]
    split
    · exact h.reserve
    · exact fun x hx => Option.some.inj hx ▸ h
  cases free with
  | false => exact h.basWait
  | true =>
    cases hd : res with
    | none => exact h.basWait
    | some d1 =>
      have h2 :=
        (hr d1 hd).rmPkt (id := k.id) |>.sample (p := k.ing.getD 0) (dir := 0) (pk := k.arrived)
      have h3 := Dev.Sound.ite (c := isW = true)
        (h2.wrote (a := da) (n := (reqOf k (d.freeSlot die)).len)) h2
      dsimp only
      split
      · exact h3
      · exact h3.keep (by rfl)

end
end Dev.Sound

namespace State.Sound
section
variable {W : Watch} {s : State} (h : s.Sound W)
include h

theorem basRound : (basRound s).Sound W := by
  refine List.foldlRecOn s.dev.basTurns _ (motive := fun m : Dev × List Pkt => m.1.Sound W) h
      fun m hm k _ => ?_
  exact hm.basTake

end
end State.Sound

namespace Dev.Sound
section
variable {W : Watch} {d : Dev} (h : d.Sound W)
include h

theorem endReq {slot port : Nat} : (d.endReq slot port).Sound W := (h.keep (by rfl)).addSat.raise.ite h

theorem stackUnits {l : List (Nat × (Nat × Nat))} : ({ d with stackU := l } : Dev).Sound W := h.keep (by rfl)

theorem present {q : Req} {pk : Packet} : (d.present q pk).Sound W := by
  unfold Dev.present
  extract_lets n d1
  have h1 : d1.Sound W := h.originate.onPkt (by simp)
  split
  · exact h1
  next k _ =>
    have h2 : (d1.offer 0 k).1.Sound W := h1.offer
    dsimp only
    split
    · exact h2
    · split
      · exact h2
      · exact h.keep (by rfl)

theorem granted {e : Dev} {q q' : Req} {pk : Packet} {next : Option Req} :
    (Dev.granted (d.present q' pk) e q next).Sound W := by
  have hp : (d.present q' pk).Sound W := h.present
  cases hg : d.present q' pk with
  | done x =>
    rw [hg] at hp
    cases next with
    | some n => exact Dev.Sound.keep hp (by rfl)
    | none => exact Dev.Sound.keep hp (by rfl)
  | lost x p =>
    rw [hg] at hp
    exact (Dev.Sound.endReq hp).stackUnits
  | wait x =>
    rw [hg] at hp
    exact Dev.Sound.stackUnits hp

end
end Dev.Sound

namespace State.Sound
section
variable {W : Watch} {s : State} (h : s.Sound W)
include h

theorem segGrant {q : Req} : (segGrant s q).Sound W := by
  have hd : s.dev.Sound W := h
  unfold Machine.segGrant
  dsimp only
  split
  · split
    · exact hd.granted
    · split
      · exact h
      next d1 h1 =>
        have h1 : d1.Sound W := hd.reserve d1 h1
        split
        · split
          · exact h1.granted.uncorr
          · exact h1.granted
        · split
          · exact h1.granted.uncorr
          · exact h1.granted
  · split
    · exact hd.granted
    · split
      · exact h
      next d1 h1 =>
        have h1 : d1.Sound W := hd.reserve d1 h1
        split
        · exact .ite (h1.granted) (h1.granted.uncorr)
        · exact h1.granted

theorem execBasRead {id : Nat} : Leaves W (execBasRead id s) :=
  h.devStep fun _ hx => hx.onPacket fun _ => hx.basRequest

theorem execBasWrite {id : Nat} : Leaves W (execBasWrite id s) :=
  h.devStep fun _ hx => hx.onPacket fun _ => hx.basRequest

theorem execBasMread {id : Nat} : Leaves W (execBasMread id s) :=
  h.devStep fun _ hx => hx.onPacket fun _ => hx.basRequest

theorem execBasAdd {id : Nat} : Leaves W (execBasAdd id s) :=
  h.devStep fun _ hx => hx.onPacket fun _ => hx.basRequest

theorem execBasCas {id : Nat} : Leaves W (execBasCas id s) :=
  h.devStep fun _ hx => hx.onPacket fun _ => hx.basRequest

theorem execBasinAdmit {id : Nat} : Leaves W (execBasinAdmit id s) := by
  unfold Machine.execBasinAdmit
  split
  · exact h.basRound.ite h
  · exact h

theorem execSegmentGrant {slot : Nat} : Leaves W (execSegmentGrant slot s) := by
  unfold Machine.execSegmentGrant
  split
  · exact h.segGrant
  · exact h

end
end State.Sound

/-! ### A port that goes down -/

namespace Dev.Sound
section
variable {W : Watch} {d : Dev} (h : d.Sound W)
include h

theorem giveBack {q : QEnt} : (d.giveBack q).Sound W := by
  unfold Dev.giveBack
  extract_lets add
  exact (h.keep (by rfl)).ite h.setBud

theorem voidEnt {q : QEnt} {u : Nat} : (d.voidEnt q u).Sound W :=
  (h.freeEnt.mapEnts fun x => by split <;> rfl).onPort

theorem nameBad {id : Nat} : (d.nameBad id).Sound W := by
  unfold Dev.nameBad
  extract_lets ps
  refine h.foldl fun x _ hx => ?_
  extract_lets y tags z
  have hz : z.Sound W := hx.setPort
  exact hz.foldl fun x _ hx => hx.emit

theorem release {id : Nat} : (d.release id).Sound W := by
  unfold Dev.release
  extract_lets d1
  have h1 : d1.Sound W := h.foldl fun x q hx => hx.giveBack.voidEnt.ite hx.giveBack.freeEnt
  exact h1.fewerEnts

theorem stomp {k : Pkt} : (d.stomp k).Sound W := by
  unfold Dev.stomp
  extract_lets d3 d4 d5
  have h3 : d3.Sound W := h.release.nameBad.catUndo.fanUndo
  have h4 : d4.Sound W := h3.countStomp
  have h5 : d5.Sound W := by
    dsimp only [d5]
    split
    · exact h4.capStomp
    · exact h4
  exact h5.rmPkt

theorem stompPort {p : Nat} : (d.stompPort p).Sound W := h.foldl fun _ _ hx => hx.stomp

theorem lossAbort {pk : Packet} {w : Word} : (d.lossAbort pk w).Sound W := by
  unfold Dev.lossAbort
  extract_lets op pl g ln
  split
  · split
    · exact h.fanCause
    · exact h
  · exact h.cause.ite h

end
section
variable {W : Watch} {d : Dev}

theorem settleLoss (h : d.Sound W.loud) : d.settleLoss.Sound W := by
  have h0 : ({ d with lost := [] } : Dev).Sound W := ⟨h.ids, h.keys, fun _ => rfl, h.calm⟩
  exact h0.foldl fun x _ hx => hx.lossAbort

end
section
variable {W : Watch} {d : Dev} (h : d.Sound W)
include h

theorem quitService {l : Nat} : (d.quitService l).Sound W := by
  unfold Dev.quitService
  extract_lets x late d1
  split
  · exact h
  · have h1 : d1.Sound W := h.onLane
    exact h1.raiseAt.ite h1

theorem toAdapt {l : Nat} : (d.toAdapt l).Sound W := h.quitService.onLane

theorem retrainPort {p : Nat} : (d.retrainPort p).Sound W := h.foldl fun _ _ hx => hx.toAdapt

theorem idleLanes {p : Nat} : (d.idleLanes p).Sound W := h.foldl fun _ _ hx => hx.toAdapt

end
end Dev.Sound

namespace Dev.Sound
section
variable {W : Watch} {d : Dev} (h : d.Sound W.loud)
include h

theorem flushParked {p : Nat} : (d.flushParked p).Sound W.loud :=
  h.foldl fun _ _ hx => hx.dropPkt Watch.loud_mute

end
end Dev.Sound

namespace Dev.Sound
section
variable {W : Watch} {d : Dev} (h : d.Sound W)
include h

theorem endCpls {p : Nat} : (d.endCpls p).Sound W := by
  unfold Dev.endCpls
  extract_lets slots
  exact h.foldl fun x _ hx => hx.endReq

theorem pausePats {p : Nat} : (d.pausePats p).Sound W := by
  unfold Dev.pausePats
  refine h.foldl fun x _ hx => ?_
  extract_lets t0
  exact (hx.keep (by rfl)).patWithdraw.ite hx

end
end Dev.Sound

namespace Dev.Sound
section
variable {W : Watch} {d : Dev} (h : d.Sound W.loud)
include h

theorem flushPort {p : Nat} {quar : Bool} : (d.flushPort p quar).Sound W.loud := by
  unfold Dev.flushPort
  extract_lets d1
  have h1 : d1.Sound W.loud := h.shutBud.endCpls
  exact h1.flushQueue.flushHolds.flushOrder.flushParked.raise

end
end Dev.Sound

namespace Dev.Sound
section
variable {W : Watch} {d : Dev} (h : d.Sound W)
include h

theorem unmap {p : Nat} : (d.unmap p).Sound W := by
  unfold Dev.unmap
  split
  · exact h.onPort.onPort
  · exact h

theorem dropToken {p : Nat} : (d.dropToken p).Sound W := h.keep (by rfl)

theorem portLeave {p : Nat} {st1 : PortSt} {cause : Nat} : (d.portLeave p st1 cause).Sound W := by
  unfold Dev.portLeave
  extract_lets x quar up d1 d2 d3 live d4 d5 d6
  have h1 : d1.Sound W := h.ite h.stompPort
  have h2 : d2.Sound W.loud := h1.loud.ite h1.loud.dropReplay
  have h3 : d3.Sound W.loud := h2.flushPort.ite (h2.flushHolds.ite h2)
  have h4 : d4.Sound W := Dev.Sound.launchPort (h3.pausePats.ite h3).settleLoss
  have h5 : d5.Sound W := h4.memberDownFan.ite h4
  have h6 : d6.Sound W := Dev.Sound.idleLanes (Dev.Sound.unmap (h5.dropToken.ite h5))
  exact .ite h5.onPort.refreshXoff h6.setPort

theorem later {p : Nat} {u : Due} : (d.later p u).Sound W := h.onPort

theorem portDown {p : Nat} : (d.portDown p).Sound W := h.idleLanes.ite h.later

theorem portFail {p : Nat} : (d.portFail p).Sound W := h.portDown.retrainPort

theorem laneDown {l : Nat} : (d.laneDown l).Sound W := by
  unfold Dev.laneDown
  split
  · exact h.portDown
  · exact h

theorem downNow {p : Nat} : (d.downNow p).Sound W := h.portLeave.ite h

theorem raisePort {c p : Nat} : (d.raisePort c p).Sound W := (h.keep (by rfl)).foldl fun x _ hx => hx.holdAt

theorem setPart {pt : Part} {v : PartSt} : (d.setPart pt v).Sound W := by
  unfold Dev.setPart
  split
  · exact h.keep (by rfl)
  · exact h.keep (by rfl)
  · exact h.keep (by rfl)

end
end Dev.Sound

/-! ### Access to registers -/

namespace Dev.Sound
section
variable {W : Watch} {d : Dev} (h : d.Sound W)
include h

theorem gate {src : Src} {a : Nat} {f : Dev → Dev} (hf : ∀ x, x.Sound W → (f x).Sound W) :
    (d.gate src a f).Sound W := by
  unfold Dev.gate
  split
  · exact (h.addSat.ite h).raise
  · exact hf _ h

end
end Dev.Sound

/-! ### Lanes -/

namespace Dev.Sound
section
variable {W : Watch} {d : Dev} (h : d.Sound W)
include h

theorem moveLane {l : Nat} {st : LaneSt} : (d.moveLane l st).Sound W := by
  unfold Dev.moveLane
  extract_lets was d1
  have h1 : d1.Sound W := h.toAdapt.ite h.quitService.onLane
  exact h1.laneDown.ite h1

theorem downLane {l : Nat} : (d.downLane l).Sound W := by
  unfold Dev.downLane
  split
  · exact h.downNow
  · exact h

theorem evalLane {l : Nat} : (d.evalLane l).Sound W := by
  unfold Dev.evalLane
  extract_lets st
  exact (h.ite h.moveLane).ite (h.ite ((h.ite h.moveLane).ite (h.moveLane.ite h)))

theorem laneCtlWrite {l : Nat} {v : Word} : (d.laneCtlWrite l v).Sound W := by
  unfold Dev.laneCtlWrite
  extract_lets d1 d2
  have h1 : d1.Sound W := h.wr
  have h2 : d2.Sound W := h1.onLane.moveLane.ite h1
  exact h2.evalLane.downLane

end
end Dev.Sound

namespace State.Sound
section
variable {W : Watch} {s : State} (h : s.Sound W.free)
include h

theorem execLaneEnable {src : Src} {l : BitVec 9} {v : Word} :
    Leaves W.free (execLaneEnable src l v s) :=
  h.waitFrom

theorem execLaneDisable {src : Src} {l : BitVec 9} {v : Word} :
    Leaves W.free (execLaneDisable src l v s) :=
  h.waitFrom

theorem execRetrain {src : Src} {l : BitVec 9} {v : Word} : Leaves W.free (execRetrain src l v s) :=
  h.waitFrom

theorem execLoopbackSelect {src : Src} {l : BitVec 9} {v : Word} :
    Leaves W.free (execLoopbackSelect src l v s) :=
  h.waitFrom

end
end State.Sound

namespace State.Sound
section
variable {W : Watch} {s : State} (h : s.Sound W)
include h

theorem execEqualiserSettled {l : BitVec 9} : Leaves W (execEqualiserSettled l s) := h.onLane.ite h

end
end State.Sound

namespace Dev.Sound
section
variable {W : Watch} {d : Dev} (h : d.Sound W)
include h

theorem gainLock {l : Nat} : (d.gainLock l).Sound W := by
  unfold Dev.gainLock
  extract_lets x
  exact h.onLane.ite (h.onLane.ite h)

end
end Dev.Sound

namespace State.Sound
section
variable {W : Watch} {s : State} (h : s.Sound W)
include h

theorem execLockAcquired {l : BitVec 9} : Leaves W (execLockAcquired l s) := h.gainLock

end
end State.Sound

namespace Dev.Sound
section
variable {W : Watch} {d : Dev} (h : d.Sound W)
include h

theorem loseLock {l : Nat} : (d.loseLock l).Sound W := by
  unfold Dev.loseLock
  extract_lets x d1
  have h1 : d1.Sound W := h.addSat.raiseAt
  exact h.ite (h1.moveLane.ite (h1.onLane.ite h))

end
end Dev.Sound

namespace State.Sound
section
variable {W : Watch} {s : State} (h : s.Sound W)
include h

theorem execLockLost {l : BitVec 9} : Leaves W (execLockLost l s) := h.loseLock

theorem execEqiUpdate {l : BitVec 9} {up1 low0 up2 low1 up3 low2 : List (Byte × Nat)} :
    Leaves W (execEqiUpdate l up1 low0 up2 low1 up3 low2 s) := by
  refine h.devStep fun d h => ?_
  extract_lets n x e ev low d1 good
  split
  · exact h
  · have h1 : d1.Sound W := h.onLane
    exact (h1.onLane.ite (h1.onLane.ite h1.onLane)).ite
      ((h1.onLane.ite (h1.onLane.raiseAt.ite h1.raiseAt.onLane.moveLane)).ite h1)

theorem execTxeqRequest {l : BitVec 9} {req : BitVec 16} : Leaves W (execTxeqRequest l req s) := by
  refine h.devStep fun d h => ?_
  extract_lets n x id
  split
  · exact h
  · split
    · extract_lets a d1
      have h1 : d1.Sound W := h.onLane.emit
      exact h1.onLane.raiseAt.ite h1

theorem execTrainTimeout {l : BitVec 9} : Leaves W (execTrainTimeout l s) := by
  refine h.devStep fun d h => ?_
  extract_lets n x late
  exact (h.onLane.raiseAt.ite h.toAdapt.onLane.raiseAt).ite h

end
end State.Sound

namespace Dev.Sound
section
variable {W : Watch} {d : Dev} (h : d.Sound W)
include h

theorem loseSignal {n : Nat} : (d.loseSignal n).Sound W := by
  unfold Dev.loseSignal
  extract_lets x
  exact h.ite h.raiseAt.onLane.moveLane

end
end Dev.Sound

namespace State.Sound
section
variable {W : Watch} {s : State} (h : s.Sound W)
include h

theorem execSignalLost {l : BitVec 9} : Leaves W (execSignalLost l s) := h.loseSignal

theorem execLaneclkLost {i : BitVec 3} : Leaves W (execLaneclkLost i s) := by
  refine h.devStep fun d h => ?_
  extract_lets d1
  have h1 : d1.Sound W := h.keep (by rfl)
  exact h1.foldl fun x _ hx => hx.loseSignal

theorem execLaneclkReturn {i : BitVec 3} : Leaves W (execLaneclkReturn i s) := h.keep (by rfl)

theorem execPortDeskew {p : BitVec 7} {skewNs : Nat} {consistent : Bool} :
    Leaves W (execPortDeskew p skewNs consistent s) := by
  refine h.devStep fun d h => ?_
  extract_lets n ls
  exact (h.ite h.onPort).ite (h.ite (h.raisePort.retrainPort.ite
    (h.foldl fun x _ hx => hx.onLane).later))

theorem execEiEnter {p : BitVec 7} : Leaves W (execEiEnter p s) := by
  refine h.devStep fun d h => ?_
  extract_lets n d1
  split
  · exact h
  · have h1 : d1.Sound W := h.foldl fun x _ hx => hx.onLane
    exact h1.onPort.shutBud.emit

theorem execEiEnterReceived {p : BitVec 7} : Leaves W (execEiEnterReceived p s) := by
  refine h.devStep fun d h => ?_
  extract_lets n d1
  split
  · exact h
  · have h1 : d1.Sound W := h.foldl fun x _ hx => hx.onLane
    exact h1.onPort

theorem execWakeStart {p : BitVec 7} : Leaves W (execWakeStart p s) := by
  refine h.devStep fun d h => ?_
  extract_lets n x due d1
  split
  · have h1 : d1.Sound W := h.foldl fun x _ hx => hx.onLane
    exact h1.onPort.emit
  · exact h

theorem execWakeComplete {p : BitVec 7} : Leaves W (execWakeComplete p s) := by
  refine h.devStep fun d h => ?_
  extract_lets n d1
  split
  · split
    · have h1 : d1.Sound W := h.foldl fun x _ hx => hx.onLane
      exact h1.onPort.openBud
    · exact h
  · exact h

theorem execWakeFail {p : BitVec 7} : Leaves W (execWakeFail p s) := by
  refine h.devStep fun d h => ?_
  split
  · exact h.raisePort.portFail.ite h
  · exact h

theorem execRxWake {p : BitVec 7} : Leaves W (execRxWake p s) := by
  refine h.devStep fun d h => ?_
  extract_lets n d1
  split
  · have h1 : d1.Sound W := h.foldl fun x _ hx => hx.onLane
    exact h1.onPort
  · exact h

theorem execRxWakeFail {p : BitVec 7} : Leaves W (execRxWakeFail p s) := by
  refine h.devStep fun d h => ?_
  extract_lets n
  split
  · exact h.raisePort.portFail.ite h
  · exact h

end
end State.Sound

namespace Dev.Sound
section
variable {W : Watch} {d : Dev} (h : d.Sound W)
include h

theorem clearRxEi {p : Nat} : (d.clearRxEi p).Sound W :=
  (h.foldl fun _ _ hx => hx.onLane).onPort.ite h

theorem patCtlWrite {l : Nat} {v : Word} : (d.patCtlWrite l v).Sound W := by
  unfold Dev.patCtlWrite
  extract_lets same gen d0 d1
  have h0 : d0.Sound W := h.ite h.onLane
  have h1 : d1.Sound W := h0.wr.evalLane.downLane
  exact h1.ite h1.onLane

end
end Dev.Sound

namespace State.Sound
section
variable {W : Watch} {s : State} (h : s.Sound W.free)
include h

theorem execPatternGeneratorSet {src : Src} {l : BitVec 9} {v : Word} :
    Leaves W.free (execPatternGeneratorSet src l v s) :=
  h.waitFrom

theorem execPatternCheckerSet {src : Src} {l : BitVec 9} {v : Word} :
    Leaves W.free (execPatternCheckerSet src l v s) :=
  h.waitFrom

end
end State.Sound

namespace State.Sound
section
variable {W : Watch} {s : State} (h : s.Sound W)
include h

theorem execChkLock {l : BitVec 9} : Leaves W (execChkLock l s) := h.onLane.ite h

theorem execCheckerReseed {l : BitVec 9} {rx : List (BitVec 2)} {seed : BitVec 31} :
    Leaves W (execCheckerReseed l rx seed s) := by
  refine h.devStep fun d h => ?_
  extract_lets n own errs
  exact h.add64.add64.ite h

end
end State.Sound

namespace Dev.Sound
section
variable {W : Watch} {d : Dev} (h : d.Sound W)
include h

theorem injCtlWrite {l : Nat} {v : Word} : (d.injCtlWrite l v).Sound W := by
  unfold Dev.injCtlWrite
  extract_lets d1 mode d2 st en rep
  have h1 : d1.Sound W := h.wr
  have h2 : d2.Sound W := h1.onLane.ite h1
  split
  · exact h2
  · split
    · exact h2.raiseAt
    · exact h2.wr.onLane

end
end Dev.Sound

namespace State.Sound
section
variable {W : Watch} {s : State} (h : s.Sound W.free)
include h

theorem execLaneInjGo {src : Src} {l : BitVec 9} {v : Word} :
    Leaves W.free (execLaneInjGo src l v s) :=
  h.waitFrom

end
end State.Sound

namespace State.Sound
section
variable {W : Watch} {s : State} (h : s.Sound W)
include h

theorem execLaneInjEnd {l : BitVec 9} : Leaves W (execLaneInjEnd l s) := by
  refine h.devStep fun d h => ?_
  split
  · exact h.addSat.onLane
  · exact h

end
end State.Sound

/-! ### Links -/

namespace Dev.Sound
section
variable {W : Watch} {d : Dev} (h : d.Sound W)
include h

theorem sendCtl {p payload : Nat} : (d.sendCtl p payload).Sound W := h.onPort

theorem putCtl {p : Nat} : (d.putCtl p).Sound W := by
  unfold Dev.putCtl
  extract_lets x
  split
  · exact h.ite h.setPort.emit
  · exact h

theorem violation {p code : Nat} {pk : Option Packet} : (d.violation p code pk).Sound W := by
  unfold Dev.violation
  extract_lets x w d1 d2 n d3 d4 lim
  have h1 : d1.Sound W := h.addSat
  have h2 : d2.Sound W := h1.check.ite h1.raiseAt
  have h3 : d3.Sound W := h2.onPort
  have h4 : d4.Sound W := h3.ite h3.sendCtl
  exact h4.later.raiseAt.ite h4

theorem sendPend {p : Nat} : (d.sendPend p).Sound W := by
  unfold Dev.sendPend
  extract_lets go _ _ x d1 _ _ y
  have hx : x.Sound W := h.setBit
  have h1 : d1.Sound W := hx.send.ite h
  have hy : y.Sound W := h1.setBit
  exact hy.send.ite h1

theorem enterUp {p : Nat} : (d.enterUp p).Sound W := by
  unfold Dev.enterUp
  extract_lets d1
  have h1 : d1.Sound W := h.onPort
  exact h1.openBud.sendPend

theorem resumeUp {p : Nat} : (d.resumeUp p).Sound W := by
  unfold Dev.resumeUp
  extract_lets d1
  have h1 : d1.Sound W := h.dropToken.onPort
  exact h1.openBud.sendPend

theorem decideUp {p : Nat} : (d.decideUp p).Sound W := by
  unfold Dev.decideUp
  extract_lets x diff d1 d2
  have h1 : d1.Sound W := h.raiseAt.ite h
  have h2 : d2.Sound W := h1.onPort
  exact h2.enterUp.ite h2

theorem quarantine {p cause cond det : Nat} : (d.quarantine p cause cond det).Sound W :=
  h.raiseAt.portLeave

theorem quarPair {p q : Nat} : (d.quarPair p q).Sound W := h.quarantine.quarantine

theorem swapPair {p q : Nat} : (d.swapPair p q).Sound W := by
  unfold Dev.swapPair
  extract_lets sw plus minus base d1 d2
  split
  · have h1 : d1.Sound W := h.onPort.onPort
    have h2 : d2.Sound W := h1.raiseAt.raiseAt
    exact h2.decideUp.decideUp
  · exact h.onPort.onPort.ite h.quarPair

theorem wrong {p : Nat} : (d.wrong p).Sound W := h.quarantine

theorem swapCheck {p : Nat} {i : Ident} {waits : List Nat} : (d.swapCheck p i waits).Sound W := by
  unfold Dev.swapCheck
  split
  · exact h.swapPair
  · split
    · exact h.wrong
    · exact h.onPort.ite h.wrong

theorem linkCheck {p : Nat} {i : Ident} {delay : Nat} : (d.linkCheck p i delay).Sound W := by
  unfold Dev.linkCheck
  extract_lets waits d1
  have h1 : d1.Sound W := by
    dsimp only [d1]
    split
    · exact h.decideUp
    · exact h.swapCheck
    · exact h.quarantine
  exact h1.foldl fun x _ hx => hx.wrong

end
end Dev.Sound

namespace State.Sound
section
variable {W : Watch} {s : State} (h : s.Sound W)
include h

theorem execIdentReceived {p : BitVec 7} {b : BitVec 256} : Leaves W (execIdentReceived p b s) := by
  refine h.devStep fun d h => ?_
  extract_lets n x i d1
  split
  · exact h.onPort
  · exact h
  · exact h
  · split
    · exact h
    · split
      · exact h
      · split
        · have h1 : d1.Sound W := h.onPort
          exact h1.later.ite h1
        · exact h.violation

theorem execTimeProbe {p : BitVec 7} {i : BitVec 3} {turnaround : BitVec 16} :
    Leaves W (execTimeProbe p i turnaround s) :=
  h.sendCtl.ite h

theorem execTimeReply {p : BitVec 7} {i : BitVec 3} {cycles turnaround : Nat} :
    Leaves W (execTimeReply p i cycles turnaround s) := by
  refine h.devStep fun d h => ?_
  extract_lets n x t m
  split
  · exact h
  · exact h.onPort

theorem execPortCheck {p : BitVec 7} : Leaves W (execPortCheck p s) := h.later.ite h

end
end State.Sound

namespace Dev.Sound
section
variable {W : Watch} {d : Dev} (h : d.Sound W)
include h

theorem checkNow {p : Nat} : (d.checkNow p).Sound W := by
  unfold Dev.checkNow
  extract_lets x
  split
  · exact h.onPort.linkCheck.ite (h.decideUp.ite h)
  · exact h

end
end Dev.Sound

namespace State.Sound
section
variable {W : Watch} {s : State} (h : s.Sound W)
include h

theorem execSwapWaitExpire {p : BitVec 7} : Leaves W (execSwapWaitExpire p s) := by
  refine h.devStep fun d hd => ?_
  extract_lets n x q
  clear_value q
  split
  · exact hd
  · exact .ite hd (.ite hd.later.later hd.later)

theorem execExchangeTimeout {p : BitVec 7} : Leaves W (execExchangeTimeout p s) := by
  refine h.devStep fun d h => ?_
  extract_lets n x
  exact h.raiseAt.portFail.ite h

theorem execUpReady {p : BitVec 7} : Leaves W (execUpReady p s) := by
  refine h.devStep fun d h => ?_
  extract_lets n x d1
  split
  · have h1 : d1.Sound W := h.onPort
    exact h1.later.ite h1
  · exact h

theorem execUpReadyTimeout {p : BitVec 7} : Leaves W (execUpReadyTimeout p s) := by
  refine h.devStep fun d h => ?_
  extract_lets n x
  exact h.raiseAt.portFail.ite h

theorem execNbMissing {p : BitVec 7} : Leaves W (execNbMissing p s) := by
  refine h.devStep fun d h => ?_
  extract_lets n x
  exact h.raiseAt.onPort.ite h

end
end State.Sound

namespace Dev.Sound
section
variable {W : Watch} {d : Dev} (h : d.Sound W)
include h

theorem qclrTest {n c : Nat} : (d.qclrTest n c).Sound W := by
  unfold Dev.qclrTest
  extract_lets x
  exact h.raiseAt.ite h.dropToken.later

theorem qclr {n : Nat} {v : Word} : (d.qclr n v).Sound W := by
  unfold Dev.qclr
  extract_lets c
  exact h.ite (h.onPort.ite h.qclrTest)

theorem qclrAll : d.qclrAll.Sound W := h.foldl fun _ _ hx => hx.onPort.qclrTest

end
end Dev.Sound

namespace State.Sound
section
variable {W : Watch} {s : State} (h : s.Sound W.free)
include h

theorem execLinkQclr {src : Src} {p : BitVec 7} {v : Word} :
    Leaves W.free (execLinkQclr src p v s) :=
  h.waitFrom

end
end State.Sound

namespace Dev.Sound
section
variable {W : Watch} {d : Dev} (h : d.Sound W)
include h

theorem linkCtlWrite {n : Nat} {v : Word} : (d.linkCtlWrite n v).Sound W := by
  unfold Dev.linkCtlWrite
  extract_lets d1 st
  have h1 : d1.Sound W := h.wr
  exact (h1.ite (h1.portLeave.foldl fun x _ hx => hx.evalLane)).ite
    ((h1.onPort.foldl fun x _ hx => hx.evalLane).ite h1)

end
end Dev.Sound

namespace State.Sound
section
variable {W : Watch} {s : State} (h : s.Sound W.free)
include h

theorem execPortDisable {src : Src} {p : BitVec 7} : Leaves W.free (execPortDisable src p s) :=
  h.waitFrom

theorem execPortEnable {src : Src} {p : BitVec 7} : Leaves W.free (execPortEnable src p s) :=
  h.waitFrom

end
end State.Sound

namespace Dev.Sound
section
variable {W : Watch} {d : Dev} (h : d.Sound W)
include h

theorem ackTo {p : Nat} {ack : BitVec 12} : (d.ackTo p ack).Sound W := by
  unfold Dev.ackTo
  split
  · exact h.ite h.onPort
  · exact h

theorem reqIn {p : Nat} {ack : BitVec 12} {id : BitVec 6} : (d.reqIn p ack id).Sound W := by
  unfold Dev.reqIn
  extract_lets x d1 y
  split
  · exact h
  · split
    · exact h.violation
    · have h1 : d1.Sound W := h.ackTo
      split
      · extract_lets unsent t0 cells bad due d2
        have h2 : d2.Sound W := h1.onPort
        exact h2.add64.emit

theorem issueReq {p : Nat} {ack : BitVec 12} : (d.issueReq p ack).Sound W := by
  unfold Dev.issueReq
  extract_lets x id tries d1
  have h1 : d1.Sound W := h.onPort.add64.emit
  exact h1.raiseAt.portFail.ite h1

theorem startIn {p : Nat} {id : BitVec 6} : (d.startIn p id).Sound W := by
  unfold Dev.startIn
  extract_lets x
  exact h.onPort.ite h.violation.issueReq

end
end Dev.Sound

namespace State.Sound
section
variable {W : Watch} {s : State} (h : s.Sound W)
include h

theorem execRetryReqReceived {p : BitVec 7} {ack : BitVec 12} {id : BitVec 6} :
    Leaves W (execRetryReqReceived p ack id s) :=
  h.reqIn.ite h

theorem execRetryStartReceived {p : BitVec 7} {id : BitVec 6} :
    Leaves W (execRetryStartReceived p id s) :=
  h.startIn.ite h

theorem execReqTimeout {p : BitVec 7} : Leaves W (execReqTimeout p s) := by
  refine h.devStep fun d h => ?_
  extract_lets n x
  exact h.issueReq.ite h

theorem execAckReceived {p : BitVec 7} {ack : BitVec 12} : Leaves W (execAckReceived p ack s) :=
  h.ackTo.ite h

theorem execProtoErrReceived {p : BitVec 7} {code : Byte} :
    Leaves W (execProtoErrReceived p code s) :=
  h.raiseAt.ite h

end
end State.Sound

namespace Dev.Sound
section
variable {W : Watch} {d : Dev} (h : d.Sound W)
include h

theorem countCw {l : Nat} {syms : Option Nat} {bad : Nat} : (d.countCw l syms bad).Sound W := by
  unfold Dev.countCw
  extract_lets d1
  have h1 : d1.Sound W := h.add64
  split
  · exact h1.add64
  · extract_lets d2
    have h2 : d2.Sound W := h1.ite h1.add64.add64
    exact h2.ite h2.addSat

theorem laneIn {l : Nat} {w : BitVec 5440} : (d.laneIn l w).1.Sound W := by
  unfold Dev.laneIn
  extract_lets x hs d1 got v hs2
  have h1 : d1.Sound W := h.onLane
  split
  · exact h1.gainLock.ite h1
  · split
    · exact h
    · split
      extract_lets e1 e2
      have h2 : e1.Sound W := h.countCw.onLane
      have h3 : e2.Sound W := h2.onLane.ite h2
      exact h3.loseLock.ite h3

theorem withdraw {k : Pkt} : (d.withdraw k).Sound W := h.stomp.ite h.release.catUndo.fanUndo.rmPkt

theorem discardRx {p : Nat} : (d.discardRx p).Sound W := by
  unfold Dev.discardRx
  extract_lets a mine fin later cut d1 d2
  have h1 : d1.Sound W := h.foldl fun x _ hx => hx.withdraw
  have h2 : d2.Sound W := h1.foldl fun x _ hx => hx.stomp
  exact h2.onPort.issueReq

theorem bufferIn {ins : List (Nat × LaneIn)} {t : Nat} : (d.bufferIn ins t).1.Sound W := by
  unfold Dev.bufferIn
  extract_lets d1 put full d2
  have h1 : d1.Sound W := h.foldl fun x e hx => hx.ite hx.add64
  have h2 : d2.Sound W := h1.foldl fun x e hx => hx.onLane
  clear_value full
  split
  · exact h2
  · exact h2.raiseAt

theorem columnIn {p : Nat} {ins : List (Nat × LaneIn)} {t : Nat} :
    (d.columnIn p ins t).Sound W := by
  unfold Dev.columnIn
  extract_lets good bad
  split
  next d1 over_ hb =>
    have h1 : d1.Sound W := by
      have h1 : (d.bufferIn ins t).1.Sound W := h.bufferIn
      rwa [hb] at h1
    extract_lets d2 lost d3 x n d4 d5
    have h2 : d2.Sound W := h1.foldl fun y _ hy => hy.violation
    have h3 : d3.Sound W := h2.onPort.ite h2
    have h4 : d4.Sound W := h3.onPort
    have h5 : d5.Sound W := h4.onPort
    exact h4.ite (h4.discardRx.ite (h4.ite (h5.ite h5.add64)))

end
end Dev.Sound

namespace State.Sound
section
variable {W : Watch} {s : State} (h : s.Sound W)
include h

theorem execCodewordDecode {p : BitVec 7} {col : Column} :
    Leaves W (execCodewordDecode p col s) := by
  refine h.devStep fun d hd => ?_
  have hr : ((List.zip (d.lanesOf p.toNat) col.words).foldl
      (fun (m : Dev × List (Nat × LaneIn)) e =>
      let y := m.1.laneIn e.1 e.2
      (y.1, m.2 ++ [(e.1, y.2)])) (d, [])).1.Sound W :=
    List.foldlRecOn _ _ (motive := fun m : Dev × List (Nat × LaneIn) => m.1.Sound W) hd
    fun m hm e _ => hm.laneIn
  exact .ite hd (.ite hr.columnIn hr)

end
end State.Sound

namespace Dev.Sound
section
variable {W : Watch} {d : Dev} (h : d.Sound W)
include h

theorem markIn {p : Nat} {w : Lsw} {cycle : Nat} : (d.markIn p w cycle).Sound W := by
  unfold Dev.markIn
  split
  · exact h
  · extract_lets o
    exact h.onPort.raise.ite h.onPort

theorem verdIn {p : Nat} {w : Lsw} : (d.verdIn p w).Sound W := by
  unfold Dev.verdIn
  extract_lets mine inPkt isBad d1
  have h1 : d1.Sound W := h.foldl fun x k hx => hx.stomp
  exact .ite h1 (h1.mapPkts fun k => by split <;> rfl)

theorem lswIn {p : Nat} {w : Lsw} {cycle : Nat} : (d.lswIn p w cycle).Sound W := by
  unfold Dev.lswIn
  extract_lets d1 d2 d3
  have h1 : d1.Sound W := h.onPort
  have h2 : d2.Sound W := h1.reqIn.ite h1.ackTo
  have h3 : d3.Sound W := h2.startIn.ite h2
  exact h3.markIn.verdIn

end
end Dev.Sound

namespace State.Sound
section
variable {W : Watch} {s : State} (h : s.Sound W)
include h

theorem execLswReceive {p : BitVec 7} {w : Sideband} : Leaves W (execLswReceive p w s) := by
  refine h.devStep fun d h => ?_
  split
  · exact h.lswIn.ite h
  · exact h

theorem execPeerSkewClear {p : BitVec 7} : Leaves W (execPeerSkewClear p s) := by
  refine h.devStep fun d h => ?_
  extract_lets x
  exact h.onPort.ite h

end
end State.Sound

/-! ### Packets -/

namespace Dev.Sound
section
variable {W : Watch} {d : Dev} (h : d.Sound W)
include h

theorem winBytes {p dir n : Nat} : (d.winBytes p dir n).Sound W := h.keep (by rfl)

theorem countRx {p : Nat} {hv : Header} : (d.countRx p hv).Sound W := by
  unfold Dev.countRx
  extract_lets a
  exact h.add64.add64.winBytes

theorem countTx {p : Nat} {pk : Packet} {stamp : Nat} : (d.countTx p pk stamp).Sound W := by
  unfold Dev.countTx
  extract_lets a d1
  have h1 : d1.Sound W := h.add64.add64.winBytes
  exact h1.sample.capPacket

theorem arrive {p : Nat} {pk : Packet} {tag rseq : BitVec 12} {st : PkSt} :
    (d.arrive p pk tag rseq st).Sound W :=
  h.addPkt

theorem holdsMoved : d.holdsMoved.Sound W := by
  unfold Dev.holdsMoved
  extract_lets d1
  have h1 : d1.Sound W := h.holdSync
  exact h1.foldl fun x _ hx => hx.refreshXoff

end
end Dev.Sound

namespace State.Sound
section
variable {W : Watch} {s : State} (h : s.Sound W.free)
include h

theorem execHeaderLookup {p : BitVec 7} {pk : Packet} {sinceXoff : Nat} :
    Leaves W.free (execHeaderLookup p pk sinceXoff s) := by
  refine h.devStep fun d h => ?_
  extract_lets n x hd m d1 d2 d3
  split
  · exact h
  · have h1 : d1.Sound W.free := h.onPort
    have h2 : d2.Sound W.free := h1.ite h1.violation
    have h3 : d3.Sound W.free := h2.violation.ite h2
    exact h3.arrive.ite (h3.arrive.ite h3.lookup.holdsMoved)

end
end State.Sound

namespace Dev.Sound
section
variable {W : Watch} {d : Dev} (h : d.Sound W)
include h

theorem giveVerds {ps : List Nat} {id : Nat} : (d.giveVerds ps id).Sound W := by
  unfold Dev.giveVerds
  refine h.foldl fun x _ hx => ?_
  extract_lets y
  have hy : y.Sound W := hx.onPort
  exact hy.emit

theorem emuChecks {p : Nat} {pk : Packet} : (d.emuChecks p pk).Sound W := by
  unfold Dev.emuChecks
  extract_lets hd id one d1 d2 d3
  have h1 : d1.Sound W := h.check.ite h
  have h2 : d2.Sound W := h1.check.ite h1
  have h3 : d3.Sound W := h2.check.ite h2
  exact h3.check.ite h3

end
end Dev.Sound

namespace Dev.Sound
section
variable {W : Watch} {d : Dev} (h : d.Sound W.loud)
include h

theorem commit {k : Pkt} : (d.commit k).Sound W.loud := by
  unfold Dev.commit
  extract_lets p d1 d2 d3 d4 d5 d6
  have h1 : d1.Sound W.loud := h.countRx.capPacket
  have h2 : d2.Sound W.loud := h1.mapEnts fun q => by split <;> rfl
  have h3 : d3.Sound W.loud := h2.onPkt (by simp)
  have h4 : d4.Sound W.loud := h3.settleDues
  have h5 : d5.Sound W.loud := by
    dsimp only [d5]
    split
    · exact h4.track
    · exact h4
  have h6 : d6.Sound W.loud := h5.foldl fun x _ hx => hx.countTx
  refine .ite h1.emuChecks.rmPkt ?_
  split
  · exact Dev.Sound.rmPkt ((Dev.Sound.ite h6.catFail h6).discard Watch.loud_mute)
  · exact .ite h6.sample h6.sample.rmPkt
  · exact .ite h6 h6.rmPkt
  · exact h6.sample
  · exact h6

end
end Dev.Sound

namespace Dev.Sound
section
variable {W : Watch} {d : Dev}

theorem afterVerdict {ps : List Nat} {id : Nat} (h : d.Sound W.loud) :
    (d.afterVerdict ps id).Sound W :=
  h.settleLoss.giveVerds.holdsMoved

end
end Dev.Sound

namespace State.Sound
section
variable {W : Watch} {s : State} (h : s.Sound W)
include h

theorem execCellConfirm {id : Nat} : Leaves W (execCellConfirm id s) := by
  refine h.devStep fun d h0 => ?_
  have hd := h0.loud
  split
  · exact h0
  · exact .ite h0 (.ite hd.stomp.afterVerdict
      (.ite (Dev.Sound.ite hd.check hd.raise).countPkt.stomp.afterVerdict hd.commit.afterVerdict))

theorem execCellStomp {id : Nat} : Leaves W (execCellStomp id s) := by
  refine h.devStep fun d hd => ?_
  split
  · exact hd
  · exact .ite hd hd.loud.stomp.afterVerdict

theorem execAdmissionRound {r : BitVec 4} : Leaves W (execAdmissionRound r s) :=
  h.devStep fun _ hd => hd.loud.round.settleLoss.holdsMoved

theorem execOrderPresent {id : Nat} : Leaves W (execOrderPresent id s) := by
  refine h.devStep fun d h => ?_
  split
  · exact h
  · split
    · exact h.orderPresent.holdsMoved.ite h
    · exact h

theorem execOrderRelease {id : Nat} : Leaves W (execOrderRelease id s) := by
  refine h.devStep fun d h => ?_
  split
  · exact h
  · split
    · exact (h.onPkt (by simp)).holdsMoved.ite h
    · exact h

theorem execOrderTimeout {id : Nat} : Leaves W (execOrderTimeout id s) := by
  refine h.devStep fun d h => ?_
  split
  · exact h
  · split
    · exact h.orderTimeout.holdsMoved.ite h
    · exact h

end
end State.Sound

namespace Dev.Sound
section
variable {W : Watch} {d : Dev} (h : d.Sound W)
include h

theorem sheadWrite {k : Nat} {v : Word} : (d.sheadWrite k v).Sound W := by
  unfold Dev.sheadWrite
  extract_lets n
  exact h.setFld.ite h

end
end Dev.Sound

namespace State.Sound
section
variable {W : Watch} {s : State} (h : s.Sound W.free)
include h

theorem execSampleConsume {src : Src} {k : BitVec 2} {v : Word} :
    Leaves W.free (execSampleConsume src k v s) :=
  h.waitFrom

end
end State.Sound

namespace Dev.Sound
section
variable {W : Watch} {d : Dev} (h : d.Sound W)
include h

theorem coreClr : d.coreClr.Sound W := h.keep (by rfl)

end
end Dev.Sound

namespace State.Sound
section
variable {W : Watch} {s : State} (h : s.Sound W.free)
include h

theorem execCoreWmarkClr {src : Src} : Leaves W.free (execCoreWmarkClr src s) := h.waitFrom

end
end State.Sound

namespace Dev.Sound
section
variable {W : Watch} {d : Dev} (h : d.Sound W)
include h

theorem onEnt {key : Nat} {f : QEnt → QEnt} (hf : ∀ q, (f q).key = q.key) :
    (d.onEnt key f).Sound W :=
  h.mapEnts fun q => by
    split
    · exact hf q
    · rfl

theorem loseEnt {q : QEnt} : (d.loseEnt q).Sound W := by
  unfold Dev.loseEnt
  extract_lets d1 d2 d3
  have h1 : d1.Sound W := h.dropEnt (by exact fun _ => rfl)
  have h2 : d2.Sound W := by
    dsimp only [d2]
    split
    · exact h1.endReq
    · exact h1
  exact .ite h (.ite h2.voidEnt h2.freeEnt.fewerEnts)

theorem loseOn {k pid : Nat} : (d.loseOn k pid).Sound W := h.foldl fun _ _ hx => hx.loseEnt

end
end Dev.Sound

namespace State.Sound
section
variable {W : Watch} {s : State} (h : s.Sound W)
include h

theorem execBoundMiss {p : BitVec 7} {id : Nat} : Leaves W (execBoundMiss p id s) := by
  refine h.devStep fun d h => ?_
  split
  · exact h.loseEnt.raise.ite h
  · exact h

end
end State.Sound

namespace Dev.Sound
section
variable {W : Watch} {d : Dev} (h : d.Sound W)
include h

theorem badRead {q : QEnt} {b : BufRead} : ∀ x ∈ d.badRead q b, x.Sound W := by
  unfold Dev.badRead
  extract_lets k j own
  exact Dev.Sound.someElse h.ptrFault.loseOn
    (Dev.Sound.someElse h.loseOn.raise fun x hx => absurd hx (Option.not_mem_none x))

theorem noteFull {p : Nat} : (d.noteFull p).Sound W := h.ite h.onPort.raiseAt

theorem beginTrain {p : Nat} {x : Port} {q : QEnt} : (d.beginTrain p x q).Sound W := by
  unfold Dev.beginTrain
  dsimp only
  exact Dev.Sound.onEnt (.ite h.setPort h.setPort.injUnits) (by simp)

theorem sendCell {p : Nat} {q : QEnt} : (d.sendCell p q).Sound W := by
  unfold Dev.sendCell
  extract_lets x owed bad c d1
  have h1 : d1.Sound W := h.setPort
  exact h1.ite h1.takeBack

theorem nextTrain {p : Nat} {b : BufRead} : (d.nextTrain p b).Sound W := by
  unfold Dev.nextTrain
  split
  · exact h.setPort
  · refine .ite h.noteFull ?_
    split
    next d1 h1 => exact h.badRead d1 h1
    next =>
      dsimp only
      split
      · exact h.beginTrain.sendCell
      · exact h.beginTrain

theorem trainCell {p : Nat} {q : QEnt} {b : BufRead} : (d.trainCell p q b).Sound W := by
  unfold Dev.trainCell
  refine .ite h (.ite h.noteFull ?_)
  split
  next d1 h1 => exact h.badRead d1 (Option.ite_none_left_eq_some.mp h1).2
  next => exact h.sendCell

end
end Dev.Sound

namespace State.Sound
section
variable {W : Watch} {s : State} (h : s.Sound W)
include h

theorem execTrainSelect {p : BitVec 7} {b : BufRead} : Leaves W (execTrainSelect p b s) := by
  refine h.devStep fun d hd => .ite hd (.ite hd.putCtl (.ite hd ?_))
  split
  · split
    · exact hd.loud.trainCell.settleLoss
    · exact hd
  · exact hd.loud.nextTrain.settleLoss

end
end State.Sound

namespace Dev.Sound
section
variable {W : Watch} {d : Dev} (h : d.Sound W)
include h

theorem useSent {u : Use} : (d.useSent u).Sound W := by
  unfold Dev.useSent
  split
  · exact h.partSent
  · exact h.combSent
  · exact h

end
end Dev.Sound

namespace State.Sound
section
variable {W : Watch} {s : State} (h : s.Sound W)
include h

theorem execTrainComplete {p : BitVec 7} : Leaves W (execTrainComplete p s) := by
  refine h.devStep fun d hd => ?_
  dsimp only
  split
  · exact hd
  · split
    · exact hd.onPort
    · have h2 : ∀ f : QEnt → Bool, ∀ g o,
          ((({ d with queue := d.queue.filter f } : Dev).onPort p.toNat g).emit o).Sound W :=
        fun f _ _ => hd.fewerEnts.onPort.emit
      exact .ite hd (.ite (h2 ..) (Dev.Sound.useSent (.ite (h2 ..).countTx ((h2 ..).onPkt (by simp)))))

end
end State.Sound

namespace Dev.Sound
section
variable {W : Watch} {d : Dev} (h : d.Sound W)
include h

theorem pull {id : Nat} : (d.pull id).Sound W := by
  unfold Dev.pull
  extract_lets d1 d2
  have h1 : d1.Sound W := by
    dsimp only [d1]
    split
    · exact .ite h.catUndo.fanUndo.rmPkt (h.catUndo.fanUndo.onPkt (by simp))
    · exact h
  have h2 : d2.Sound W := h1.foldl fun x q hx => hx.voidEnt.ite hx.freeEnt
  exact h2.fewerEnts

theorem loseCell {b die id o : Nat} : ∀ x ∈ d.loseCell b die id o, x.Sound W := by
  unfold Dev.loseCell
  extract_lets ing c pools crossed core inLane d1
  have h1 : d1.Sound W := h.foldl fun _ _ hy => hy.loseEnt
  intro x hx
  split at hx
  · split at hx
    · exact Option.some.inj hx ▸ .ite (h1.dropPkt (by exact fun _ => rfl)) h1
    · exact Option.some.inj hx ▸ h1
  · split at hx
    · exact Option.some.inj hx ▸ h.loseOn
    · obtain ⟨-, hx⟩ := Option.ite_none_right_eq_some.mp hx
      obtain ⟨q, -, rfl⟩ := Option.map_eq_some_iff.mp hx
      exact h.loseEnt

end
end Dev.Sound

namespace State.Sound
section
variable {W : Watch} {s : State} (h : s.Sound W)
include h

theorem execBridgeUncorr {b : Fin 15} {die : Fin 12} {it : BridgeItem} :
    Leaves W (execBridgeUncorr b die it s) := by
  refine h.devStep fun d hd => ?_
  extract_lets det w ing outs
  split
  · split
    next d1 h1 => exact (hd.loseCell d1 h1).raise.holdsMoved
    next => exact hd
  · split
    · exact .ite hd (.ite hd.pull.raise.holdsMoved.cause hd.pull.raise.holdsMoved)
    · exact hd
  · split
    · refine .ite hd ?_
      dsimp only
      split
      · exact hd.pull.raise.holdsMoved.fanCause
      · exact hd.pull.raise.holdsMoved
    · exact hd
  · split
    · refine .ite hd (.ite ?_ ?_)
      · refine Dev.Sound.holdsMoved (Dev.Sound.raise (Dev.Sound.onPkt
          (Dev.Sound.mapEnts ?_ fun q => by split <;> rfl) (by simp)))
        exact hd.foldl fun x q hx => hx.giveUp
      · split
        · exact hd.rmPkt.raise.answer.holdsMoved
        · exact hd
    · exact hd

end
end State.Sound

end Sys2Proof.Machine
end

section
/-! PROOFS. What a step of the machine keeps in order, continued: the data path, power,
resets, activations, counters and the witness. -/

namespace Sys2Proof.Machine

/-! ### The plat -/

namespace Dev.Sound
section
variable {W : Watch} {d : Dev} (h : d.Sound W)
include h

theorem derive : d.derive.Sound W := by
  unfold Dev.derive
  extract_lets n d1 d2
  have h1 : d1.Sound W := h.setFld.setFld
  have h2 : d2.Sound W := h1.keep (by rfl)
  exact h2.foldl fun x _ hx => hx.foldl fun x _ hx => hx.wr

theorem setRecs {rs : List (Nat × Word)} : (d.setRecs rs).Sound W :=
  (h.foldl fun _ _ hx => hx.wr).derive

theorem withPlat {b : List Byte} : (d.withPlat b).Sound W := by
  unfold Dev.withPlat
  extract_lets d0
  have h0 : d0.Sound W := (h.keep (by rfl)).ite h
  exact h0.setRecs

end
end Dev.Sound

/-! ### The data path -/

namespace Dev.Sound
section
variable {W : Watch} {d : Dev} (h : d.Sound W)
include h

theorem evalAll : d.evalAll.Sound W := by
  unfold Dev.evalAll
  extract_lets d1
  have h1 : d1.Sound W := h.foldl fun x _ hx => hx.evalLane
  exact h1.foldl fun x _ hx => hx.downNow

theorem resetTrackers {p : Nat} : (d.resetTrackers p).Sound W := by
  unfold Dev.resetTrackers
  extract_lets d1
  have h1 : d1.Sound W := h.flushOrder
  exact (h1.keep (by rfl)).event

theorem newCol {c : Col} : ({ d with col := c } : Dev).Sound W := h.keep (by rfl)

theorem moreDraws {n : Nat} : ({ d with draws := n } : Dev).Sound W := h.keep (by rfl)

theorem stopRegions {d' : Dev} : (d'.stopRegions d).Sound W := by
  unfold Dev.stopRegions
  extract_lets changed d1
  have h1 : d1.Sound W := h.foldl fun x _ hx => hx.setCap.raise.ite hx
  exact h1.foldl fun x _ hx => .ite (Dev.Sound.raise (Dev.Sound.patWithdraw (hx.keep (by rfl)))) hx

theorem applyFull {b : List Byte} : (d.applyFull b).Sound W := by
  unfold Dev.applyFull
  extract_lets nw ps was new trk d0 _ d1 d2 ign d3 d4 clamp ceil
  have h0 : d0.Sound W := Dev.Sound.withPlat (h.foldl fun x _ hx => hx.resetTrackers)
  have h1 : d1.Sound W := h0.keep (by rfl)
  have h2 : d2.Sound W := h1.foldl fun x _ hx => hx.portFail.downNow
  have h3 : d3.Sound W := h2.foldl fun x _ hx => hx.raise
  have h4 : d4.Sound W := h3.stopRegions
  exact h4.raise.ite h4

theorem markUps : d.markUps.Sound W := h.keep (by rfl)

theorem endAll {w : Word} : (d.endAll w).Sound W := by
  unfold Dev.endAll
  extract_lets f gs d1 rs d2 src
  have h1 : d1.Sound W := h.foldl fun x _ hx => hx.setLaunch.abortEnd
  have h2 : d2.Sound W := h1.foldl fun x _ hx => hx.onRnd.fanAbortEnd
  have hsrc : src.Sound W := h2.dropChunks
  exact hsrc.keep (by rfl)

end
section
variable {W : Watch} {d : Dev} (h : d.Sound W)
include h

theorem residue {classes : Nat} : (d.residue classes).Sound W := by
  unfold Dev.residue
  extract_lets l n d1
  have h1 : d1.Sound W.loud := h.loud.foldl fun x _ hx => hx.dropPkt Watch.loud_mute
  exact .ite h h1.add64.raise.settleLoss

theorem retest {p : Nat} : (d.retest p).Sound W := by
  unfold Dev.retest
  extract_lets x
  split
  · split
    · exact h
    · split
      · exact h.resumeUp
      · split
        · exact h.resumeUp
        · extract_lets swapped
          exact h.onPort
  · exact h

theorem unmapAll : d.unmapAll.Sound W := h.foldl fun _ _ hx => hx.portFail.downNow

theorem outFrom : d.outFrom.Sound W := h.foldl fun _ _ hx => hx.onPort

theorem corrFrom {old' : Dev} : (d.corrFrom old').Sound W := by
  unfold Dev.corrFrom
  extract_lets was now gone new d1
  have h1 : d1.Sound W := h.keep (by rfl)
  exact h1.foldl fun x _ hx => hx.keep (by rfl)

end
end Dev.Sound

namespace Dev.Sound
section
variable {W : Watch} {d : Dev} (h : d.Sound W.free)
include h

omit h in
theorem dpClear (_ : d.Sound W.free) : d.dpClear.Sound W.free := .blank rfl rfl rfl

end
end Dev.Sound

namespace Dev.Sound
section
variable {W : Watch} {d : Dev} (h : d.Sound W)
include h

theorem allParts {v : PartSt} : (d.allParts v).Sound W := h.keep (by rfl)

end
end Dev.Sound

namespace Dev.Sound
section
variable {W : Watch} {d : Dev} (h : d.Sound W.free)
include h

theorem diesOff : d.diesOff.Sound W.free := by
  unfold Dev.diesOff
  extract_lets src
  have hsrc : src.Sound W.free := h.dpClear.allParts
  exact hsrc.keep (by rfl)

end
end Dev.Sound

namespace State.Sound
section
variable {W : Watch} {s : State} (h : s.Sound W.free)
include h

theorem dpBegin {cause : Nat} : (s.dpBegin cause).Sound W.free := by
  unfold State.dpBegin
  extract_lets lost d1 d2 d3
  have h1 : d1.Sound W.free := (Dev.Sound.dpClear h).allParts
  have h2 : d2.Sound W.free := h1.wr.addSat
  have h3 : d3.Sound W.free := h2.keep (by rfl)
  exact State.Sound.ite (Dev.Sound.raise (Dev.Sound.wr (h3.keep (by rfl)))) h3

end
end State.Sound

/-! ### Power -/

namespace Dev.Sound
section
variable {W : Watch} {d : Dev} (h : d.Sound W)
include h

theorem onPwr {f : Pwr → Pwr} : (d.onPwr f).Sound W := h.keep (by rfl)

theorem setScale : d.setScale.Sound W := (h.keep (by rfl)).onPwr

theorem excessEnd : d.excessEnd.Sound W := by
  unfold Dev.excessEnd
  split
  · exact h
  · extract_lets d1 n
    have h1 : d1.Sound W := h.onPwr
    split
    · exact h1.raise.wr.addSat
    · exact h1

theorem powerTick {pEst : Nat} : (d.powerTick pEst).Sound W := by
  unfold Dev.powerTick
  extract_lets l d1 d2 allow exceeds big z y d3
  have h1 : d1.Sound W := h.ite h.onPwr.raise
  have h2 : d2.Sound W := h1.onPwr
  have hz : z.Sound W := h2.onPwr
  have hy : y.Sound W := by
    dsimp only [y]
    split
    · exact h2
    · exact hz.raise.ite hz
  have h3 : d3.Sound W := hy.onPwr.ite h2.excessEnd.onPwr
  exact h3.setScale

end
end Dev.Sound

namespace State.Sound
section
variable {W : Watch} {s : State} (h : s.Sound W)
include h

theorem execCapViolation400 : Leaves W (execCapViolation400 s) := by
  refine h.devStep fun d h => ?_
  split
  · exact h.onPwr.raise.ite h
  · exact h

theorem execBrakeStepDown : Leaves W (execBrakeStepDown s) := h.onPwr.ite h

end
end State.Sound

namespace Dev.Sound
section
variable {W : Watch} {d : Dev} (h : d.Sound W)
include h

theorem brakeTick : d.brakeTick.Sound W := h.ite h.onPwr.raise

end
end Dev.Sound

namespace State.Sound
section
variable {W : Watch} {s : State} (h : s.Sound W)
include h

theorem execBrake {low : Bool} : Leaves W (execBrake low s) := h.onPwr

theorem execAvsFault {k : BitVec 2} : Leaves W (execAvsFault k s) :=
  h.devStep fun _ hd => hd.ite hd.onPwr.raise

theorem execAvsRecover {k : BitVec 2} : Leaves W (execAvsRecover k s) := h.onPwr

theorem execAvsStep {k : BitVec 2} {target : BitVec 10} : Leaves W (execAvsStep k target s) := by
  refine h.devStep fun d h => ?_
  extract_lets i t first
  exact h.ite h.onPwr.emit

theorem execDiodeRead {temps : List ℤ} {noRise : List Nat} :
    Leaves W (execDiodeRead temps noRise s) := by
  refine h.devStep fun d h => ?_
  extract_lets fs d1 bl d2 d3
  have h1 : d1.Sound W := h.foldl fun x _ hx => hx.raise.ite hx
  have h2 : d2.Sound W := h1.foldl fun x _ hx => hx.raise
  have h3 : d3.Sound W := h2.onPwr
  split
  · exact h3
  · extract_lets d4
    have h4 : d4.Sound W := h3.onPwr
    split
    · exact h4.onPwr.raise
    · exact h4

theorem execThermStepDown : Leaves W (execThermStepDown s) := by
  refine h.devStep fun d h => ?_
  split
  · exact h.onPwr.ite h
  · exact h

end
end State.Sound

namespace State.Sound
section
variable {W : Watch} {s : State} (h : s.Sound W.free)
include h

theorem execThermTrip {i : Fin 80} : Leaves W.free (execThermTrip i s) := by
  refine h.devStep fun d h => ?_
  extract_lets d1 src
  have h1 : d1.Sound W.free := h.onPwr.raise
  have hsrc : src.Sound W.free := h1.diesOff
  exact hsrc.keep (by rfl)

theorem pwrCtl {src : Src} {v : Word} : (s.pwrCtl src v).Sound W.free := by
  unfold State.pwrCtl
  extract_lets d d1 d2 warm
  have hd : d.Sound W.free := h
  have h1 : d1.Sound W.free := hd.onPwr.ite hd
  have h2 : d2.Sound W.free := (Dev.Sound.ite h1.onPwr h1.raise).ite h1
  have h3 : ∀ f, State.Sound W.free { s with dev := d2.onPwr f } := fun f => h2.onPwr
  exact .ite h (.ite (.ite h2.raise (.ite h2.onPwr (.ite (State.Sound.dpBegin (h3 _)) h2))) h2)

theorem execTripClr {src : Src} {v : Word} {hot : Bool} : Leaves W.free (execTripClr src v hot s) :=
  h.waitFrom

theorem execLeakClr {src : Src} {v : Word} : Leaves W.free (execLeakClr src v s) := h.waitFrom

theorem execDiodeRetry {src : Src} {v : Word} : Leaves W.free (execDiodeRetry src v s) := h.waitFrom

end
end State.Sound

namespace Dev.Sound
section
variable {W : Watch} {d : Dev} (h : d.Sound W)
include h

theorem leakTo {loop : Nat} {old new : LeakSt} : (d.leakTo loop old new).Sound W := by
  unfold Dev.leakTo
  split
  · exact h
  · split
    · exact h
    · exact h.onPwr.raise
    · exact h.raise

end
end Dev.Sound

namespace State.Sound
section
variable {W : Watch} {s : State} (h : s.Sound W)
include h

theorem execLeakMeasure {r0 r1 : Nat} : Leaves W (execLeakMeasure r0 r1 s) := by
  refine h.devStep fun d h => ?_
  extract_lets x a b d1
  have h1 : d1.Sound W := h.onPwr
  exact h1.leakTo.leakTo

end
end State.Sound

namespace Dev.Sound
section
variable {W : Watch} {d : Dev} (h : d.Sound W)
include h

theorem capWrite {o w : Nat} : (d.capWrite o w).Sound W := by
  unfold Dev.capWrite
  extract_lets d1
  have h1 : d1.Sound W := h.wr
  exact h1.raise.ite h1

theorem capFrom {src : Src} {o : Nat} {v : Word} : (d.capFrom src o v).Sound W :=
  h.capWrite.ite h.raise

end
end Dev.Sound

namespace State.Sound
section
variable {W : Watch} {s : State} (h : s.Sound W.free)
include h

theorem execPwrCapHost {src : Src} {v : Word} : Leaves W.free (execPwrCapHost src v s) := h.waitFrom

end
end State.Sound

namespace Dev.Sound
section
variable {W : Watch} {d : Dev} (h : d.Sound W)
include h

theorem holdSet {src : Src} {b : Bool} : (d.holdSet src b).Sound W := h.onPwr

theorem holdWrite {src : Src} {v : Word} : (d.holdWrite src v).Sound W := by
  unfold Dev.holdWrite
  extract_lets d1
  have h1 : d1.Sound W := h.holdSet.ite h
  exact h1.holdSet.ite h1

end
end Dev.Sound

namespace State.Sound
section
variable {W : Watch} {s : State} (h : s.Sound W.free)
include h

theorem execPwrHoldSet {src : Src} {v : Word} : Leaves W.free (execPwrHoldSet src v s) := h.waitFrom

theorem execPwrHoldClr {src : Src} {v : Word} : Leaves W.free (execPwrHoldClr src v s) := h.waitFrom

end
end State.Sound

/-! ### Reset -/

namespace Dev.Sound
section
variable {W : Watch} {d : Dev} (h : d.Sound W)
include h

theorem drawsAndCol {n : Nat} {c : Col} : ({ d with draws := n, col := c } : Dev).Sound W := h.keep (by rfl)

theorem newNonce : d.newNonce.Sound W := by
  unfold Dev.newNonce
  exact h.drawsAndCol

end
end Dev.Sound

namespace State.Sound
section
variable {W : Watch} {s : State} (h : s.Sound W.free)
include h

omit h in
theorem wipe (_ : s.Sound W.free) {low : Bool} : (s.wipe low).Sound W.free :=
  Dev.Sound.blank rfl rfl rfl

end
end State.Sound

namespace Dev.Sound
section
variable {W : Watch} {d : Dev} (h : d.Sound W)
include h

theorem startInit : d.startInit.Sound W := h.allParts.onPwr.ite h

theorem sampleStraps {st : Straps} : (d.sampleStraps st).Sound W := by
  unfold Dev.sampleStraps
  extract_lets _ _ d1
  have h1 : d1.Sound W := h.keep (by rfl)
  exact h1.newNonce.startInit

end
end Dev.Sound

namespace State.Sound
section
variable {W : Watch} {s : State} (h : s.Sound W.free)
include h

theorem execColdReset {st : Straps} : Leaves W.free (execColdReset st s) :=
  (h.wipe.onDev fun x hx => hx.keep (by rfl)).ite (h.wipe.onDev fun x hx => hx.sampleStraps)

theorem execResetNAssert : Leaves W.free (execResetNAssert s) :=
  (h.wipe.onDev fun x hx => hx.keep (by rfl)).ite (h.onDev fun x hx => hx.keep (by rfl))

theorem execResetNRelease {st : Straps} : Leaves W.free (execResetNRelease st s) :=
  (h.wipe.onDev fun x hx => hx.sampleStraps.wr).ite (h.onDev fun x hx => hx.keep (by rfl))

theorem execStbyLoss : Leaves W.free (execStbyLoss s) := Dev.Sound.keep (h.wipe (low := false)) (by rfl)

end
end State.Sound

namespace State.Sound
section
variable {W : Watch} {s : State} (h : s.Sound W)
include h

theorem execMainRailsUp : Leaves W (execMainRailsUp s) := by
  refine h.devStep fun d hd => ?_
  have h1 : ({ d with rails := true } : Dev).Sound W := hd.keep (by rfl)
  exact hd.ite h1.startInit

end
end State.Sound

namespace State.Sound
section
variable {W : Watch} {s : State} (h : s.Sound W.free)
include h

theorem execRailLoss : Leaves W.free (execRailLoss s) := by
  refine h.devStep fun d h => ?_
  extract_lets src
  have hsrc : src.Sound W.free := h.diesOff
  exact hsrc.keep (by rfl)

theorem execRailReturn : Leaves W.free (execRailReturn s) := by
  unfold Machine.execRailReturn
  split
  · exact h.onDev (fun x hx => hx.keep (by rfl))
  · split
    · extract_lets t
      have ht : t.Sound W.free := h.onDev (fun x hx => (hx.keep (by rfl)).onPwr)
      exact ht.ite ht.dpBegin
    · exact h

theorem rstCtl {src : Src} {v : Word} : (s.rstCtl src v).Sound W.free := h.dpBegin.ite h

theorem execDpReset {src : Src} {v : Word} : Leaves W.free (execDpReset src v s) := h.waitFrom

end
end State.Sound

namespace Dev.Sound
section
variable {W : Watch} {d : Dev} (h : d.Sound W)
include h

theorem pushLoss {n : Nat} : (d.pushLoss n).Sound W := h.keep (by rfl)

theorem partsUp : d.partsUp.Sound W := by
  unfold Dev.partsUp
  extract_lets r d1 d2 d3 _
  have h1 : d1.Sound W := h.keep (by rfl)
  have h2 : d2.Sound W := h1.onPwr
  have h3 : d3.Sound W := h2.pushLoss
  exact .ite (h3.keep (by rfl)) h2

theorem partFails {pt : Part} : (d.partFails pt).Sound W := by
  unfold Dev.partFails
  extract_lets d1
  have h1 : d1.Sound W := h.setPart
  split
  · exact h1.raise
  · exact h1.raise
  · exact h1.raise

end
end Dev.Sound

namespace Dev.Sound
section
variable {W : Watch} {d : Dev} (h : d.Sound W.free)
include h

theorem partFault {pt : Part} : (d.partFault pt).Sound W.free := by
  have h0 : (d.partFails pt).Sound W.free := h.partFails
  have h1 : ∀ b, ({ d.partFails pt with dpDue := b } : Dev).Sound W.free :=
    fun _ => ⟨h0.ids, h0.keys, h0.lost, nofun⟩
  exact (h1 _).ite h

end
end Dev.Sound

namespace State.Sound
section
variable {W : Watch} {s : State} (h : s.Sound W.free)
include h

theorem execPartFault {pt : Part} : Leaves W.free (execPartFault pt s) := h.partFault

end
end State.Sound

namespace State.Sound
section
variable {W : Watch} {s : State} (h : s.Sound W)
include h

theorem execPartInitFail {pt : Part} : Leaves W (execPartInitFail pt s) := h.partFails.ite h

theorem execPartInitTimeout : Leaves W (execPartInitTimeout s) := by
  refine h.devStep fun d h => ?_
  extract_lets start lim
  exact (h.foldl fun x _ hx => hx.partFails).ite h

end
end State.Sound

namespace State.Sound
section
variable {W : Watch} {s : State} (h : s.Sound W.free)
include h

theorem repairRow {row : Nat} : (s.repairRow row).Sound W.free := by
  unfold State.repairRow
  extract_lets st _ d a d1 nv
  have hd : d.Sound W.free := Dev.Sound.keep h (by rfl)
  have h1 : d1.Sound W.free := hd.setFld.raise
  split
  · split
    · exact Dev.Sound.partFault hd
    · exact hd
  · exact .ite h1 (.ite (h1.keep (by rfl)) h1)

end
end State.Sound

namespace Dev.Sound
section
variable {W : Watch} {d : Dev} (h : d.Sound W)
include h

theorem scrubWord {da : Nat} {f : ScrubFind} : (d.scrubWord da f).Sound W := by
  unfold Dev.scrubWord
  extract_lets row pass d1 due w src
  split
  · exact h
  · have h1 : d1.Sound W := h.add64
    exact h1.keep (by rfl)
  · split
    · exact h
    · have hsrc : src.Sound W := h.uncorr
      exact hsrc.keep (by rfl)

end
end Dev.Sound

namespace State.Sound
section
variable {W : Watch} {s : State} (h : s.Sound W.free)
include h

theorem execScrubVisit {da : BitVec 38} {f : ScrubFind} :
    Leaves W.free (execScrubVisit da f s) := by
  unfold Machine.execScrubVisit
  extract_lets a s1
  split
  · exact h
  · have hs1 : s1.Sound W.free := h.repairRow.ite h
    exact hs1.onDev (fun x hx => hx.scrubWord)

end
end State.Sound

namespace Dev.Sound
section
variable {W : Watch} {d : Dev} (h : d.Sound W)
include h

theorem perPort {p : Nat} : (d.perPort p).Sound W := by
  unfold Dev.perPort
  split
  · exact h
  · extract_lets st d0 d1
    have h0 : d0.Sound W := h.resetTrackers
    have h1 : d1.Sound W := h0.ite h0.portLeave
    exact h1.foldl fun x _ hx => hx.onLane.toAdapt

theorem prstWrite {w : Nat} {v : Word} : (d.prstWrite w v).Sound W :=
  h.foldl fun _ _ hx => hx.perPort

end
end Dev.Sound

namespace State.Sound
section
variable {W : Watch} {s : State} (h : s.Sound W.free)
include h

theorem execPerPortReset {src : Src} {w : BitVec 2} {v : Word} :
    Leaves W.free (execPerPortReset src w v s) :=
  h.waitFrom

end
end State.Sound

namespace State.Sound
section
variable {W : Watch} {s : State} (h : s.Sound W)
include h

theorem execLedRefresh : Leaves W (execLedRefresh s) := by
  refine h.devStep fun d h => ?_
  split
  · exact h.emit
  · extract_lets d1 bits
    have h1 : d1.Sound W := h.ite (h.foldl fun x _ hx => hx.setFld)
    exact (h1.keep (by rfl)).emit

end
end State.Sound

namespace Dev.Sound
section
variable {W : Watch} {d : Dev} (h : d.Sound W)
include h

theorem locateWrite {src : Src} {v : Word} : (d.locateWrite src v).Sound W := h.setFld.ite h

end
end Dev.Sound

namespace State.Sound
section
variable {W : Watch} {s : State} (h : s.Sound W.free)
include h

theorem execLocateHost {src : Src} {v : Word} : Leaves W.free (execLocateHost src v s) := h.waitFrom

end
end State.Sound

/-! ### Activation of the plat -/

namespace Dev.Sound
section
variable {W : Watch} {d : Dev} (h : d.Sound W)
include h

theorem onPlat {f : Plat → Plat} : (d.onPlat f).Sound W := h.keep (by rfl)

end
end Dev.Sound

namespace State.Sound
section
variable {W : Watch} {s : State} (h : s.Sound W)
include h

theorem dropStage {src : Src} : (s.dropStage src).Sound W := by
  unfold State.dropStage
  extract_lets d
  have hd : d.Sound W := h.raise.ite h
  exact hd.onPlat

theorem loadStart {src : Src} : (s.loadStart src).Sound W := by
  unfold State.loadStart
  split
  · exact h.onDev (fun x hx => hx.raise)
  · extract_lets n t
    have ht : t.Sound W := h.dropStage
    exact ht.onPlat

theorem loadClear {src : Src} : (s.loadClear src).Sound W := by
  unfold State.loadClear
  split
  · exact h.onDev (fun x hx => hx.raise)
  · exact h.dropStage

theorem install : s.install.Sound W := State.Sound.ite h (h.onDev fun _ hx => hx.raise)

theorem loadCtl {src : Src} {v : Word} : (s.loadCtl src v).Sound W := by
  unfold State.loadCtl
  extract_lets a b
  have ha : a.Sound W := h.loadClear.ite h
  have hb : b.Sound W := ha.loadStart.ite ha
  exact hb.install.ite hb

theorem stageData {data : List Byte} : (s.stageData data).Sound W := by
  unfold State.stageData
  extract_lets n
  exact h.onPlat

end
end State.Sound

namespace State.Sound
section
variable {W : Watch} {s : State} (h : s.Sound W.free)
include h

theorem execPlatLoadStart {src : Src} : Leaves W.free (execPlatLoadStart src s) := h.waitFrom

theorem execPlatLoadClear {src : Src} : Leaves W.free (execPlatLoadClear src s) := h.waitFrom

theorem execPlatLoadInstall {src : Src} : Leaves W.free (execPlatLoadInstall src s) := h.waitFrom

end
end State.Sound

namespace State.Sound
section
variable {W : Watch} {s : State} (h : s.Sound W)
include h

theorem platVerify : s.platVerify.Sound W := by
  unfold State.platVerify
  split
  · exact h
  · split
    · exact h.onPlat
    · exact h.onDev (fun x hx => (hx.foldl fun x _ hx => hx.raise).raise.onPlat)

theorem execPlatVerify : Leaves W (execPlatVerify s) := h.platVerify

end
end State.Sound

namespace Dev.Sound
section
variable {W : Watch} {d : Dev} (h : d.Sound W)
include h

theorem notAligned : d.notAligned.Sound W := h.raise

end
end Dev.Sound

namespace State.Sound
section
variable {W : Watch} {s : State} (h : s.Sound W)
include h

theorem platGo : s.platGo.Sound W := by
  unfold State.platGo
  extract_lets d no t dr busy signed unsigned st
  have hd : d.Sound W := h
  have hunsigned : unsigned.Sound W := h.onDev (fun x hx => hx.raise.raise)
  split
  · exact h.onDev (fun x hx => hx.raise)
  · split
    · exact (h.onDev fun x hx => hx.raise).ite (hunsigned.ite (h.onDev fun x hx => hx.onPlat))
    · split
      · exact h.onDev (fun x hx => hx.notAligned)
      · split
        · exact h.onDev (fun x hx => hx.raise)
        · split
          · exact h.onDev (fun x hx => hx.raise)
          · split
            · exact h.onDev (fun x hx => hx.raise)
            · split
              · exact hunsigned
              · exact h.onDev (fun x hx => hx.onPlat)

end
end State.Sound

namespace Dev.Sound
section
variable {W : Watch} {d : Dev} (h : d.Sound W)
include h

theorem platCancel : d.platCancel.Sound W := h.onPlat.ite h.raise

end
end Dev.Sound

namespace State.Sound
section
variable {W : Watch} {s : State} (h : s.Sound W)
include h

theorem platActCtl {v : Word} : (s.platActCtl v).Sound W := by
  unfold State.platActCtl
  extract_lets a b
  have ha : a.Sound W := h.onDev (fun x hx => hx.wr)
  have hb : b.Sound W := (ha.onDev fun x hx => hx.platCancel).ite ha
  exact hb.platGo.ite hb

end
end State.Sound

namespace State.Sound
section
variable {W : Watch} {s : State} (h : s.Sound W.free)
include h

theorem execPlatActGo {src : Src} {v : Word} : Leaves W.free (execPlatActGo src v s) := h.waitFrom

theorem execPlatActCancel {src : Src} {v : Word} : Leaves W.free (execPlatActCancel src v s) :=
  h.waitFrom

end
end State.Sound

namespace State.Sound
section
variable {W : Watch} {s : State} (h : s.Sound W)
include h

theorem execPlatDrainStart : Leaves W (execPlatDrainStart s) := by
  refine h.devStep fun d h => ?_
  split
  · exact h.onPlat.raise.ite h
  · exact h

theorem actEnds {b c det : Nat} : (s.actEnds b c det).Sound W :=
  h.onDev (fun _ hx => hx.raise.onPlat)

end
end State.Sound

namespace Dev.Sound
section
variable {W : Watch} {d : Dev} (h : d.Sound W)
include h

theorem actSteps {live : Bool} {epoch : Nat} : (d.actSteps live epoch).Sound W := by
  unfold Dev.actSteps
  extract_lets d1 d2 d3 d4 d5
  have h1 : d1.Sound W := h.evalAll.endAll
  have h2 : d2.Sound W := h1.residue.ite h1
  have h3 : d3.Sound W := h2.unmapAll
  have h4 : d4.Sound W := (h3.foldl fun x _ hx => hx.retest).markUps
  have h5 : d5.Sound W := h4.outFrom.qclrAll.holdsMoved
  exact h5.raise.event

end
end Dev.Sound

namespace State.Sound
section
variable {W : Watch} {s : State} (h : s.Sound W.free)
include h

theorem actStructural {b : List Byte} : (s.actStructural b).Sound W.free :=
  h.dpBegin.onDev (fun x hx => hx.keep (by rfl))

end
end State.Sound

namespace State.Sound
section
variable {W : Watch} {s : State} (h : s.Sound W)
include h

theorem actStage {b : List Byte} {live : Bool} : (s.actStage b live).Sound W := by
  unfold State.actStage
  extract_lets d1 _ d2
  have h1 : d1.Sound W := (Dev.Sound.applyFull h).onPlat
  have h2 : d2.Sound W := h1.newCol
  exact .of h2.actSteps.corrFrom

end
end State.Sound

namespace State.Sound
section
variable {W : Watch} {s : State} (h : s.Sound W)
include h

theorem actRestore {b : List Byte} {ams : List (List Byte)} : (s.actRestore b ams).Sound W := by
  unfold State.actRestore
  extract_lets top d1 d2 _ d3
  have h1 : d1.Sound W := (Dev.Sound.applyFull h).foldl fun x _ hx => hx.setRecs
  have h2 : d2.Sound W := h1.onPlat
  have h3 : d3.Sound W := h2.newCol
  exact .of h3.actSteps.corrFrom

end
end State.Sound

namespace State.Sound
section
variable {W : Watch} {s : State} (h : s.Sound W.free)
include h

theorem platActivate {a : Act} : (s.platActivate a).Sound W.free := by
  unfold State.platActivate
  extract_lets d b
  have hd : d.Sound W.free := h
  split
  · split
    · exact h.actEnds
    · split
      · exact h.actEnds.onDev (fun x hx => hx.raise)
      · exact h.actRestore
  · split
    · exact h.actEnds
    · split
      · exact h.actEnds
      · exact h.actStructural.ite h.actStage

end
end State.Sound

namespace State.Sound
section
variable {W : Watch} {s : State} (h : s.Sound W)
include h

theorem execBootRestore : Leaves W (execBootRestore s) := by
  unfold Machine.execBootRestore
  extract_lets d t
  have hd : d.Sound W := h
  split
  · exact h
  · have ht : t.Sound W := h.onDev (fun x hx => hx.keep (by rfl))
    exact (ht.onDev fun x hx => hx.onPlat).ite (ht.onDev fun x hx => hx.raise)

end
end State.Sound

/-! ### Activation of routes -/

namespace State.Sound
section
variable {W : Watch} {s : State} (h : s.Sound W)
include h

theorem routeGo : s.routeGo.Sound W := by
  unfold State.routeGo
  extract_lets d c t dr no ovlEn n amend
  have hd : d.Sound W := h
  have hno : ∀ r, (no r).Sound W := fun _ => h.onDev fun _ hx => hx.raise
  exact (h.onDev fun _ hx => hx.notAligned).ite ((hno _).ite ((hno _).ite ((hno _).ite ((hno _).ite
    ((hno _).ite ((hno _).ite
      ((h.onDev fun _ hx => hx.raise.raise).ite (h.onDev fun _ hx => hx.keep (by rfl)))))))))

end
end State.Sound

namespace Dev.Sound
section
variable {W : Watch} {d : Dev} (h : d.Sound W)
include h

theorem routeCancel : d.routeCancel.Sound W := (h.keep (by rfl)).ite h.raise

end
end Dev.Sound

namespace State.Sound
section
variable {W : Watch} {s : State} (h : s.Sound W)
include h

theorem routeActCtl {v : Word} : (s.routeActCtl v).Sound W := by
  unfold State.routeActCtl
  extract_lets a b
  have ha : a.Sound W := h.onDev (fun x hx => hx.wr)
  have hb : b.Sound W := (ha.onDev fun x hx => hx.routeCancel).ite ha
  exact hb.routeGo.ite hb

end
end State.Sound

namespace State.Sound
section
variable {W : Watch} {s : State} (h : s.Sound W.free)
include h

theorem execRouteActGo {src : Src} {v : Word} : Leaves W.free (execRouteActGo src v s) := h.waitFrom

theorem execRouteActCancel {src : Src} {v : Word} : Leaves W.free (execRouteActCancel src v s) :=
  h.waitFrom

end
end State.Sound

namespace State.Sound
section
variable {W : Watch} {s : State} (h : s.Sound W)
include h

theorem execDrainStart : Leaves W (execDrainStart s) := by
  refine h.devStep fun d h => ?_
  split
  · exact (h.keep (by rfl)).raise.ite h
  · exact h

end
end State.Sound

namespace Dev.Sound
section
variable {W : Watch} {d : Dev} (h : d.Sound W)
include h

theorem amendEnds {d' : Dev} : (d'.amendEnds d).Sound W := by
  unfold Dev.amendEnds
  extract_lets gs d1 xs hit
  have h1 : d1.Sound W := h.foldl fun x _ hx => hx.catFail.dropChunks
  exact h1.foldl fun x _ hx => hx.fanFail

end
end Dev.Sound

namespace State.Sound
section
variable {W : Watch} {s : State} (h : s.Sound W)
include h

theorem applyAmend : s.applyAmend.Sound W := by
  unfold State.applyAmend
  extract_lets d b nw d1 _ d2
  have hd : d.Sound W := h
  have hnw : nw.Sound W := hd.setRecs
  have h1 : d1.Sound W := hnw.stopRegions.onPlat
  have h2 : d2.Sound W := h1.newCol
  exact State.Sound.ite (h.onDev fun _ hx => hx.raise) h2.amendEnds

end
end State.Sound

namespace Dev.Sound
section
variable {W : Watch} {d : Dev} (h : d.Sound W)
include h

theorem overlayOff : d.overlayOff.Sound W := by
  unfold Dev.overlayOff
  extract_lets gs
  exact h.foldl fun x _ hx => hx.raise.cause

end
end Dev.Sound

namespace State.Sound
section
variable {W : Watch} {s : State} (h : s.Sound W)
include h

theorem routeActivated {a : Act} : (s.routeActivated a).Sound W := by
  unfold State.routeActivated
  extract_lets s1 s2
  have hs1 : s1.Sound W := h.onDev (fun x hx => hx.keep (by rfl))
  have hs2 : s2.Sound W := hs1.applyAmend.ite hs1
  refine hs2.onDev fun x hx => ?_
  extract_lets d1 d2
  have h1 : d1.Sound W := hx.keep (by rfl)
  have h2 : d2.Sound W := h1.residue.raise
  exact Dev.Sound.holdsMoved (Dev.Sound.corrFrom (.ite h2.overlayOff h2))

end
end State.Sound

namespace Dev.Sound
section
variable {W : Watch} {d : Dev} (h : d.Sound W.loud)
include h

theorem repeats {l : List (Nat × Nat)} : ({ d with reps := l } : Dev).Sound W.loud := h.keep (by rfl)

theorem representOne {p : Nat} {k0 : Pkt} : (d.representOne p k0).1.Sound W.loud := by
  unfold Dev.representOne
  extract_lets n used
  split
  · exact h
  · split
    next d0 k hd =>
      have h0 : d0.Sound W.loud := by
        have h0 : ((d.oxDraw (d.oxbow.findIdx (fun e => e.2 == k0.id)) k0).relook k0).1.Sound W.loud :=
          h.oxDraw.relook
        rwa [hd] at h0
      extract_lets _ d1 out d2
      have hk : (d0.onPkt k.id (fun _ => { k with dues := [] })).Sound W.loud :=
        h0.onPkt fun _ _ => rfl
      have h1 : d1.Sound W.loud := hk.repeats.settleDues
      have ho : ∀ x, x.Sound W.loud → (out x).Sound W.loud := fun _ hx => hx.parks
      have h2 : d2.Sound W.loud := by
        dsimp only [d2]
        split
        · exact h1.orderPresent
        · exact h1.offer
      split
      · exact h1.dropPkt Watch.loud_mute
      · exact ho _ h1
      · split
        · split
          · exact h.keep (by rfl)
          · exact ho _ h2
        · exact ho _ h2

end
end Dev.Sound

namespace Dev.Sound
section
variable {W : Watch} {d : Dev} (h : d.Sound W)
include h

theorem represent {p : Nat} : (d.represent p).Sound W := by
  unfold Dev.represent
  extract_lets ids l
  refine Dev.Sound.holdsMoved (Dev.Sound.settleLoss ?_)
  refine List.foldlRecOn l _ (motive := fun m : Dev × Bool => m.1.Sound W.loud) h.loud
      fun m hm k _ => ?_
  split
  · exact hm.representOne
  · exact hm

end
end Dev.Sound

namespace State.Sound
section
variable {W : Watch} {s : State} (h : s.Sound W)
include h

theorem execParkedRepresent {p : BitVec 7} : Leaves W (execParkedRepresent p s) := h.represent

end
end State.Sound

namespace Dev.Sound
section
variable {W : Watch} {d : Dev} (h : d.Sound W)
include h

theorem bypassFlood {n t v : Nat} : (d.bypassFlood n t v).Sound W :=
  h.foldl fun _ _ hx => hx.originate.ite hx

theorem bypassArm {n t drain : Nat} : (d.bypassArm n t drain).Sound W := by
  unfold Dev.bypassArm
  extract_lets c going
  exact h.keep (by rfl)

theorem bypassIgnored {n : Nat} : (d.bypassIgnored n).Sound W := h.raise

theorem bypassPropose {n t v : Nat} : (d.bypassPropose n t v).Sound W := by
  unfold Dev.bypassPropose
  extract_lets dr
  split
  · exact h
  · split
    · exact h.bypassIgnored
    · split
      · exact h.bypassIgnored.ite h.bypassArm.bypassFlood
      · extract_lets m
        exact h.bypassIgnored.ite (h.bypassIgnored.bypassArm.bypassFlood.ite h)

end
end Dev.Sound

namespace State.Sound
section
variable {W : Watch} {s : State} (h : s.Sound W)
include h

theorem execBypassDetect {v : BitVec 12} : Leaves W (execBypassDetect v s) := by
  refine h.devStep fun d h => ?_
  extract_lets ps bt dwell last
  split
  · exact h
  · split
    · exact h
    · exact h.raise.bypassPropose

end
end State.Sound

namespace Dev.Sound
section
variable {W : Watch} {d : Dev} (h : d.Sound W)
include h

theorem bypassAct {id : Nat} : (d.bypassAct id).Sound W := h.onPacket fun _ => h.rmPkt.bypassPropose

end
end Dev.Sound

namespace State.Sound
section
variable {W : Watch} {s : State} (h : s.Sound W.free)
include h

theorem execBypassMessage {id : Nat} : Leaves W.free (execBypassMessage id s) := h.wait

end
end State.Sound

namespace Dev.Sound
section
variable {W : Watch} {d : Dev} (h : d.Sound W)
include h

theorem coordWrite {src : Src} {v : Word} : (d.coordWrite src v).Sound W := by
  unfold Dev.coordWrite
  extract_lets busy
  exact (h.keep (by rfl)).ite h.raise

end
end Dev.Sound

namespace State.Sound
section
variable {W : Watch} {s : State} (h : s.Sound W.free)
include h

theorem execCoordWrite {src : Src} {v : Word} : Leaves W.free (execCoordWrite src v s) := h.waitFrom

end
end State.Sound

/-! ### Counters -/

namespace Dev.Sound
section
variable {W : Watch} {d : Dev} (h : d.Sound W)
include h

theorem setDepth {a n : Nat} {clr : Bool} : (d.setDepth a n clr).Sound W := by
  unfold Dev.setDepth
  extract_lets m w
  exact h.wr

theorem setDepths {clr : Bool} : (d.setDepths clr).Sound W :=
  h.foldl fun _ _ hx => hx.foldl fun _ _ hx => hx.setDepth.setDepth

theorem snap : d.snap.Sound W := by
  unfold Dev.snap
  extract_lets keep live d1
  have h1 : d1.Sound W := h.keep (by rfl)
  exact (h1.foldl fun x _ hx => hx.wr).wr64

theorem dueAgain {a b : Bool} : ({ d with snapDue := a, wmarkDue := b } : Dev).Sound W := h.keep (by rfl)

theorem cntCtlWrite {v : Word} : (d.cntCtlWrite v).Sound W := by
  unfold Dev.cntCtlWrite
  extract_lets same d1 d2 _ d3 _
  have h1 : d1.Sound W := h.wr
  have h2 : d2.Sound W := h1.ite h1.setBit
  have h3 : d3.Sound W := h2.snap.dueAgain.ite h2
  exact h3.setDepths.dueAgain.ite h3

end
end Dev.Sound

namespace State.Sound
section
variable {W : Watch} {s : State} (h : s.Sound W.free)
include h

theorem execCntSnap {src : Src} {v : Word} : Leaves W.free (execCntSnap src v s) := h.waitFrom

theorem execCntWmarkClr {src : Src} {v : Word} : Leaves W.free (execCntWmarkClr src v s) :=
  h.waitFrom

theorem execCntWinWrite {src : Src} {v : Word} : Leaves W.free (execCntWinWrite src v s) :=
  h.waitFrom

end
end State.Sound

namespace Dev.Sound
section
variable {W : Watch} {d : Dev} (h : d.Sound W)
include h

theorem bwEnd : d.bwEnd.Sound W := by
  unfold Dev.bwEnd
  extract_lets win d1 d2 src
  split
  · exact h
  · split
    · exact h.keep (by rfl)
    · have h1 : d1.Sound W := h.foldl fun x _ hx => hx.wr64.wr64
      have h2 : d2.Sound W := h1.wr
      have hsrc : src.Sound W := h2.wr
      exact hsrc.keep (by rfl)

end
end Dev.Sound

namespace State.Sound
section
variable {W : Watch} {s : State} (h : s.Sound W)
include h

theorem execBwWindowEnd : Leaves W (execBwWindowEnd s) := h.bwEnd

end
end State.Sound

namespace Dev.Sound
section
variable {W : Watch} {d : Dev} (h : d.Sound W)
include h

theorem viewWrite {src : Src} {a : Nat} {v : Word} : (d.viewWrite src a v).Sound W :=
  h.raise.ite h.wr

end
end Dev.Sound

namespace State.Sound
section
variable {W : Watch} {s : State} (h : s.Sound W.free)
include h

theorem execCntViewWrite {src : Src} {addr v : Word} :
    Leaves W.free (execCntViewWrite src addr v s) :=
  h.waitFrom

end
end State.Sound

namespace Dev.Sound
section
variable {W : Watch} {d : Dev} (h : d.Sound W)
include h

theorem cntServe {k : Pkt} : (d.cntServe k).Sound W := by
  unfold Dev.cntServe
  extract_lets hd pl d0 send
  have h0 : d0.Sound W := h.rmPkt
  split
  · exact h0.raise.addSat.send
  · split
    · exact h0.send

end
end Dev.Sound

namespace Dev.Sound
section
variable {W : Watch} {d : Dev} (h : d.Sound W.free)
include h

theorem cntReadAct {id : Nat} : (d.cntReadAct id).Sound W.free := by
  unfold Dev.cntReadAct
  refine .ite ⟨h.ids, h.keys, h.lost, nofun⟩ (h.onPacket fun k => ?_)
  have h1 : ({ d with cntServed := d.cntServed + 1 } : Dev).Sound W.free := h.keep (by rfl)
  exact h1.onPkt (by simp)

end
end Dev.Sound

namespace Dev.Sound
section
variable {W : Watch} {d : Dev} (h : d.Sound W)
include h

theorem cntTick : d.cntTick.Sound W := h.foldl fun _ _ hx => hx.cntServe

end
end Dev.Sound

namespace State.Sound
section
variable {W : Watch} {s : State} (h : s.Sound W.free)
include h

theorem execCntRead {id : Nat} : Leaves W.free (execCntRead id s) := h.wait

end
end State.Sound

/-! ### Witness -/

namespace Dev.Sound
section
variable {W : Watch} {d : Dev} (h : d.Sound W)
include h

theorem setPat {i : Nat} {x : Pat} : (d.setPat i x).Sound W := h.keep (by rfl)

theorem patGo {i : Nat} : (d.patGo i).Sound W := by
  unfold Dev.patGo
  extract_lets x t
  split
  · exact h.raise
  · exact h.setPat

theorem patStop {i : Nat} : (d.patStop i).Sound W := by
  unfold Dev.patStop
  extract_lets x
  exact h.setPat.patWithdraw.ite h

theorem patWrite {i : Nat} {v : Word} : (d.patWrite i v).Sound W := by
  unfold Dev.patWrite
  extract_lets d1 d2
  have h1 : d1.Sound W := h.wr
  have h2 : d2.Sound W := h1.patStop.ite h1
  exact h2.patGo.ite h2

end
end Dev.Sound

namespace State.Sound
section
variable {W : Watch} {s : State} (h : s.Sound W.free)
include h

theorem execWitPatGo {src : Src} {i : BitVec 3} {v : Word} :
    Leaves W.free (execWitPatGo src i v s) :=
  h.waitFrom

theorem execWitPatStop {src : Src} {i : BitVec 3} {v : Word} :
    Leaves W.free (execWitPatStop src i v s) :=
  h.waitFrom

end
end State.Sound

namespace State.Sound
section
variable {W : Watch} {s : State} (h : s.Sound W)
include h

theorem execPatStart {i : BitVec 3} : Leaves W (execPatStart i s) := by
  refine h.devStep fun d h => ?_
  extract_lets x
  exact h.setPat.ite h

theorem execPatResume {i : BitVec 3} : Leaves W (execPatResume i s) := by
  refine h.devStep fun d h => ?_
  extract_lets x
  exact h.setPat.ite h

end
end State.Sound

namespace Dev.Sound
section
variable {W : Watch} {d : Dev} (h : d.Sound W)
include h

theorem patError {i reason : Nat} : (d.patError i reason).Sound W := h.setPat.raise

theorem patTx {i p : Nat} {pk : Packet} : (d.patTx i p pk).Sound W := by
  unfold Dev.patTx
  extract_lets c
  exact h.addPkt

theorem patRx {i p : Nat} {pk : Packet} : (d.patRx i p pk).Sound W := by
  unfold Dev.patRx
  extract_lets id d1 d2
  have h1 : d1.Sound W := h.arrive.ite h.lookup
  have h2 : d2.Sound W := h1.onPkt (by simp)
  split
  · exact h2.loud.commit.settleLoss.holdsMoved
  · exact h2

end
end Dev.Sound

namespace State.Sound
section
variable {W : Watch} {s : State} (h : s.Sound W)
include h

theorem patPresent {i : Nat} : (s.patPresent i).Sound W := by
  have h0 : s.dev.Sound W := h
  unfold State.patPresent
  extract_lets +onlyGivenNames d0 x0 p
  refine .ite h ?_
  extract_lets +onlyGivenNames x d
  have hd : d.Sound W := h0.setPat
  refine .ite hd ?_
  extract_lets +onlyGivenNames r a b plen fail
  have hf : ∀ ws, (fail ws).Sound W := fun ws => hd.uncorr.setPat.raise
  refine .ite (hf _) ?_
  split
  · exact hd.patError
  refine .ite hd (.ite (hf _) ?_)
  split
  · exact hd
  next d1 h1 =>
    have h1 : d1.Sound W := hd.reserve d1 h1
    extract_lets +onlyGivenNames pk0 flags pk n fin y rx d2 d3
    have h2 : d2.Sound W := h1.setPat
    have h3 : d3.Sound W := h2.patRx.ite h2.patTx
    refine .ite h3 ?_
    extract_lets +onlyGivenNames taken d4
    have h4 : d4.Sound W := h3.setPat
    exact Dev.Sound.ite h4.add64 h4

theorem execPatPresent {i : BitVec 3} : Leaves W (execPatPresent i s) := h.patPresent

end
end State.Sound

namespace Dev.Sound
section
variable {W : Watch} {d : Dev} (h : d.Sound W)
include h

theorem capGo {c : Nat} : (d.capGo c).Sound W := by
  unfold Dev.capGo
  extract_lets x t
  split
  · exact h.raise
  · exact h.setCap.wr

theorem capStop {c : Nat} : (d.capStop c).Sound W := by
  unfold Dev.capStop
  extract_lets x
  exact h.setCap.ite h

theorem capCtl {c : Nat} {v : Word} : (d.capCtl c v).Sound W := by
  unfold Dev.capCtl
  extract_lets d1 d2
  have h1 : d1.Sound W := h.wr
  have h2 : d2.Sound W := h1.capStop.ite h1
  exact h2.capGo.ite h2

end
end Dev.Sound

namespace State.Sound
section
variable {W : Watch} {s : State} (h : s.Sound W.free)
include h

theorem execWitCapGo {src : Src} {c : BitVec 3} {v : Word} :
    Leaves W.free (execWitCapGo src c v s) :=
  h.waitFrom

theorem execWitCapStop {src : Src} {c : BitVec 3} {v : Word} :
    Leaves W.free (execWitCapStop src c v s) :=
  h.waitFrom

end
end State.Sound

namespace State.Sound
section
variable {W : Watch} {s : State} (h : s.Sound W)
include h

theorem execCapStart {c : BitVec 3} : Leaves W (execCapStart c s) := by
  refine h.devStep fun d h => ?_
  extract_lets x
  exact h.setCap.ite h

theorem captureWrite {c : Nat} : (s.captureWrite c).Sound W := by
  have h0 : s.dev.Sound W := h
  unfold State.captureWrite
  extract_lets d x
  split
  · exact h
  · refine .ite h ?_
    extract_lets g total u head fits
    refine .ite h0.setCap.raise ?_
    split
    · exact h
    next d1 h1 =>
      have h1 : d1.Sound W := h0.reserve d1 h1
      exact Dev.Sound.setCap (Dev.Sound.wr (Dev.Sound.add64 (Dev.Sound.wrote (.ite h1 h1.wrote))))

theorem execCaptureWrite {c : BitVec 3} : Leaves W (execCaptureWrite c s) := h.captureWrite

end
end State.Sound

namespace Dev.Sound
section
variable {W : Watch} {d : Dev} (h : d.Sound W)
include h

theorem injStart {p layer mode rep param : Nat} : (d.injStart p layer mode rep param).Sound W := by
  unfold Dev.injStart
  extract_lets d0 x once t id d1
  have h0 : d0.Sound W := (h.keep (by rfl)).wr
  split
  · exact h0.onPort.emit.addSat
  · exact h0.discardRx.addSat
  · exact h0.issueReq.addSat
  · exact h0.onPort.emit.addSat
  · have h1 : d1.Sound W := h0.keep (by rfl)
    exact h1.refreshXoff.ite h1

theorem witInjWrite {p : Nat} {v : Word} : (d.witInjWrite p v).Sound W := by
  unfold Dev.witInjWrite
  extract_lets d1 layer mode cont d2
  have h1 : d1.Sound W := h.wr
  have h2 : d2.Sound W := (h1.keep (by rfl)).ite h1
  split
  · exact h2
  · split
    · exact h2.raise
    · exact h2.injStart

end
end Dev.Sound

namespace State.Sound
section
variable {W : Watch} {s : State} (h : s.Sound W.free)
include h

theorem execWitInjGo {src : Src} {p : BitVec 7} {v : Word} :
    Leaves W.free (execWitInjGo src p v s) :=
  h.waitFrom

end
end State.Sound

end Sys2Proof.Machine
end

section
/-! PROOFS. What a step of the machine keeps in order, continued: the TAP, Col and Narrows,
writes, Obvo, the trail port and the frame boundary. -/

namespace Sys2Proof.Machine

/-! ### The TAP -/

namespace Dev.Sound
section
variable {W : Watch} {d : Dev} (h : d.Sound W)
include h

theorem tap {i : TapIr} : (d.tap i).Sound W := (h.keep (by rfl)).ite h

theorem tapBypass : d.tapBypass.Sound W := h.tap.emit.ite h

theorem tapHold {i : TapIr} : (d.tapHold i).Sound W := by
  unfold Dev.tapHold
  split
  · exact h.tapBypass
  · split
    · extract_lets src
      have hsrc : src.Sound W := h.tap
      exact hsrc.keep (by rfl)
    · exact h

end
end Dev.Sound

namespace State.Sound
section
variable {W : Watch} {s : State} (h : s.Sound W)
include h

theorem execExtest : Leaves W (execExtest s) := h.tapHold

theorem execExtestPulse : Leaves W (execExtestPulse s) := h.tapHold

theorem execExtestTrain : Leaves W (execExtestTrain s) := h.tapHold

theorem execClamp : Leaves W (execClamp s) := h.tapHold

theorem execHighz : Leaves W (execHighz s) := h.tapHold

theorem execIdcode : Leaves W (execIdcode s) := h.tap.emit.ite h

theorem execSamplePreload {bits : List Bool} : Leaves W (execSamplePreload bits s) := by
  refine h.devStep fun d h => ?_
  split
  · extract_lets src
    have hsrc : src.Sound W := h.tap
    exact hsrc.keep (by rfl)
  · exact h

theorem execBypass : Leaves W (execBypass s) := h.tapBypass

theorem execTestLogicReset : Leaves W (execTestLogicReset s) := by
  refine h.devStep fun d h => ?_
  split
  · extract_lets src
    have hsrc : src.Sound W := h.tap
    exact hsrc.keep (by rfl)
  · exact h

end
end State.Sound

/-! ### Col and Narrows -/

namespace Dev.Sound
section
variable {W : Watch} {d : Dev} (h : d.Sound W)
include h

theorem onCol {f : Col → Col} : (d.onCol f).Sound W := h.keep (by rfl)

theorem loadBegin {kind len : Nat} {trail : Bool} : (d.loadBegin kind len trail).Sound W := h.onCol

theorem enterLoader {cause : Nat} : (d.enterLoader cause).Sound W := by
  unfold Dev.enterLoader
  extract_lets r d1
  have h1 : d1.Sound W := h.onCol.raise
  clear_value r
  split
  · exact h1.loadBegin
  · exact h1

end
end Dev.Sound

namespace State.Sound
section
variable {W : Watch} {s : State} (h : s.Sound W)
include h

theorem bootRom {selfTestOk flashOk : Bool} : (s.bootRom selfTestOk flashOk).Sound W := by
  unfold State.bootRom
  extract_lets d b svn
  have hd : d.Sound W := h
  split
  · exact h
  · split
    · exact h.onDev (fun x hx => hx.onCol.raise)
    · split
      · exact h.onDev (fun x hx => hx.enterLoader)
      · split
        · exact h.onDev (fun x hx => hx.enterLoader)
        · split
          · exact h.onDev (fun x hx => hx.onCol.raise.enterLoader)
          · exact hd.onCol

theorem execBootRom {selfTestOk flashOk : Bool} : Leaves W (execBootRom selfTestOk flashOk s) :=
  h.bootRom

end
end State.Sound

namespace Dev.Sound
section
variable {W : Watch} {d : Dev} (h : d.Sound W.free)
include h

theorem colReset {cause : Nat} : (d.colReset cause).Sound W.free := by
  have h1 : ∀ f l, ({ d with pkts := d.pkts.filter f, inputs := l } : Dev).Sound W.free :=
    fun f l => ⟨h.fewerPkts.ids, h.keys, h.lost, nofun⟩
  exact (h1 ..).onCol.addSat.raise

end
end Dev.Sound

namespace State.Sound
section
variable {W : Watch} {s : State} (h : s.Sound W)
include h

theorem colReady {src : Src} : (s.colReady src).Sound W := by
  have h0 : s.dev.Sound W := h
  refine .ite h ?_
  exact Dev.Sound.keep (h0.onCol (f := fun x =>
      { x with st := .ready, bootFails := 0, heldRepairs := [] })) (by rfl)

end
end State.Sound

namespace Dev.Sound
section
variable {W : Watch} {d : Dev} (h : d.Sound W.free)
include h

theorem wdogFires : d.wdogFires.Sound W.free := by
  unfold Dev.wdogFires
  extract_lets n
  exact h.onCol.colReset.raise

theorem colRestart : d.colRestart.Sound W.free := h.ite (h.wdogFires.ite (h.onCol.ite h).colReset)

end
end Dev.Sound

namespace State.Sound
section
variable {W : Watch} {s : State} (h : s.Sound W.free)
include h

theorem colCtl {src : Src} {v : Word} : (s.colCtl src v).Sound W.free := by
  unfold State.colCtl
  extract_lets a
  have ha : a.Sound W.free := h.colReady.ite h
  exact (ha.onDev fun x hx => hx.colRestart).ite ha

theorem execColReady {src : Src} : Leaves W.free (execColReady src s) := h.waitFrom

theorem execColRestart {src : Src} : Leaves W.free (execColRestart src s) := h.waitFrom

end
end State.Sound

namespace Dev.Sound
section
variable {W : Watch} {d : Dev} (h : d.Sound W)
include h

theorem wdogKick {src : Src} {v : Word} : (d.wdogKick src v).Sound W := h.onCol.ite h

end
end Dev.Sound

namespace State.Sound
section
variable {W : Watch} {s : State} (h : s.Sound W.free)
include h

theorem execWdogKick {src : Src} {v : Word} : Leaves W.free (execWdogKick src v s) := h.waitFrom

theorem execWdogExpire : Leaves W.free (execWdogExpire s) := h.wdogFires.ite h

end
end State.Sound

namespace Dev.Sound
section
variable {W : Watch} {d : Dev} (h : d.Sound W)
include h

theorem narCtlWrite {src : Src} {v : Word} : (d.narCtlWrite src v).Sound W := h.onCol.ite h

end
end Dev.Sound

namespace State.Sound
section
variable {W : Watch} {s : State} (h : s.Sound W.free)
include h

theorem execCfgLock {src : Src} {v : Word} : Leaves W.free (execCfgLock src v s) := h.waitFrom

end
end State.Sound

namespace Dev.Sound
section
variable {W : Watch} {d : Dev} (h : d.Sound W)
include h

theorem tokenBad {r : Nat} : (d.tokenBad r).Sound W := h.raise.onCol

theorem tokenCtl {v : Word} : (d.tokenCtl v).Sound W := h.ite (h.tokenBad.ite h.onCol)

end
end Dev.Sound

namespace State.Sound
section
variable {W : Watch} {s : State} (h : s.Sound W.free)
include h

theorem execTokenCheck {src : Src} {v : Word} : Leaves W.free (execTokenCheck src v s) := h.waitFrom

end
end State.Sound

namespace State.Sound
section
variable {W : Watch} {s : State} (h : s.Sound W)
include h

theorem tokenDone : s.tokenDone.Sound W := by
  unfold State.tokenDone
  extract_lets d b d1 p
  have hd : d.Sound W := h
  split
  · exact h
  · have h1 : d1.Sound W := hd.newNonce.onCol
    split
    · exact h1.tokenBad
    · exact h1.dropToken.onCol.raise

theorem execTokenCheckDone : Leaves W (execTokenCheckDone s) := h.tokenDone

theorem execTokenExpire {p : BitVec 7} : Leaves W (execTokenExpire p s) := h.dropToken.ite h

theorem execColPacketSend {pk : Packet} : Leaves W (execColPacketSend pk s) := by
  refine h.devStep fun d h => ?_
  split
  · exact h.raise
  · exact h.ite h.originate

end
end State.Sound

namespace Dev.Sound
section
variable {W : Watch} {d : Dev} (h : d.Sound W)
include h

theorem colMessageAct {id : Nat} : (d.colMessageAct id).Sound W :=
  h.onPacket fun _ => h.rmPkt.onCol.ite h.rmPkt.addSat.raiseOnce

end
end Dev.Sound

namespace State.Sound
section
variable {W : Watch} {s : State} (h : s.Sound W.free)
include h

theorem execColMessage {id : Nat} : Leaves W.free (execColMessage id s) := h.wait

end
end State.Sound

namespace State.Sound
section
variable {W : Watch} {s : State} (h : s.Sound W)
include h

theorem execColFlashWrite {off : Word} {data : List Byte} :
    Leaves W (execColFlashWrite off data s) :=
  State.Sound.ite h (h.onDev fun _ hx => hx.addSat.raise)

end
end State.Sound

namespace Dev.Sound
section
variable {W : Watch} {d : Dev} (h : d.Sound W)
include h

theorem recovRefuse {r : Nat} : (d.recovRefuse r).Sound W := h.raise.onCol

end
end Dev.Sound

namespace Dev.Sound
section
variable {W : Watch} {d : Dev} (h : d.Sound W.free)
include h

theorem recovStart {trail : Bool} {kind len : Nat} :
    (d.recovStart trail kind len).2.Sound W.free := by
  unfold Dev.recovStart
  split
  · exact h.recovRefuse
  · split
    · exact h.recovRefuse
    · split
      · exact h.loadBegin
      · exact h.colReset.onCol

end
end Dev.Sound

namespace Dev.Sound
section
variable {W : Watch} {d : Dev} (h : d.Sound W)
include h

theorem recovAppend {data : List Byte} : (d.recovAppend data).Sound W := h.onCol

end
end Dev.Sound

namespace State.Sound
section
variable {W : Watch} {s : State} (h : s.Sound W)
include h

theorem recovRun {trail : Bool} : (s.recovRun trail).2.Sound W := by
  have h0 : s.dev.Sound W := h
  unfold State.recovRun
  extract_lets d no
  split
  · exact h0.recovRefuse
  · split
    · exact h0.recovRefuse
    · split
      · exact h
      · split
        · exact h0.recovRefuse.onCol
        · exact h0.onCol

end
end State.Sound

namespace State.Sound
section
variable {W : Watch} {s : State} (h : s.Sound W.free)
include h

theorem recovCtl {src : Src} {v : Word} : (s.recovCtl src v).Sound W.free := by
  unfold State.recovCtl
  extract_lets a b
  have ha : a.Sound W.free := h.onDev (fun x hx => hx.wr)
  have hb : b.Sound W.free := (ha.onDev fun x hx => hx.recovStart).ite ha
  exact hb.recovRun.ite hb

theorem execColRecovStart {src : Src} {v : Word} : Leaves W.free (execColRecovStart src v s) :=
  h.waitFrom

theorem execColRecovRun {src : Src} {v : Word} : Leaves W.free (execColRecovRun src v s) :=
  h.waitFrom

theorem loaderCommit {ok : Bool} : (s.loaderCommit ok).Sound W.free := by
  unfold State.loaderCommit
  extract_lets d x nv
  have hd : d.Sound W.free := h
  split
  · exact h
  · split
    · exact hd.recovRefuse.onCol
    · exact hd.raise.onCol.colReset

theorem execLoaderCommit {ok : Bool} : Leaves W.free (execLoaderCommit ok s) := h.loaderCommit

end
end State.Sound

/-! ### Counter views -/

namespace State.Sound
section
variable {W : Watch} {s : State} (h : s.Sound W.free)
include h

theorem read {src : Src} {a : Nat} : (s.read src a).2.Sound W.free := by
  unfold State.read
  extract_lets k d l
  split
  · exact ⟨h.ids, h.keys, h.lost, nofun⟩
  · split
    · exact h
    · split
      · exact Dev.Sound.keep h (by rfl)
      · split
        · exact Dev.Sound.keep h (by rfl)
        · exact h

theorem readMany {src : Src} {a n : Nat} : (s.readMany src a n).2.Sound W.free := by
  induction n generalizing s a with
  | zero => exact h
  | succ n ih => exact ih h.read

end
end State.Sound

/-! ### Writes -/

namespace Dev.Sound
section
variable {W : Watch} {d : Dev} (h : d.Sound W)
include h

theorem plainWrite {a : Nat} {v : Word} : (d.plainWrite a v).Sound W := by
  unfold Dev.plainWrite
  extract_lets old clr
  exact h.wr

end
end Dev.Sound

namespace State.Sound
section
variable {W : Watch} {s : State} (h : s.Sound W.free)
include h

theorem writeGlb {src : Src} {o : Nat} {v : Word} : (s.writeGlb src o v).Sound W.free :=
  have hp : ∀ a, (s.onDev fun d => d.plainWrite a v).Sound W.free := fun _ => h.onDev fun _ hx => hx.plainWrite
  h.rstCtl.ite ((h.onDev fun _ hx => hx.prstWrite).ite (((hp _).ite h).ite
    ((h.onDev fun _ hx => hx.locateWrite).ite (hp _))))

end
end State.Sound

namespace Dev.Sound
section
variable {W : Watch} {d : Dev} (h : d.Sound W)
include h

theorem writeLane {o : Nat} {v : Word} : (d.writeLane o v).Sound W := by
  unfold Dev.writeLane
  extract_lets l
  split
  · exact h.laneCtlWrite
  · exact h.patCtlWrite
  · exact h.injCtlWrite
  · exact h.plainWrite

theorem writeLink {o : Nat} {v : Word} : (d.writeLink o v).Sound W := by
  unfold Dev.writeLink
  extract_lets p
  exact h.linkCtlWrite.ite (h.qclr.ite h.plainWrite)

theorem writeCore {o : Nat} {v : Word} : (d.writeCore o v).Sound W :=
  (h.coreClr.ite h).ite (h.sheadWrite.ite h.plainWrite)

end
end Dev.Sound

namespace State.Sound
section
variable {W : Watch} {s : State} (h : s.Sound W)
include h

theorem writePlat {src : Src} {o : Nat} {v : Word} : (s.writePlat src o v).Sound W :=
  h.loadCtl.ite (h.platActCtl.ite (h.onDev fun _ hx => hx.plainWrite))

end
end State.Sound

namespace State.Sound
section
variable {W : Watch} {s : State} (h : s.Sound W.free)
include h

theorem writeCol {src : Src} {o : Nat} {v : Word} : (s.writeCol src o v).Sound W.free :=
  h.colCtl.ite (h.recovCtl.ite (h.onDev fun _ hx => hx.plainWrite))

end
end State.Sound

namespace Dev.Sound
section
variable {W : Watch} {d : Dev} (h : d.Sound W)
include h

theorem writeNar {src : Src} {o : Nat} {v : Word} : (d.writeNar src o v).Sound W :=
  h.narCtlWrite.ite (h.wdogKick.ite (h.tokenCtl.ite h.plainWrite))

end
end Dev.Sound

namespace State.Sound
section
variable {W : Watch} {s : State} (h : s.Sound W.free)
include h

theorem writePwr {src : Src} {o : Nat} {v : Word} : (s.writePwr src o v).Sound W.free :=
  (h.onDev fun _ hx => hx.capFrom).ite ((h.onDev fun _ hx => hx.holdWrite).ite (h.pwrCtl.ite
  (h.onDev fun _ hx => hx.plainWrite)))

end
end State.Sound

namespace Dev.Sound
section
variable {W : Watch} {d : Dev} (h : d.Sound W)
include h

theorem writeCnt {src : Src} {o : Nat} {v : Word} : (d.writeCnt src o v).Sound W :=
  h.cntCtlWrite.ite (h.viewWrite.ite h.plainWrite)

theorem writeWit {o : Nat} {v : Word} : (d.writeWit o v).Sound W :=
  h.witInjWrite.ite (h.capCtl.ite (h.patWrite.ite h.plainWrite))

end
end Dev.Sound

namespace State.Sound
section
variable {W : Watch} {s : State} (h : s.Sound W.free)
include h

theorem writeAt {src : Src} {a : Nat} {v : Word} : (s.writeAt src a v).Sound W.free := by
  unfold State.writeAt
  extract_lets o
  split
  · exact h.writeGlb
  · exact (h.onDev fun x hx => hx.writeLane).ite h
  · exact (h.onDev fun x hx => hx.writeLink).ite h
  · exact h.onDev (fun x hx => hx.writeCore)
  · exact (h.onDev fun x hx => hx.coordWrite).ite
      (h.routeActCtl.ite (h.onDev fun x hx => hx.plainWrite))
  · exact (h.onDev fun x hx => hx.writeLaunchCtl).ite (h.onDev fun x hx => hx.plainWrite)
  · exact (h.onDev fun x hx => hx.writeRoundCtl).ite (h.onDev fun x hx => hx.plainWrite)
  · exact h.writePlat
  · exact h.writeCol
  · exact h.onDev (fun x hx => hx.writeNar)
  · exact h.writePwr
  · exact h.onDev (fun x hx => hx.writeCnt)
  · exact h.onDev (fun x hx => hx.writeWit)
  · exact h.onDev (fun x hx => hx.plainWrite)

theorem regWrite {src : Src} {a : Nat} {mask v : Word} :
    (s.regWrite src a mask v).2.Sound W.free := by
  unfold State.regWrite
  split
  · exact .ite h (h.onDev fun _ hx => .ite hx.raise hx.raise)
  · split
    · exact h.onDev fun _ hx => hx.gate fun _ hy => hy
    · split
      · exact h.onDev fun _ hx => hx.raise
      · exact h.writeAt

theorem execRegisterWrite {src : Src} {addr v : Word} :
    Leaves W.free (execRegisterWrite src addr v s) :=
  h.waitFrom

theorem execFrmArm {src : Src} {v : Word} : Leaves W.free (execFrmArm src v s) := h.waitFrom

theorem execCatLaunchGo {src : Src} {v : Word} : Leaves W.free (execCatLaunchGo src v s) :=
  h.waitFrom

theorem execCatLaunchAbort {src : Src} {v : Word} : Leaves W.free (execCatLaunchAbort src v s) :=
  h.waitFrom

theorem execCatFenceWrite {src : Src} {w : BitVec 2} {v : Word} :
    Leaves W.free (execCatFenceWrite src w v s) :=
  h.waitFrom

theorem execScoreboardSelect {src : Src} {addr v : Word} :
    Leaves W.free (execScoreboardSelect src addr v s) :=
  h.waitFrom

theorem execFanRoundGo {src : Src} {v : Word} : Leaves W.free (execFanRoundGo src v s) := h.waitFrom

theorem execFanRoundAbort {src : Src} {v : Word} : Leaves W.free (execFanRoundAbort src v s) :=
  h.waitFrom

theorem readOut {src : Src} {a : Nat} : (s.readOut src a).Sound W.free := by
  unfold State.readOut
  refine .ite h ?_
  split
  · exact h.onDev fun _ hx => hx.raise
  · exact h.read.onDev fun _ hx => hx.emit

theorem execFrmNoLoRead {src : Src} : Leaves W.free (execFrmNoLoRead src s) := h.waitFrom

theorem execPairLoRead {src : Src} {addr : Word} : Leaves W.free (execPairLoRead src addr s) :=
  h.waitFrom

theorem execPairHiRead {src : Src} {addr : Word} : Leaves W.free (execPairHiRead src addr s) :=
  h.waitFrom

end
end State.Sound

/-! ### Obvo -/

namespace Dev.Sound
section
variable {W : Watch} {d : Dev} (h : d.Sound W)
include h

theorem onObvo {f : Obvo → Obvo}
    (hf : ∀ o, (f o).acts = o.acts ∧ (f o).reads = o.reads) :
    (d.onObvo f).Sound W := by
  refine h.keep ?_
  obtain ⟨ha, hr⟩ := hf d.obvo
  unfold Dev.onObvo Dev.books
  dsimp only
  rw [ha, hr]

theorem sendSide {sv : Side} {o : Out} : (d.sendSide sv o).Sound W := h.emit.ite h.addSat

theorem reply {c : Cmd} {r : Resp} : (d.reply c r).Sound W := by
  unfold Dev.reply
  split
  · extract_lets d1
    have h1 : d1.Sound W := h.onObvo (by simp)
    exact h1.foldl fun x _ hx => hx.sendSide
  · exact h.emit

theorem answerNow {p : Path} {tag : Nat} {cond : Word} {data : List Byte} :
    (d.answerNow p tag cond data).Sound W :=
  h.reply

theorem refuse {p : Path} {tag b c det : Nat} : (d.refuse p tag b c det).Sound W :=
  h.raise.answerNow

theorem duplicate {sv : Side} {tag : Nat} {r : Option Resp} : (d.duplicate sv tag r).Sound W := by
  unfold Dev.duplicate
  extract_lets d1
  have h1 : d1.Sound W := h.addSat
  split
  · exact h1.sendSide
  · exact h1.onObvo (by simp)

end
end Dev.Sound

namespace State.Sound
section
variable {W : Watch} {s : State} (h : s.Sound W.free)
include h

theorem arrive {side : Side} {c : Instr} : (s.arrive side c).Sound W.free := h.wait.ite h

end
end State.Sound

namespace State.Sound
section
variable {W : Watch} {s : State} (h : s.Sound W)
include h

theorem obvoTake {side : Side} {tag : BitVec 16} {ty : Nat} {shape : Bool} {go : State → State}
    (hg : ∀ x, x.Sound W → (go x).Sound W) : (s.obvoTake side tag ty shape go).Sound W := by
  unfold State.obvoTake
  extract_lets d
  split
  · exact h.onDev fun _ hx => hx.duplicate
  · exact .ite (h.onDev fun _ hx => hx.addSat.refuse)
      (.ite (h.onDev fun _ hx => hx.refuse) (hg _ (h.onDev fun _ hx => hx.onObvo (by simp))))

end
end State.Sound

namespace Dev.Sound
section
variable {W : Watch} {d : Dev} (h : d.Sound W.free)
include h

theorem freeObvo {f : Obvo → Obvo} : (d.onObvo f).Sound W.free := ⟨h.ids, h.keys, h.lost, nofun⟩

theorem addCmd {p : Path} {tag : Nat} {w : Who} {map : Bool} {ops : List ActOp} :
    (d.addCmd p tag w map ops).Sound W.free :=
  h.freeObvo

theorem addAct {w : Who} {op : ActOp} : (d.addAct w op).Sound W.free := h.freeObvo

theorem addRead {src : Src} {k : RdKind} {back : Option (Path × Nat)} :
    (d.addRead src k back).Sound W.free :=
  h.freeObvo

end
end Dev.Sound

namespace State.Sound
section
variable {W : Watch} {s : State} (h : s.Sound W)
include h

theorem obvoRegs {side : Side} {tag : BitVec 16} {a n : Nat} {f : Dev → Dev}
    (hf : ∀ x, x.Sound W → (f x).Sound W) :
    (s.obvoRegs side tag a n f).Sound W := by
  unfold State.obvoRegs
  split
  · exact h.onDev (fun x hx => hx.refuse)
  · exact h.onDev hf

end
end State.Sound

namespace State.Sound
section
variable {W : Watch} {s : State} (h : s.Sound W.free)
include h

theorem takeRd {side : Side} {tag : BitVec 16} {a n : Nat} : (s.takeRd side tag a n).Sound W.free :=
  h.obvoTake (fun _ hx => hx.obvoRegs fun _ hx => hx.addRead)

theorem takeWr {side : Side} {tag : BitVec 16} {a : Nat} {vals : List Word} :
    (s.takeWr side tag a vals).Sound W.free := by
  unfold State.takeWr
  extract_lets n
  exact h.obvoTake (fun x hx => hx.obvoRegs fun x hx => hx.addCmd)

theorem takeWrm {side : Side} {tag : BitVec 16} {a : Nat} {mask v : Word} :
    (s.takeWrm side tag a mask v).Sound W.free :=
  h.obvoTake (fun _ hx => hx.obvoRegs fun _ hx => hx.addCmd)

theorem execObvoRd {side : Side} {tag : BitVec 16} {addr : Word} {count : BitVec 16} :
    Leaves W.free (execObvoRd side tag addr count s) :=
  h.arrive

theorem execObvoWr {side : Side} {tag : BitVec 16} {addr : Word} {vals : List Word} :
    Leaves W.free (execObvoWr side tag addr vals s) :=
  h.arrive

theorem execObvoWrm {side : Side} {tag : BitVec 16} {addr mask v : Word} :
    Leaves W.free (execObvoWrm side tag addr mask v s) :=
  h.arrive

end
end State.Sound

namespace State.Sound
section
variable {W : Watch} {s : State} (h : s.Sound W)
include h

theorem opNo {b c det : Nat} : (s.opNo b c det).2.Sound W := h.onDev fun _ hx => hx.raise

theorem dmaWrite {target : Byte} {off : Nat} {data : List Byte} :
    (s.dmaWrite target off data).2.Sound W := by
  have h0 : s.dev.Sound W := h
  unfold State.dmaWrite
  extract_lets n
  split
  · split
    · exact h.opNo
    · exact h0.wrote
  · split
    · split
      · exact h.opNo
      · exact h.stageData
    · split
      · split
        · exact h.onDev fun _ hx => hx.recovRefuse
        · exact (h.onDev fun _ hx => hx.recovRefuse).opNo
        · exact h.onDev fun _ hx => hx.recovAppend
      · exact h.opNo

theorem dmaRead {target : Byte} {off len : Nat} : (s.dmaRead target off len).2.Sound W := by
  unfold State.dmaRead
  split
  · exact h.opNo
  · split
    · exact h.opNo
    · exact h.onDev fun _ hx => hx.uncorr

end
end State.Sound

namespace State.Sound
section
variable {W : Watch} {s : State} (h : s.Sound W.free)
include h

theorem takeDmaWr {side : Side} {tag : BitVec 16} {target : Byte} {off : Nat} {data : List Byte} :
    (s.takeDmaWr side tag target off data).Sound W.free :=
  h.obvoTake (fun _ hx => hx.onDev fun _ hx => hx.addCmd)

theorem takeDmaRd {side : Side} {tag : BitVec 16} {target : Byte} {off len : Nat} :
    (s.takeDmaRd side tag target off len).Sound W.free :=
  h.obvoTake (fun _ hx => hx.onDev fun _ hx => hx.addCmd)

theorem execDmaWr {side : Side} {tag : BitVec 16} {target : Byte} {off : BitVec 40}
    {data : List Byte} : Leaves W.free (execDmaWr side tag target off data s) :=
  h.arrive

theorem execDmaRd {side : Side} {tag : BitVec 16} {target : Byte} {off : BitVec 40}
    {rlen : BitVec 16} : Leaves W.free (execDmaRd side tag target off rlen s) :=
  h.arrive

theorem execObvoCmdUndefined {side : Side} {tag : BitVec 16} {ty : Byte} :
    Leaves W.free (execObvoCmdUndefined side tag ty s) :=
  h.arrive

end
end State.Sound

namespace Dev.Sound
section
variable {W : Watch} {d : Dev} (h : d.Sound W)
include h

theorem onFlags {f : Obvo → Obvo}
    (hf : ∀ o, (f o).acts = o.acts ∧ (f o).reads = o.reads) :
    (d.onFlags f).Sound W := by
  unfold Dev.onFlags
  extract_lets d1 x d2 side
  have h1 : d1.Sound W := h.onObvo hf
  have h2 : d2.Sound W := h1.ite h1.raise
  exact h2.ite (h2.onObvo (by simp)).event

theorem passOn {side : Side} {pk : ObvoPkt} : (d.passOn side pk).Sound W := h.sendSide

theorem onBeacon {side : Side} {passed : BitVec 3} {fromB : Bool} :
    (d.onBeacon side passed fromB).Sound W := by
  refine Dev.Sound.passOn (h.onFlags fun o => ?_)
  cases side
  · exact ⟨rfl, rfl⟩
  · exact ⟨rfl, rfl⟩

end
end Dev.Sound

namespace State.Sound
section
variable {W : Watch} {s : State} (h : s.Sound W)
include h

theorem execBeacon {side : Side} {passed : BitVec 3} {fromB : Bool} :
    Leaves W (execBeacon side passed fromB s) :=
  h.onBeacon.ite h

theorem execObvoForward {side : Side} {pk : ObvoPkt} : Leaves W (execObvoForward side pk s) :=
  h.devStep fun _ hd => hd.ite (hd.add64.raise.ite (hd.passOn.ite (hd.onBeacon.ite
  (hd.ite hd.passOn))))

end
end State.Sound

namespace Dev.Sound
section
variable {W : Watch} {d : Dev} (h : d.Sound W)
include h

theorem sideLater {side : Side} {v : ObvoSt} : (d.sideLater side v).Sound W := h.onObvo (by simp)

end
end Dev.Sound

namespace State.Sound
section
variable {W : Watch} {s : State} (h : s.Sound W)
include h

theorem execObvoPortUp {side : Side} : Leaves W (execObvoPortUp side s) := h.sideLater.ite h

theorem execObvoPortDown {side : Side} : Leaves W (execObvoPortDown side s) := h.sideLater.ite h

end
end State.Sound

namespace Dev.Sound
section
variable {W : Watch} {d : Dev} (h : d.Sound W)
include h

theorem beaconTick {side : Side} : (d.beaconTick side).Sound W := by
  refine .ite (h.onFlags fun o => ?_) h
  cases side
  · exact ⟨rfl, rfl⟩
  · exact ⟨rfl, rfl⟩

end
end Dev.Sound

namespace State.Sound
section
variable {W : Watch} {s : State} (h : s.Sound W)
include h

theorem execBeaconTimeout {side : Side} : Leaves W (execBeaconTimeout side s) := h.beaconTick

theorem execEventSend : Leaves W (execEventSend s) := by
  refine h.devStep fun d h => ?_
  extract_lets side
  split
  · exact h.ite (h.onObvo (by simp)).emit

end
end State.Sound

/-! ### The trail port -/

namespace State.Sound
section
variable {W : Watch} {s : State} (h : s.Sound W)
include h

theorem execPecBad : Leaves W (execPecBad s) := h.devStep fun _ hd => hd.ite hd.addSat.raise

theorem execUnsupportedMessageType : Leaves W (execUnsupportedMessageType s) :=
  h.devStep fun _ hd => hd.ite hd.addSat

end
end State.Sound

namespace Dev.Sound
section
variable {W : Watch} {d : Dev} (h : d.Sound W)
include h

theorem control {kind : Nat} {bytes : List Byte} : (d.control kind bytes).Sound W :=
  (h.keep (by rfl)).emit.ite h

end
end Dev.Sound

namespace State.Sound
section
variable {W : Watch} {s : State} (h : s.Sound W)
include h

theorem execSetEndpointId {eid : Byte} : Leaves W (execSetEndpointId eid s) :=
  (h.onObvo (by simp)).control.ite h

theorem execGetEndpointId : Leaves W (execGetEndpointId s) := h.control

theorem execGetMctpVersionSupport : Leaves W (execGetMctpVersionSupport s) := h.control

theorem execGetMessageTypeSupport : Leaves W (execGetMessageTypeSupport s) := h.control

theorem spdm {kind : Nat} {err : Option SpdmErr} {body : Nat → List Byte} :
    (s.spdm kind err body).Sound W := by
  unfold State.spdm
  extract_lets d no
  have hd : d.Sound W := h
  split
  · exact h.unheard
  · split
    · exact h.onDev (fun x hx => hx.emit)
    · exact h.onDev (fun x hx => hx.emit)
    · exact h.onDev (fun x hx => hx.emit)
    · exact h.onDev (fun x hx => (hx.keep (by rfl)).emit)

theorem execGetVersion : Leaves W (execGetVersion s) := h.spdm

theorem execGetCapabilities : Leaves W (execGetCapabilities s) := h.spdm

theorem execNegotiateAlgorithms : Leaves W (execNegotiateAlgorithms s) := h.spdm

theorem execGetDigests : Leaves W (execGetDigests s) := h.spdm

theorem execGetCertificate : Leaves W (execGetCertificate s) := h.spdm

theorem execChallenge : Leaves W (execChallenge s) := h.spdm

theorem execGetMeasurements : Leaves W (execGetMeasurements s) := h.spdm

theorem execSpdmUnsupportedRequest : Leaves W (execSpdmUnsupportedRequest s) := h.spdm

theorem trailBad {eid inst : Byte} {cmd : Nat} : (s.trailBad eid inst cmd).Sound W :=
  h.onDev (fun _ hx => hx.refuse)

end
end State.Sound

namespace State.Sound
section
variable {W : Watch} {s : State} (h : s.Sound W.free)
include h

theorem hear {c : Instr} : (s.hear c).Sound W.free := h.wait.ite h.unheard

end
end State.Sound

namespace State.Sound
section
variable {W : Watch} {s : State} (h : s.Sound W)
include h

theorem trailTake {eid inst : Byte} {cmd : Nat} {inLoader inFault ok : Bool} {go : State → State}
    (hg : ∀ x, x.Sound W → (go x).Sound W) :
    (s.trailTake eid inst cmd inLoader inFault ok go).Sound W :=
  State.Sound.ite h (.ite h.trailBad (hg _ h))

end
end State.Sound

namespace State.Sound
section
variable {W : Watch} {s : State} (h : s.Sound W.free)
include h

theorem trailOps {eid inst : Byte} {cmd : Nat} {inLoader ok : Bool} {ops : List ActOp} :
    (s.trailOps eid inst cmd inLoader ok ops).Sound W.free :=
  h.trailTake (fun _ hx => hx.onDev fun _ hx => hx.addCmd)

theorem execStatus {eid inst : Byte} : Leaves W.free (execStatus eid inst s) := h.hear

theorem takeStatus {eid inst : Byte} : (s.takeStatus eid inst).Sound W.free :=
  h.trailTake (fun _ hx => hx.onDev fun _ hx => hx.addRead)

end
end State.Sound

namespace State.Sound
section
variable {W : Watch} {s : State} (h : s.Sound W)
include h

theorem trailRegs {eid inst : Byte} {cmd a n : Nat} {f : Dev → Dev}
    (hf : ∀ x, x.Sound W → (f x).Sound W) :
    (s.trailRegs eid inst cmd a n f).Sound W := by
  unfold State.trailRegs
  refine .ite h.trailBad ?_
  split
  · exact h.onDev (fun x hx => hx.refuse)
  · exact h.onDev (fun x hx => hx.refuse)
  · exact h.onDev hf

end
end State.Sound

namespace State.Sound
section
variable {W : Watch} {s : State} (h : s.Sound W.free)
include h

theorem takeRegRead {eid inst : Byte} {a n : Nat} : (s.takeRegRead eid inst a n).Sound W.free :=
  h.trailTake (fun _ hx => hx.trailRegs fun _ hx => hx.addRead)

theorem takeRegWrite {eid inst : Byte} {a : Nat} {vals : List Word} :
    (s.takeRegWrite eid inst a vals).Sound W.free := by
  unfold State.takeRegWrite
  extract_lets n
  exact h.trailTake (fun x hx => hx.trailRegs fun x hx => hx.addCmd)

theorem execRegRead {eid inst : Byte} {addr : Word} {count : BitVec 16} :
    Leaves W.free (execRegRead eid inst addr count s) :=
  h.hear

theorem execRegWrite {eid inst : Byte} {addr : Word} {vals : List Word} :
    Leaves W.free (execRegWrite eid inst addr vals s) :=
  h.hear

theorem execCapSet {eid inst : Byte} {watts : BitVec 16} :
    Leaves W.free (execCapSet eid inst watts s) :=
  h.hear

theorem execHoldoffSet {eid inst : Byte} : Leaves W.free (execHoldoffSet eid inst s) := h.hear

theorem execHoldoffClear {eid inst : Byte} : Leaves W.free (execHoldoffClear eid inst s) := h.hear

theorem execLocate {eid inst st : Byte} : Leaves W.free (execLocate eid inst st s) := h.hear

theorem execPlatStart {eid inst : Byte} {len : Word} :
    Leaves W.free (execPlatStart eid inst len s) :=
  h.hear

theorem execPlatData {eid inst : Byte} {off : Word} {data : List Byte} :
    Leaves W.free (execPlatData eid inst off data s) :=
  h.hear

theorem execPlatClear {eid inst : Byte} : Leaves W.free (execPlatClear eid inst s) := h.hear

theorem execPlatInstall {eid inst : Byte} : Leaves W.free (execPlatInstall eid inst s) := h.hear

theorem execRecovStart {eid inst kind : Byte} {len : Word} :
    Leaves W.free (execRecovStart eid inst kind len s) :=
  h.hear

theorem execRecovData {eid inst : Byte} {off : Word} {data : List Byte} :
    Leaves W.free (execRecovData eid inst off data s) :=
  h.hear

theorem execRecovRun {eid inst : Byte} : Leaves W.free (execRecovRun eid inst s) := h.hear

theorem execTrailCmdUndefined {eid inst cmd : Byte} :
    Leaves W.free (execTrailCmdUndefined eid inst cmd s) :=
  h.hear

end
end State.Sound

namespace State.Sound
section
variable {W : Watch} {s : State} (h : s.Sound W)
include h

theorem execAlertResponse : Leaves W (execAlertResponse s) :=
  h.devStep fun _ hd => hd.ite (hd.onObvo (by simp)).emit

end
end State.Sound

/-! ### The inputs of a boundary -/

namespace Dev.Sound
section
variable {W : Watch} {d : Dev} (h : d.Sound W.free)
include h

theorem takeWrite {src : Src} {a : Nat} {v : Word} : (d.takeWrite src a v).Sound W.free :=
  .ite (h.gate fun _ hy => hy) (.ite h.raise (.ite h.raise h.addAct))

theorem takeRead {src : Src} {a : Nat} : (d.takeRead src a).Sound W.free := h.addRead

theorem takeMessage {id : Nat} : (d.takeMessage id).Sound W.free := by
  unfold Dev.takeMessage
  split
  · exact h.addAct.ite h
  · exact h

end
end Dev.Sound

namespace State.Sound
section
variable {W : Watch} {s : State} (h : s.Sound W.free)
include h

theorem takeTrail {x : Instr} : (s.takeTrail x).Sound W.free := by
  unfold State.takeTrail
  split
  · exact h.takeStatus
  · exact h.takeRegRead
  · exact h.takeRegWrite
  case h_15 => exact h.trailTake fun _ hx => hx
  case h_16 => exact h
  all_goals exact h.trailOps

theorem takeObvo {x : Instr} : (s.takeObvo x).Sound W.free := by
  unfold State.takeObvo
  split
  · exact h.takeRd
  · exact h.takeWr
  · exact h.takeWrm
  · exact h.takeDmaWr
  · exact h.takeDmaRd
  · exact h.obvoTake fun _ hx => hx
  · exact h.takeTrail

end
end State.Sound

namespace Dev.Sound
section
variable {W : Watch} {d : Dev} (h : d.Sound W)
include h

theorem seen {x : Instr} : (d.seen x).Sound W := by
  unfold Dev.seen
  split
  · exact h.onPwr.ite h
  · exact h

end
end Dev.Sound

namespace State.Sound
section
variable {W : Watch} {s : State} (h : s.Sound W.free)
include h

theorem takeInput {c : Instr} : (s.takeInput c).Sound W.free := by
  unfold State.takeInput
  split
  · exact h.onDev (fun x hx => hx.seen.takeWrite)
  · exact h.onDev (fun x hx => hx.takeMessage)
  · split
    · exact h.onDev (fun x hx => hx.takeRead)
    · exact h.onDev (fun x hx => hx.takeRead)
    · exact h.onDev (fun x hx => hx.takeRead)
    · exact h.takeObvo

theorem sampleInputs : s.sampleInputs.Sound W.free :=
  State.Sound.foldl (h.onDev fun _ hx => ⟨hx.ids, hx.keys, hx.lost, nofun⟩)
  fun _ _ hx => hx.takeInput

end
end State.Sound

namespace Dev.Sound
section
variable {W : Watch} {d : Dev} (h : d.Sound W)
include h

theorem actDone {x : CtlAct} {w : Option Word} {data : List Byte} : (d.actDone x w data).Sound W :=
  h.onObvo (by simp)

theorem answerWrites : d.answerWrites.Sound W := by
  unfold Dev.answerWrites
  extract_lets fin d1
  have h1 : d1.Sound W := h.onObvo (by simp)
  exact h1.foldl fun x _ hx => hx.reply

theorem refuseAct {ev : CtlAct × Word} : (d.refuseAct ev).Sound W := by
  unfold Dev.refuseAct
  extract_lets d1
  have h1 : d1.Sound W := h.raise.actDone
  split
  · exact h1.rmPkt
  · exact h1

end
end Dev.Sound

namespace Dev.Sound
section
variable {W : Watch} {d : Dev} (h : d.Sound W.free)
include h

theorem actMessage {id : Nat} : (d.actMessage id).Sound W.free := by
  unfold Dev.actMessage
  split
  · exact h
  · extract_lets op
    exact h.catHoldAct.ite (h.catAbortAct.ite (h.cntReadAct.ite (h.bypassAct.ite (h.fanAbortAct.ite
        (h.colMessageAct.ite h)))))

end
end Dev.Sound

namespace State.Sound
section
variable {W : Watch} {s : State} (h : s.Sound W.free)
include h

theorem runOp {x : CtlAct} : (s.runOp x).2.Sound W.free := by
  have h0 : s.dev.Sound W.free := h
  unfold State.runOp
  extract_lets src
  split
  · exact h.regWrite
  · exact h.onDev fun _ hx => hx.setFld
  · split
    · exact h.opNo
    · exact h.stageData
  · exact Dev.Sound.recovStart h0 (trail := true)
  · refine h.onDev fun _ hx => ?_
    split
    · exact hx.recovRefuse
    · exact hx.recovAppend
  · exact h.recovRun
  · exact h.dmaWrite
  · exact h.dmaRead
  · exact h.onDev fun _ hx => hx.actMessage

theorem applyAct {x : CtlAct} : (s.applyAct x).Sound W.free := h.runOp.onDev fun _ hx => hx.actDone

end
end State.Sound

namespace Dev.Sound
section
variable {W : Watch} {d : Dev} (h : d.Sound W.free)
include h

theorem deferActs {l : List CtlAct} : (d.deferActs l).Sound W.free := by
  have h1 : ∀ f : Obvo → Obvo, (d.onObvo f).Sound W.free := fun f => ⟨h.ids, h.keys, h.lost, nofun⟩
  exact .ite h (h1 _).addSat.raise

end
end Dev.Sound

namespace State.Sound
section
variable {W : Watch} {s : State} (h : s.Sound W.free)
include h

theorem runHeld : s.runHeld.Sound W.free := by
  unfold State.runHeld
  extract_lets l
  exact h.ite (((h.onDev fun x hx => hx.onObvo (by simp)).foldl fun x _ hx => hx.applyAct).onDev
      fun x hx => hx.answerWrites)

theorem actTick : s.actTick.Sound W.free := by
  unfold State.actTick
  extract_lets m wait
  split
  extract_lets s1 s2
  have ha : ∀ x : Dev, x.Sound W.free → (x.onObvo (fun o => { o with acts := [] })).Sound W.free :=
    fun x hx => ⟨hx.ids, hx.keys, hx.lost, nofun⟩
  have hs1 : s1.Sound W.free :=
    h.onDev fun x hx => Dev.Sound.deferActs ((ha x hx).foldl fun _ _ hy => hy.refuseAct)
  have hs2 : s2.Sound W.free :=
    State.Sound.foldl (hs1.onDev fun x hx => hx.onObvo (by simp)) fun x _ hx => hx.applyAct
  exact hs2.onDev fun x hx => Dev.Sound.keep hx.answerWrites (by rfl)

theorem execPlatActivate : Leaves W.free (execPlatActivate s) := by
  unfold Machine.execPlatActivate
  refine runHeld ?_
  split
  · exact h
  · exact h.ite ((h.onDev fun x hx => hx.notAligned.onPlat).ite h.platActivate)

theorem execActivated : Leaves W.free (execActivated s) := by
  unfold Machine.execActivated
  refine runHeld ?_
  split
  · exact h
  · exact h.ite ((h.onDev fun x hx => (hx.keep (by rfl)).corrFrom.notAligned).ite h.routeActivated)

theorem execDataPathUp : Leaves W.free (execDataPathUp s) := by
  unfold Machine.execDataPathUp
  refine runHeld ?_
  extract_lets d t
  have hd : d.Sound W.free := h
  split
  · exact h
  · have ht : t.Sound W.free := h.onDev (fun x hx => hx.partsUp.evalAll)
    split
    · exact (ht.onDev fun x hx => hx.onPlat).actStage
    · exact ht.onDev (fun x hx => hx.keep (by rfl))

end
end State.Sound

/-! ### The transmitters -/

namespace Dev.Sound
section
variable {W : Watch} {d : Dev} (h : d.Sound W)
include h

theorem injNext {l : Nat} : (d.injNext l).1.Sound W := by
  unfold Dev.injNext
  extract_lets x cnt
  have hc : (cnt d).Sound W := h.addSat
  split
  · exact h.onLane
  · split
    · exact hc
    · split
      · exact h
      · exact hc.onLane
    · exact h

theorem putLine {l cyc : Nat} {sym : List (BitVec 2)} : (d.putLine l cyc sym).Sound W :=
  h.onLane.emit

theorem quietLine {l cyc : Nat} : (d.quietLine l cyc).Sound W := h.onLane.emit.ite h

theorem sendWord {l cyc : Nat} {blks : List Block} {lsw : BitVec 238} :
    (d.sendWord l cyc blks lsw).Sound W :=
  h.injNext.onLane.putLine

theorem sendPattern {l cyc : Nat} : (d.sendPattern l cyc).Sound W := h.injNext.onLane.putLine

theorem sendBack {l k cyc : Nat} : (d.sendBack l k cyc).Sound W := by
  unfold Dev.sendBack
  extract_lets x blks w
  exact h.onLane.sendWord

theorem sendLane {l k i : Nat} : (d.sendLane l k i).Sound W := by
  unfold Dev.sendLane
  extract_lets cyc put eiFirst blks blks
  split
  · exact h.quietLine
  · split
    · exact h.quietLine
    · exact h.quietLine
    · exact h.sendWord
    · exact h.sendWord
    · exact h.sendWord
    · exact h.sendWord
    · exact h.sendWord
    · split
      · exact h.sendWord
      · exact h.quietLine
    · exact h.sendWord
    · exact h.quietLine.ite (h.sendPattern.ite (h.sendBack.ite h.quietLine))

theorem dueCtl {p : Nat} : (d.dueCtl p).Sound W := by
  unfold Dev.dueCtl
  dsimp only
  split
  · split
    · exact .ite (Dev.Sound.ite h.sendCtl h).sendCtl.onPort (h.sendCtl.ite h)
    · exact h.sendCtl.ite h
  · exact .ite (Dev.Sound.ite h.sendCtl h).sendCtl (h.sendCtl.ite h)
  · exact h.sendCtl.ite h
  · exact h.sendCtl.ite h
  · exact h

theorem sendPort {p k : Nat} : (d.sendPort p k).Sound W := by
  unfold Dev.sendPort
  extract_lets cyc d1 d2 x w
  have h1 : d1.Sound W := h.dueCtl.ite h
  have h2 : d2.Sound W := h1.putCtl.ite h1
  split
  split
  extract_lets fills port d3 d4
  have h3 : d3.Sound W := h2.foldl fun y _ hy => hy.sendWord
  have h4 : d4.Sound W := h3.onPort
  exact h4.injUnits.ite h4

theorem askTick {l : Nat} : (d.askTick l).Sound W := by
  unfold Dev.askTick
  extract_lets r old tap
  exact h.onLane.ite h

theorem sendColumn {k i : Nat} : (d.sendColumn k i).Sound W := by
  unfold Dev.sendColumn
  extract_lets ps d1 own d2
  have h1 : d1.Sound W := h.foldl fun x _ hx => hx.sendPort
  have h2 : d2.Sound W := h1.foldl fun x _ hx => hx.sendLane
  exact h2.keep (by rfl)

theorem newLanes {l : List (Nat × Lane)} : ({ d with lanes := l } : Dev).Sound W := h.keep (by rfl)

theorem sendTick : d.sendTick.Sound W := by
  unfold Dev.sendTick
  extract_lets tuning _ d1 d2 d3
  have h1 : d1.Sound W := h.ite (Dev.Sound.moreDraws (h.foldl fun x _ hx => hx.askTick))
  have h2 : d2.Sound W := h1.ite (h1.foldl fun x _ hx => hx.sendColumn)
  have h3 : d3.Sound W := h2.newLanes
  exact h3.foldl fun x _ hx => hx.injUnits.refreshXoff.ite hx

end
end Dev.Sound

/-! ### The frame boundary -/

namespace Dev.Sound
section
variable {W : Watch} {d : Dev} (h : d.Sound W)
include h

theorem stallTick : d.stallTick.Sound W := by
  unfold Dev.stallTick
  extract_lets n
  refine h.foldl fun x _ hx => ?_
  refine hx.foldl fun x _ hx => ?_
  extract_lets waits z
  have hz : z.Sound W := hx.add64.ite hx
  exact hz.add64.ite hz

theorem depthTick : d.depthTick.Sound W := by
  unfold Dev.depthTick
  extract_lets _ d1 _
  have h1 : d1.Sound W := h.setDepths.dueAgain
  exact h1.snap.dueAgain.ite h1

theorem lockTick : d.lockTick.Sound W := h.onCol.ite h

theorem condTick : d.condTick.Sound W := by
  unfold Dev.condTick
  extract_lets mask d1
  have h1 : d1.Sound W := h.foldl fun x _ hx => hx.event
  exact h1.raise.ite h1

end
end Dev.Sound

namespace State.Sound
section
variable {W : Watch} {s : State} (h : s.Sound W.free)
include h

theorem answerRead {r : RdAct} : (s.answerRead r).Sound W.free := by
  unfold State.answerRead
  extract_lets back put
  clear_value back
  have hp : ∀ data t, State.Sound W.free t → (put data t).Sound W.free := by
    intro data t ht
    dsimp only [put]
    split
    · exact ht
    · exact ht.onDev fun _ hx => (hx.onObvo (by simp)).reply
  cases r.kind
  · exact hp _ _ h.readMany
  · exact h.readOut
  · exact hp _ _ h

theorem readTick : s.readTick.Sound W.free :=
  State.Sound.foldl (h.onDev fun _ hx => ⟨hx.ids, hx.keys, hx.lost, nofun⟩)
  fun _ _ hx => hx.answerRead

theorem endFrame : s.endFrame.Sound W.free :=
  have hd : ∀ x : Dev, x.Sound W.free →
      x.qclrAll.holdsMoved.catTick.fanTick.sendTick.stallTick.depthTick.cntTick.lockTick.condTick.Sound W.free :=
    fun _ hx =>
      hx.qclrAll.holdsMoved.catTick.fanTick.sendTick.stallTick.depthTick.cntTick.lockTick.condTick
  (h.runHeld.onDev hd).readTick

end
end State.Sound

namespace Dev.Sound
section
variable {W : Watch} {d : Dev} (h : d.Sound W.free)
include h

theorem beginFrame : d.beginFrame.Sound W.free := ⟨h.ids, h.keys, h.lost, nofun⟩

end
end Dev.Sound

namespace Dev.Sound
section
variable {W : Watch} {d : Dev} (h : d.Sound W)
include h

theorem poolTick : d.poolTick.Sound W := by
  unfold Dev.poolTick
  split
  · exact h
  · refine h.foldl fun x _ hx => ?_
    extract_lets k j size used old new y a z
    have hy : y.Sound W := hx.keep (by rfl)
    have hz : z.Sound W := hy.wr.ite hy
    exact hz.raise.ite hz

theorem budTick {p : Nat} : (d.budTick p).Sound W := by
  unfold Dev.budTick
  split
  · exact h
  · extract_lets d1 near d2
    have h1 : d1.Sound W := h.foldl fun x _ hx => hx.setBud
    have h2 : d2.Sound W := h1.keep (by rfl)
    exact h2.foldl fun x _ hx => hx.keep (by rfl)

theorem thrTick : d.thrTick.Sound W := by
  unfold Dev.thrTick
  split
  · exact h.wr
  · refine h.foldl fun x _ hx => ?_
    extract_lets g c ps used room on
    exact hx.setBit.raise.ite (hx.setBit.ite hx)

theorem planTick : d.planTick.Sound W := h.ite (h.ite h.onPlat.raise)

theorem takeDue {p : Nat} {u : Due} : (d.takeDue p u).Sound W := by
  unfold Dev.takeDue
  extract_lets x
  split
  · exact h.portLeave
  · exact h.portLeave.ite h
  · exact h.quarantine.ite h
  · exact h.resumeUp.ite (h.enterUp.ite h)
  · exact h.checkNow
  · exact h.setPort.ite h

theorem dueTick : d.dueTick.Sound W := by
  unfold Dev.dueTick
  extract_lets l d1
  have h1 : d1.Sound W := h.keep (by rfl)
  exact h1.foldl fun x _ hx => hx.takeDue

theorem portTick {p : Nat} : (d.portTick p).Sound W := by
  unfold Dev.portTick
  extract_lets d3 held still idle d4 d5
  have h3 : d3.Sound W := h.clearRxEi
  have h4 : d4.Sound W := h3.ite h3.onPort
  have h5 : d5.Sound W := h4.onPort.ite h4
  exact h5.onPort.ite h5

theorem tapTick : d.tapTick.Sound W := by
  unfold Dev.tapTick
  refine h.foldl fun x _ hx => ?_
  extract_lets t
  exact hx.ite hx.onLane

theorem takeSide {ev : Side × ObvoSt} : (d.takeSide ev).Sound W := by
  have hs : ∀ st, (d.onObvo (fun x => x.setSide st ev.1)).Sound W := fun st => h.onObvo fun o => by
    unfold Obvo.setSide
    split
    · exact ⟨rfl, rfl⟩
    · exact ⟨rfl, rfl⟩
  exact .ite (.ite (hs _).raise h) (hs _)

theorem obvoTick : d.obvoTick.Sound W := by
  unfold Dev.obvoTick
  extract_lets d0 d1 clear
  have h0 : d0.Sound W := (h.onObvo (by exact fun _ => ⟨rfl, rfl⟩)).ite h
  have h1 : d1.Sound W := (h0.onObvo (by simp)).foldl fun x _ hx => hx.takeSide
  have hf : ∀ {x : Dev}, x.Sound W → ∀ p, (x.onFlags fun o => o.unvalid p).Sound W :=
    fun hx p => hx.onFlags (by cases p <;> exact fun _ => ⟨rfl, rfl⟩)
  exact .ite (hf (.ite (hf h1 _) h1) _) (.ite (hf h1 _) h1)

theorem passTick {l : List Part} : (d.passTick l).Sound W := h.foldl fun _ _ hx => hx.setPart

theorem correctTick {f : FrameIn} : (d.correctTick f).Sound W := by
  unfold Dev.correctTick
  extract_lets d1 d2 d3
  have h1 : d1.Sound W := h.foldl fun x _ hx => hx.add64
  have h2 : d2.Sound W := h1.foldl fun x _ hx => hx.add64
  have h3 : d3.Sound W := h2.foldl fun x _ hx => hx.addSat
  exact h3.foldl fun x _ hx => hx.add64

end
end Dev.Sound

namespace Dev.Sound
section
variable {W : Watch} {d : Dev} (h : d.Sound W.free)
include h

theorem newFrame {f : FrameIn} : (d.newFrame f).Sound W.free := by
  unfold Dev.newFrame
  extract_lets d1
  have h1 : d1.Sound W.free := h.correctTick.beginFrame.passTick.onPwr.poolTick
  exact h1.foldl fun x _ hx => hx.budTick

end
end Dev.Sound

namespace Dev.Sound
section
variable {W : Watch} {d : Dev} (h : d.Sound W)
include h

theorem eventTick : d.eventTick.Sound W :=
  (h.dueTick.foldl fun _ _ hx => hx.portTick).obvoTick.brakeTick

theorem afterActs {f : FrameIn} : (d.afterActs f).Sound W := h.thrTick.planTick.powerTick.tapTick

theorem checkTick : d.checkTick.Sound W := by
  unfold Dev.checkTick
  extract_lets d1
  have h1 : d1.Sound W := h.foldl fun x _ hx => hx.launchCheck
  exact h1.foldl fun x _ hx => hx.rankRelease

end
end Dev.Sound

namespace State.Sound
section
variable {W : Watch} {s : State} (h : s.Sound W.free)
include h

theorem dpTick : s.dpTick.Sound W.free := h.dpBegin.ite h

theorem boundary {f : FrameIn} : (s.boundary f).Sound W.free := by
  unfold State.boundary
  extract_lets s1 s2
  have hs1 : s1.Sound W.free := (h.endFrame.onDev fun x hx => hx.newFrame).dpTick
  have hs2 : s2.Sound W.free := (hs1.onDev fun x hx => hx.eventTick).sampleInputs
  exact hs2.actTick.onDev (fun x hx => hx.afterActs.checkTick)

theorem execFrameBoundary {f : FrameIn} : Leaves W.free (execFrameBoundary f s) := h.boundary

end
end State.Sound

namespace Dev.Sound
section
variable {W : Watch} {d : Dev} (h : d.Sound W.free)
include h

theorem newClock {c : Frm} : ({ d with frm := c } : Dev).Sound W.free :=
  ⟨h.ids, h.keys, h.lost, nofun⟩

theorem realign {cyc : Nat} : (d.realign cyc).Sound W.free := h.newClock.setBit

end
end Dev.Sound

namespace State.Sound
section
variable {W : Watch} {s : State} (h : s.Sound W.free)
include h

theorem execTicksyncPulse {cyc : BitVec 9} : Leaves W.free (execTicksyncPulse cyc s) :=
  h.devStep fun _ hd => hd.ite (hd.realign.ite (hd.ite (hd.newClock.ite hd.raise)))

theorem execTicksyncMiss : Leaves W.free (execTicksyncMiss s) :=
  h.devStep fun _ hd => hd.newClock.addSat.raise.ite hd

theorem execRackclkLost : Leaves W.free (execRackclkLost s) :=
  h.devStep fun _ hd => hd.newClock.ite hd.newClock.raise.sideLater.sideLater

theorem execRackclkReturn : Leaves W.free (execRackclkReturn s) :=
  h.devStep fun _ hd => hd.newClock.ite hd

end
end State.Sound

end Sys2Proof.Machine
end

section
/-! PROOFS. What a step of the machine keeps in order, continued: every command, and a step. -/

namespace Sys2Proof.Machine

/-! ### Every command -/

namespace State.Sound
section
variable {W : Watch} {s : State} (h : s.Sound W.free)
include h

theorem exec {i : Instr} : Leaves W.free (exec i s) := by
  cases i with
  | frameBoundary _ => exact h.execFrameBoundary
  | ticksyncPulse _ => exact h.execTicksyncPulse
  | ticksyncMiss => exact h.execTicksyncMiss
  | rackclkLost => exact h.execRackclkLost
  | rackclkReturn => exact h.execRackclkReturn
  | frmArm _ _ => exact h.execFrmArm
  | frmNoLoRead _ => exact h.execFrmNoLoRead
  | pairLoRead _ _ => exact h.execPairLoRead
  | pairHiRead _ _ => exact h.execPairHiRead
  | registerWrite _ _ _ => exact h.execRegisterWrite
  | peerSkewClear _ => exact h.execPeerSkewClear
  | boundMiss _ _ => exact h.execBoundMiss
  | laneEnable _ _ _ => exact h.execLaneEnable
  | laneDisable _ _ _ => exact h.execLaneDisable
  | retrain _ _ _ => exact h.execRetrain
  | loopbackSelect _ _ _ => exact h.execLoopbackSelect
  | equaliserSettled _ => exact h.execEqualiserSettled
  | lockAcquired _ => exact h.execLockAcquired
  | lockLost _ => exact h.execLockLost
  | eqiUpdate _ _ _ _ _ _ _ => exact h.execEqiUpdate
  | txeqRequest _ _ => exact h.execTxeqRequest
  | trainTimeout _ => exact h.execTrainTimeout
  | signalLost _ => exact h.execSignalLost
  | laneclkLost _ => exact h.execLaneclkLost
  | portDeskew _ _ _ => exact h.execPortDeskew
  | codewordDecode _ _ => exact h.execCodewordDecode
  | lswReceive _ _ => exact h.execLswReceive
  | eiEnter _ => exact h.execEiEnter
  | eiEnterReceived _ => exact h.execEiEnterReceived
  | wakeStart _ => exact h.execWakeStart
  | wakeComplete _ => exact h.execWakeComplete
  | wakeFail _ => exact h.execWakeFail
  | rxWake _ => exact h.execRxWake
  | rxWakeFail _ => exact h.execRxWakeFail
  | patternGeneratorSet _ _ _ => exact h.execPatternGeneratorSet
  | patternCheckerSet _ _ _ => exact h.execPatternCheckerSet
  | chkLock _ => exact h.execChkLock
  | checkerReseed _ _ _ => exact h.execCheckerReseed
  | laneInjGo _ _ _ => exact h.execLaneInjGo
  | laneInjEnd _ => exact h.execLaneInjEnd
  | identReceived _ _ => exact h.execIdentReceived
  | timeProbe _ _ _ => exact h.execTimeProbe
  | timeReply _ _ _ _ => exact h.execTimeReply
  | portCheck _ => exact h.execPortCheck
  | swapWaitExpire _ => exact h.execSwapWaitExpire
  | exchangeTimeout _ => exact h.execExchangeTimeout
  | upReady _ => exact h.execUpReady
  | upReadyTimeout _ => exact h.execUpReadyTimeout
  | nbMissing _ => exact h.execNbMissing
  | linkQclr _ _ _ => exact h.execLinkQclr
  | portDisable _ _ => exact h.execPortDisable
  | portEnable _ _ => exact h.execPortEnable
  | retryReqReceived _ _ _ => exact h.execRetryReqReceived
  | retryStartReceived _ _ => exact h.execRetryStartReceived
  | reqTimeout _ => exact h.execReqTimeout
  | ackReceived _ _ => exact h.execAckReceived
  | protoErrReceived _ _ => exact h.execProtoErrReceived
  | trainSelect _ _ => exact h.execTrainSelect
  | trainComplete _ => exact h.execTrainComplete
  | headerLookup _ _ _ => exact h.execHeaderLookup
  | cellConfirm _ => exact h.execCellConfirm
  | cellStomp _ => exact h.execCellStomp
  | admissionRound _ => exact h.execAdmissionRound
  | orderPresent _ => exact h.execOrderPresent
  | orderRelease _ => exact h.execOrderRelease
  | orderTimeout _ => exact h.execOrderTimeout
  | sampleConsume _ _ _ => exact h.execSampleConsume
  | coreWmarkClr _ => exact h.execCoreWmarkClr
  | bridgeUncorr _ _ _ => exact h.execBridgeUncorr
  | partFault _ => exact h.execPartFault
  | coordWrite _ _ => exact h.execCoordWrite
  | routeActGo _ _ => exact h.execRouteActGo
  | routeActCancel _ _ => exact h.execRouteActCancel
  | drainStart => exact h.execDrainStart
  | activated => exact h.execActivated
  | parkedRepresent _ => exact h.execParkedRepresent
  | bypassDetect _ => exact h.execBypassDetect
  | bypassMessage _ => exact h.execBypassMessage
  | catContrib _ => exact h.execCatContrib
  | catPartial _ => exact h.execCatPartial
  | clusterAdmit _ => exact h.execClusterAdmit
  | accumulate _ _ => exact h.execAccumulate
  | retract _ => exact h.execRetract
  | chunkComplete _ _ => exact h.execChunkComplete
  | partialEmit _ _ => exact h.execPartialEmit
  | resultHandover _ _ => exact h.execResultHandover
  | catLaunchGo _ _ => exact h.execCatLaunchGo
  | catLaunchAbort _ _ => exact h.execCatLaunchAbort
  | launchStart _ => exact h.execLaunchStart
  | launchDone _ => exact h.execLaunchDone
  | stepTimeout _ => exact h.execStepTimeout
  | catHold _ => exact h.execCatHold
  | catResult _ => exact h.execCatResult
  | catAbort _ => exact h.execCatAbort
  | abortFrame _ => exact h.execAbortFrame
  | catFenceWrite _ _ _ => exact h.execCatFenceWrite
  | scoreboardSelect _ _ _ => exact h.execScoreboardSelect
  | fanRoundGo _ _ => exact h.execFanRoundGo
  | fanRoundAbort _ _ => exact h.execFanRoundAbort
  | roundOpen _ => exact h.execRoundOpen
  | roundClose _ => exact h.execRoundClose
  | rank _ => exact h.execRank
  | rankFallback _ => exact h.execRankFallback
  | roundDone _ => exact h.execRoundDone
  | roundTimeout _ => exact h.execRoundTimeout
  | fanDispatch _ => exact h.execFanDispatch
  | dispatchAdmit _ => exact h.execDispatchAdmit
  | fanCopy _ => exact h.execFanCopy
  | windowBoundary _ => exact h.execWindowBoundary
  | fanOutForward _ => exact h.execFanOutForward
  | fanOutCombine _ => exact h.execFanOutCombine
  | fanRetract _ => exact h.execFanRetract
  | fanNotice _ => exact h.execFanNotice
  | combineSend _ _ _ => exact h.execCombineSend
  | fanAbortMessage _ => exact h.execFanAbortMessage
  | fanAbortFrame _ => exact h.execFanAbortFrame
  | basRead _ => exact h.execBasRead
  | basWrite _ => exact h.execBasWrite
  | basMread _ => exact h.execBasMread
  | basAdd _ => exact h.execBasAdd
  | basCas _ => exact h.execBasCas
  | basinAdmit _ => exact h.execBasinAdmit
  | segmentGrant _ => exact h.execSegmentGrant
  | scrubVisit _ _ => exact h.execScrubVisit
  | platLoadStart _ => exact h.execPlatLoadStart
  | platLoadClear _ => exact h.execPlatLoadClear
  | platLoadInstall _ => exact h.execPlatLoadInstall
  | platVerify => exact h.execPlatVerify
  | platActGo _ _ => exact h.execPlatActGo
  | platActCancel _ _ => exact h.execPlatActCancel
  | platDrainStart => exact h.execPlatDrainStart
  | platActivate => exact h.execPlatActivate
  | bootRestore => exact h.execBootRestore
  | obvoRd _ _ _ _ => exact h.execObvoRd
  | obvoWr _ _ _ _ => exact h.execObvoWr
  | obvoWrm _ _ _ _ _ => exact h.execObvoWrm
  | dmaWr _ _ _ _ _ => exact h.execDmaWr
  | dmaRd _ _ _ _ _ => exact h.execDmaRd
  | beacon _ _ _ => exact h.execBeacon
  | obvoForward _ _ => exact h.execObvoForward
  | obvoPortUp _ => exact h.execObvoPortUp
  | obvoPortDown _ => exact h.execObvoPortDown
  | beaconTimeout _ => exact h.execBeaconTimeout
  | eventSend => exact h.execEventSend
  | pecBad => exact h.execPecBad
  | setEndpointId _ => exact h.execSetEndpointId
  | getEndpointId => exact h.execGetEndpointId
  | getMctpVersionSupport => exact h.execGetMctpVersionSupport
  | getMessageTypeSupport => exact h.execGetMessageTypeSupport
  | getVersion => exact h.execGetVersion
  | getCapabilities => exact h.execGetCapabilities
  | negotiateAlgorithms => exact h.execNegotiateAlgorithms
  | getDigests => exact h.execGetDigests
  | getCertificate => exact h.execGetCertificate
  | challenge => exact h.execChallenge
  | getMeasurements => exact h.execGetMeasurements
  | spdmUnsupportedRequest => exact h.execSpdmUnsupportedRequest
  | status _ _ => exact h.execStatus
  | regRead _ _ _ _ => exact h.execRegRead
  | regWrite _ _ _ _ => exact h.execRegWrite
  | capSet _ _ _ => exact h.execCapSet
  | holdoffSet _ _ => exact h.execHoldoffSet
  | holdoffClear _ _ => exact h.execHoldoffClear
  | locate _ _ _ => exact h.execLocate
  | platStart _ _ _ => exact h.execPlatStart
  | platData _ _ _ _ => exact h.execPlatData
  | platClear _ _ => exact h.execPlatClear
  | platInstall _ _ => exact h.execPlatInstall
  | recovStart _ _ _ _ => exact h.execRecovStart
  | recovData _ _ _ _ => exact h.execRecovData
  | recovRun _ _ => exact h.execRecovRun
  | colRecovStart _ _ => exact h.execColRecovStart
  | colRecovRun _ _ => exact h.execColRecovRun
  | alertResponse => exact h.execAlertResponse
  | bootRom _ _ => exact h.execBootRom
  | colReady _ => exact h.execColReady
  | colRestart _ => exact h.execColRestart
  | wdogKick _ _ => exact h.execWdogKick
  | wdogExpire => exact h.execWdogExpire
  | cfgLock _ _ => exact h.execCfgLock
  | tokenCheck _ _ => exact h.execTokenCheck
  | tokenCheckDone => exact h.execTokenCheckDone
  | tokenExpire _ => exact h.execTokenExpire
  | colPacketSend _ => exact h.execColPacketSend
  | colMessage _ => exact h.execColMessage
  | colFlashWrite _ _ => exact h.execColFlashWrite
  | avsFault _ => exact h.execAvsFault
  | avsRecover _ => exact h.execAvsRecover
  | avsStep _ _ => exact h.execAvsStep
  | capViolation400 => exact h.execCapViolation400
  | brakeStepDown => exact h.execBrakeStepDown
  | brake _ => exact h.execBrake
  | diodeRead _ _ => exact h.execDiodeRead
  | thermStepDown => exact h.execThermStepDown
  | thermTrip _ => exact h.execThermTrip
  | tripClr _ _ _ => exact h.execTripClr
  | leakMeasure _ _ => exact h.execLeakMeasure
  | leakClr _ _ => exact h.execLeakClr
  | diodeRetry _ _ => exact h.execDiodeRetry
  | pwrCapHost _ _ => exact h.execPwrCapHost
  | pwrHoldSet _ _ => exact h.execPwrHoldSet
  | pwrHoldClr _ _ => exact h.execPwrHoldClr
  | coldReset _ => exact h.execColdReset
  | resetNAssert => exact h.execResetNAssert
  | resetNRelease _ => exact h.execResetNRelease
  | dpReset _ _ => exact h.execDpReset
  | dataPathUp => exact h.execDataPathUp
  | partInitTimeout => exact h.execPartInitTimeout
  | perPortReset _ _ _ => exact h.execPerPortReset
  | railLoss => exact h.execRailLoss
  | railReturn => exact h.execRailReturn
  | stbyLoss => exact h.execStbyLoss
  | ledRefresh => exact h.execLedRefresh
  | locateHost _ _ => exact h.execLocateHost
  | cntSnap _ _ => exact h.execCntSnap
  | cntWmarkClr _ _ => exact h.execCntWmarkClr
  | cntWinWrite _ _ => exact h.execCntWinWrite
  | bwWindowEnd => exact h.execBwWindowEnd
  | cntViewWrite _ _ _ => exact h.execCntViewWrite
  | cntRead _ => exact h.execCntRead
  | witPatGo _ _ _ => exact h.execWitPatGo
  | witPatStop _ _ _ => exact h.execWitPatStop
  | patStart _ => exact h.execPatStart
  | patPresent _ => exact h.execPatPresent
  | patResume _ => exact h.execPatResume
  | witCapGo _ _ _ => exact h.execWitCapGo
  | witCapStop _ _ _ => exact h.execWitCapStop
  | capStart _ => exact h.execCapStart
  | captureWrite _ => exact h.execCaptureWrite
  | witInjGo _ _ _ => exact h.execWitInjGo
  | extest => exact h.execExtest
  | idcode => exact h.execIdcode
  | samplePreload _ => exact h.execSamplePreload
  | extestPulse => exact h.execExtestPulse
  | extestTrain => exact h.execExtestTrain
  | clamp => exact h.execClamp
  | highz => exact h.execHighz
  | bypass => exact h.execBypass
  | testLogicReset => exact h.execTestLogicReset
  | laneclkReturn _ => exact h.execLaneclkReturn
  | loaderCommit _ => exact h.execLoaderCommit
  | partInitFail _ => exact h.execPartInitFail
  | trailCmdUndefined _ _ _ => exact h.execTrailCmdUndefined
  | obvoCmdUndefined _ _ _ => exact h.execObvoCmdUndefined
  | mainRailsUp => exact h.execMainRailsUp
  | unsupportedMessageType => exact h.execUnsupportedMessageType

end
end State.Sound

/-! ### One step -/

namespace State.Sound
section
variable {W : Watch} {s : State} (h : s.Sound W.free)
include h

theorem step : Leaves W.free (step s) := by
  unfold Machine.step
  split
  · exact h
  next c rest _ =>
    have hr : State.Sound W.free { s with pending := rest } := h
    exact hr.exec

end
end State.Sound

/-! ### The statement -/

/-- The lists of a device are in order where its books are, with no loss waiting and no clock watched. -/
theorem Dev.sound_iff_listsOk {d : Dev} : d.Sound ⟨true, true, none⟩ ↔ Claim.ListsOk d :=
  ⟨fun h => ⟨h.lost rfl, h.ids rfl, h.keys rfl⟩,
    fun ⟨hl, hi, hk⟩ => ⟨fun _ => hi, fun _ => hk, fun _ => hl, nofun⟩⟩

end Sys2Proof.Machine

namespace Sys2Proof.Claim
open Sys2Proof.Machine

/-- Settles O4: every operation of the model keeps the books in order, and so does the command at the front
of the queue. -/
theorem everyStepKeepsTheLists : Obligations.EveryStepKeepsTheLists := by
  unfold Obligations.EveryStepKeepsTheLists
  intro s t hs ht
  have h : s.Sound ⟨true, true, none⟩ := Dev.sound_iff_listsOk.mpr hs
  have ht' : Leaves ⟨true, true, none⟩ (step s) := h.step (W := ⟨true, true, none⟩)
  rw [ht] at ht'
  exact Dev.sound_iff_listsOk.mp ht'

end Sys2Proof.Claim
end

section
/-! PROOFS. How the control actions of a frame are settled where few wait (R60-R65). -/

namespace Sys2Proof.Machine

/-- Levels of sources (R60). -/
theorem whoLevel_mem (w : Who) : whoLevel w = 2 ∨ whoLevel w = 3 ∨ whoLevel w = 4 ∨ whoLevel w = 5 := by
  cases w with
  | inBand p => exact .inr (.inr (.inl rfl))
  | sw q =>
    cases q with
    | trail e => exact .inl rfl
    | obvo => exact .inr (.inl rfl)
    | col c => exact .inr (.inr (.inr rfl))

/-- Actions of one source keep their order. -/
theorem rotated_of_one_index {f i : Nat} {m : List CtlAct} (h : ∀ x ∈ m, whoIndex x.who = i) : rotated f m = m := by
  have hm : m.map (fun x => whoIndex x.who) = List.replicate m.length i :=
    List.eq_replicate_iff.mpr ⟨List.length_map _, fun b hb => by
      obtain ⟨x, hx, rfl⟩ := List.mem_map.mp hb
      exact h x hx⟩
  unfold rotated
  dsimp only
  rw [hm]
  by_cases h0 : m.length = 0
  · obtain rfl := List.length_eq_zero_iff.mp h0
    simp
  · rw [List.replicate_dedup h0]
    have hr : rotate [i] f = [i] := by simp [rotate, Nat.mod_one]
    rw [show [i].insertionSort (· ≤ ·) = [i] from rfl, hr, List.flatMap_singleton]
    exact List.filter_eq_self.mpr fun x hx => by simp [h x hx]

theorem rotated_nil (f : Nat) : rotated f [] = [] := rotated_of_one_index (i := 0) nofun

/-- The actions of a level are all of one source's, or there are none. -/
theorem filter_level_of_one_level {l : List CtlAct} {n lv : Nat} (h : ∀ x ∈ l, whoLevel x.who = n) :
    l.filter (fun x => whoLevel x.who == lv) = if n = lv then l else [] := by
  split
  next hn => exact List.filter_eq_self.mpr fun x hx => by simp [h x hx, hn]
  next hn => exact List.filter_eq_nil_iff.mpr fun x hx => by simp [h x hx, hn]

theorem serveOrder_of_one_who {f : Nat} {w : Who} {l : List CtlAct} (h : ∀ x ∈ l, x.who = w) : serveOrder f l = l := by
  have hl : ∀ x ∈ l, whoLevel x.who = whoLevel w := fun x hx => by rw [h x hx]
  have hr : rotated f l = l := rotated_of_one_index fun x hx => by rw [h x hx]
  unfold serveOrder
  rcases whoLevel_mem w with hw | hw | hw | hw <;> simp [filter_level_of_one_level hl, hw, hr, rotated_nil]

theorem State.clash_of_same_who (s : State) {x y : CtlAct} (h : x.who = y.who) : s.clash x y = false := by
  simp [State.clash, h]

theorem State.settleLevel_nil (s : State) (m : Settled) : s.settleLevel m [] = m := by
  simp [State.settleLevel, groups]

theorem State.meet_of_no_clash {s : State} {m : Settled} {x : CtlAct} (h : ∀ y ∈ m.1, s.clash x y = false) :
    s.meet m x = (m.1 ++ [x], m.2) := by
  have hf : m.1.find? (fun y => s.clash x y) = none := List.find?_eq_none.mpr fun y hy => by simp [h y hy]
  simp [State.meet, hf]

theorem State.settleLevel_one (s : State) {m : Settled} {x : CtlAct} (h : ∀ y ∈ m.1, s.clash x y = false) :
    s.settleLevel m [x] = (m.1 ++ [x], m.2) := by
  have ha : m.1.any (fun y => s.clash x y) = false := List.any_eq_false.mpr fun y hy => by simp [h y hy]
  have hr : rotated s.dev.fno [x] = [x] := rotated_of_one_index (i := whoIndex x.who) (by simp)
  simp [State.settleLevel, ha, groups, grow, hr, State.meet_of_no_clash h]

/-- One that meets an action of a higher level is refused with both levels. -/
theorem State.settleLevel_of_clash (s : State) {x y : CtlAct} (h : s.clash y x = true) :
    s.settleLevel ([x], []) [y] = ([x], [(y, condWord 1 4 (whoLevel x.who * 256 + whoLevel y.who))]) := by
  simp [State.settleLevel, h, groups, State.meet]

theorem State.settleLevel_two (s : State) {x y : CtlAct} (h : x.who = y.who) : s.settleLevel ([], []) [x, y] = ([x, y], []) := by
  have c (a b : CtlAct) (ha : a.who = y.who) (hb : b.who = y.who) : s.clash a b = false := s.clash_of_same_who (ha.trans hb.symm)
  have hr {l : List CtlAct} (hl : ∀ z ∈ l, z.who = y.who) : rotated s.dev.fno l = l :=
    rotated_of_one_index (i := whoIndex y.who) fun z hz => by rw [hl z hz]
  have hg : (groups s 2 [x, y]).flatMap (rotated s.dev.fno) = [x, y] := by
    by_cases hxy : y = x
    · simp [groups, grow, hxy, hr]
    · simp [groups, grow, hxy, c y x rfl h, hr, h]
  simp [State.settleLevel, hg, State.meet, c y x rfl h]

theorem State.settleActs_of_one_level (s : State) {l : List CtlAct} {n : Nat} (hn : n = 2 ∨ n = 3 ∨ n = 4 ∨ n = 5)
    (h : ∀ x ∈ l, whoLevel x.who = n) : s.settleActs l = s.settleLevel ([], []) l := by
  unfold State.settleActs
  rcases hn with rfl | rfl | rfl | rfl <;> simp [filter_level_of_one_level h, State.settleLevel_nil]

theorem State.settleActs_one (s : State) (x : CtlAct) : s.settleActs [x] = ([x], []) := by
  rw [s.settleActs_of_one_level (whoLevel_mem x.who) (by simp), s.settleLevel_one (by simp)]
  rfl

theorem State.settleActs_two (s : State) {x y : CtlAct} (h : x.who = y.who) : s.settleActs [x, y] = ([x, y], []) := by
  rw [s.settleActs_of_one_level (whoLevel_mem y.who) (by simp [h]), s.settleLevel_two h]

theorem State.settleActs_of_clash (s : State) {x y : CtlAct} (hl : whoLevel x.who < whoLevel y.who) (h : s.clash y x = true) :
    s.settleActs [y, x] = ([x], [(y, condWord 1 4 (whoLevel x.who * 256 + whoLevel y.who))]) := by
  have h1 : s.settleLevel ([], []) [x] = ([x], []) := s.settleLevel_one (by simp)
  have hlv : whoLevel x.who = 2 ∧ whoLevel y.who = 3 ∨ whoLevel x.who = 2 ∧ whoLevel y.who = 4 ∨
      whoLevel x.who = 2 ∧ whoLevel y.who = 5 ∨ whoLevel x.who = 3 ∧ whoLevel y.who = 4 ∨
      whoLevel x.who = 3 ∧ whoLevel y.who = 5 ∨ whoLevel x.who = 4 ∧ whoLevel y.who = 5 := by
    have hx := whoLevel_mem x.who
    have hy := whoLevel_mem y.who
    omega
  unfold State.settleActs
  rcases hlv with ⟨hx, hy⟩ | ⟨hx, hy⟩ | ⟨hx, hy⟩ | ⟨hx, hy⟩ | ⟨hx, hy⟩ | ⟨hx, hy⟩ <;>
    simp [List.filter_cons, hx, hy, State.settleLevel_nil, h1, s.settleLevel_of_clash h]

/-! ### Few actions -/

theorem sixtyFour_one (x : CtlAct) : sixtyFour [x] = ([x], []) := by
  simp [sixtyFour]

theorem mergeCaps_one {x : CtlAct} (h : ∀ m v, x.op ≠ .write (ra 0xF 0xC) m v) : mergeCaps [x] = [x] := by
  unfold mergeCaps
  extract_lets cap caps last low
  have hcap : cap x = none := by
    dsimp only [cap]
    split
    next a m v ho => exact if_neg fun ha => h m v (by rw [ho, ha])
    next => rfl
  have hcaps : caps = [] := by simp [caps, hcap]
  simp [hcaps]

/-- A data-path reset alone is no per-port reset. -/
theorem Dev.resetAlone_one (d : Dev) (x : CtlAct) : d.resetAlone [x] = [x] := by
  unfold Dev.resetAlone
  extract_lets whole one
  have h1 : whole x = true → one x = x := by
    dsimp only [one, whole]
    intro hw
    split at hw
    next q a m v _ ho =>
      obtain ⟨ha, -⟩ := Bool.and_eq_true_iff.mp hw
      rw [beq_iff_eq] at ha
      rw [ho, ha]
      exact if_neg (by decide)
    next => cases hw
  split
  next hw => rw [List.map_singleton, h1 (by simpa using hw)]
  next => rfl

theorem State.actTick_one {s : State} {x : CtlAct} (ha : s.dev.obvo.acts = [x]) (hc : ∀ m v, x.op ≠ .write (ra 0xF 0xC) m v)
    (hw : (onStage x && s.dev.stageDue) = false) :
    s.actTick = ((s.onDev (fun d => d.onObvo (fun o => { o with acts := [] }))).applyAct x).onDev
      (fun d => { d.answerWrites with level1 := [] }) := by
  unfold State.actTick
  rw [ha, s.settleActs_one]
  dsimp only
  rw [serveOrder_of_one_who (w := x.who) (by simp), sixtyFour_one]
  dsimp only
  rw [mergeCaps_one hc, Dev.resetAlone_one]
  simp only [List.filter_cons, hw]
  simp [Dev.deferActs, State.onDev, Dev.onObvo]

theorem State.actTick_none {s : State} (ha : s.dev.obvo.acts = []) :
    s.actTick = (s.onDev (fun d => d.onObvo (fun o => { o with acts := [] }))).onDev
      (fun d => { d.answerWrites with level1 := [] }) := by
  unfold State.actTick
  rw [ha]
  simp [State.settleActs, State.settleLevel_nil, serveOrder, rotated_nil, sixtyFour, mergeCaps, Dev.resetAlone,
    Dev.deferActs, State.onDev, Dev.onObvo]

end Sys2Proof.Machine
end

section
/-! PROOFS. What follows the control actions of a boundary leaves GLB_SCRATCH alone (R12). -/

namespace Sys2Proof.Machine

/-- GLB_SCRATCH holds the word. -/
def Dev.Scratch (v : Word) (d : Dev) : Prop := d.rd (ra 0 0x38) = v

namespace Dev.Scratch
section
variable {v : Word} {d e : Dev} (h : d.Scratch v)
include h

theorem keep (k : e.regs = d.regs) : e.Scratch v := by
  unfold Dev.Scratch Dev.rd
  rw [k]
  exact h

theorem ite {c : Prop} [Decidable c] (he : e.Scratch v) : (if c then d else e).Scratch v := by
  split
  · exact h
  · exact he

theorem foldl {α : Type} {l : List α} {g : Dev → α → Dev} (hg : ∀ x a, x.Scratch v → (g x a).Scratch v) :
    (l.foldl g d).Scratch v :=
  List.foldlRecOn l g h fun x hx a _ => hg x a hx

/-! ### Registers beyond it -/

theorem wr {a : Nat} {w : Word} (ha : 64 ≤ a := by simp [ra]) : (d.wr a w).Scratch v := by
  unfold Dev.Scratch
  rw [Dev.rd_wr_ne _ _ (by simp only [ra]; omega)]
  exact h

theorem addSat {a n : Nat} (ha : 64 ≤ a := by simp [ra]) : (d.addSat a n).Scratch v := h.wr ha

theorem add64 {a n : Nat} (ha : 64 ≤ a := by simp [ra]) : (d.add64 a n).Scratch v := (h.wr ha).wr (Nat.le_add_right_of_le ha)

theorem setBit {a i : Nat} {b : Bool} (ha : 64 ≤ a := by simp [ra]) : (d.setBit a i b).Scratch v := h.wr ha

theorem raiseAt {b c det i : Nat} : (d.raiseAt b c det i).Scratch v := by
  have hne : ra 0 0x38 ≠ condAddr b i ∧ ra 0 0x38 ≠ condAddr b i + 4 := by
    unfold condAddr
    split_ifs <;> simp only [ra, rp, rl] <;> omega
  unfold Dev.Scratch
  rw [d.raiseAt_rd b c det i hne.1 hne.2]
  exact h

theorem raise {b c det : Nat} : (d.raise b c det).Scratch v := h.raiseAt

theorem raiseOnce {mask : Word} {b c det : Nat} : (d.raiseOnce mask b c det).Scratch v := h.ite h.raise

theorem sendSide {p : Side} {o : Out} : (d.sendSide p o).Scratch v := .ite (h.keep (by rfl)) h.addSat

/-! ### The end of a boundary -/

theorem actDone {x : CtlAct} {w : Option Word} {data : List Byte} : (d.actDone x w data).Scratch v := h.keep (by rfl)

theorem reply {c : Cmd} {r : Resp} : (d.reply c r).Scratch v := by
  unfold Dev.reply
  split
  · refine Dev.Scratch.foldl ?_ fun x _ hx => hx.sendSide
    exact h.keep (by rfl)
  · exact h.keep (by rfl)

theorem answerWrites : d.answerWrites.Scratch v := by
  unfold Dev.answerWrites
  refine Dev.Scratch.foldl ?_ fun x _ hx => hx.reply
  exact h.keep (by rfl)

theorem thrTick : d.thrTick.Scratch v := by
  unfold Dev.thrTick
  split
  · exact h.wr
  · exact h.foldl fun x _ hx => .ite hx.setBit.raise (.ite hx.setBit hx)

theorem onPwr {f : Pwr → Pwr} : (d.onPwr f).Scratch v := h.keep (by rfl)

theorem planTick : d.planTick.Scratch v := by
  have hp : ∀ f, (d.onPlat f).Scratch v := fun f => h.keep (by rfl)
  exact h.ite (h.ite (hp _).raise)

theorem excessEnd : d.excessEnd.Scratch v := by
  unfold Dev.excessEnd
  split
  · exact h
  · exact .ite h.onPwr.raise.wr.addSat h.onPwr

theorem powerTick {pEst : Nat} : (d.powerTick pEst).Scratch v := by
  unfold Dev.powerTick
  extract_lets l d1 d2 allow exceeds big z y d3
  have h1 : d1.Scratch v := h.ite h.onPwr.raise
  have h2 : d2.Scratch v := h1.onPwr
  have hz : z.Scratch v := h2.onPwr
  have hy : y.Scratch v := by
    dsimp only [y]
    split
    · exact h2
    · exact .ite hz.raise hz
  have h3 : d3.Scratch v := .ite hy.onPwr h2.excessEnd.onPwr
  exact h3.keep (by rfl)

theorem tapTick : d.tapTick.Scratch v := by
  unfold Dev.tapTick
  exact h.foldl fun x _ hx => hx.ite (hx.keep (by rfl))

theorem afterActs {f : FrameIn} : (d.afterActs f).Scratch v := h.thrTick.planTick.powerTick.tapTick

/-! ### Causes of aborts -/

theorem countPkt {c : Nat} {ing : Option Nat} : (d.countPkt c ing).Scratch v := by
  unfold Dev.countPkt
  split
  · exact h.add64 (by simp only [rp]; omega)
  · exact h.add64

theorem countDrop {p c k n m : Nat} : (d.countDrop p c k n m).Scratch v :=
  .ite ((h.add64 (by simp only [dropAddr, rp]; omega)).add64 (by simp only [dropAddr, rp]; omega)) h

theorem settleDrop {ing : Option Nat} {hd : Header} {dr : Drop} : (d.settleDrop ing hd dr).Scratch v := by
  unfold Dev.settleDrop
  split
  · exact .ite h.countPkt.raise h.countPkt.raiseOnce
  · refine Dev.Scratch.raiseOnce (h.add64 ?_)
    split <;> simp only [ra, rp] <;> omega
  · exact h.countDrop.raiseOnce
  · exact h.countDrop.raiseOnce
  · exact h
  · exact h.countDrop

theorem addPkt {k : Pkt} : (d.addPkt k).Scratch v := h.keep (by rfl)

theorem originate {pk : Packet} {dir cin : Option Nat} {col : Bool} : (d.originate pk dir cin col).Scratch v := by
  unfold Dev.originate
  extract_lets hd e
  split
  · exact h.settleDrop
  · split
    extract_lets mc d1
    have h1 : d1.Scratch v := h.foldl fun x _ hx => hx.settleDrop
    exact .ite h.settleDrop (.ite h1 h1.addPkt)

theorem adopt {g af : Nat} {w : Word} {src : Option Nat} {foreign : Bool} : (d.adopt g af w src foreign).Scratch v := by
  unfold Dev.adopt
  extract_lets l lower e d1 d2 dirs
  have h1 : d1.Scratch v := h.keep (by rfl)
  have h2 : d2.Scratch v := .ite h1.raise h1
  exact h.ite (h2.foldl fun x _ hx => hx.originate)

theorem cause {g : Nat} {w : Word} {loss : Bool} : (d.cause g w loss).Scratch v := .ite h.adopt h

theorem launchCheck {g : Nat} : (d.launchCheck g).Scratch v := by
  unfold Dev.launchCheck
  extract_lets l e say dead dirs fen d1 d2
  have hs : ∀ {y : Dev} {c : Nat} {ps : List Nat}, y.Scratch v → (ps.foldl (say c) y).Scratch v :=
    fun hy => hy.foldl fun x _ hx => hx.ite hx.raise.cause
  exact h.ite (hs (hs (hs h)))

/-! ### Ranked copies released -/

theorem stackTake {us : List Nat} {cur : Bool} (hd : d.stackTake us cur = some e) : e.Scratch v := by
  refine List.foldlRecOn us _ (motive := fun m : Option Dev => ∀ x ∈ m, x.Scratch v) ?_ (fun m hm u _ => ?_) e hd
  · intro x hx
    obtain rfl := Option.some.inj hx
    exact h
  · intro x hx
    cases m with
    | none => nomatch hx
    | some y =>
      obtain ⟨-, hx⟩ := Option.ite_none_left_eq_some.mp hx
      exact Option.some.inj hx ▸ ((hm y rfl).keep (by rfl))

theorem drawUnits {a n : Nat} : (d.drawUnits a n).Scratch v := by
  unfold Dev.drawUnits
  split
  next hx => exact h.stackTake hx
  next => exact h.keep (by rfl)

theorem copyOut {r : Nat} {k : Copy} : (d.copyOut r k).Scratch v := by
  unfold Dev.copyOut
  cases k.hold with
  | some id => exact h.keep (by rfl)
  | none => exact h.keep (by rfl)

theorem rankRelease {r : Nat} : (d.rankRelease r).Scratch v := by
  unfold Dev.rankRelease
  extract_lets go res
  refine h.ite ?_
  refine List.foldlRecOn go _ (motive := fun m : Dev × List (Nat × Nat) => m.1.Scratch v) h fun m hm c _ => ?_
  dsimp only
  split
  · exact hm
  · have hr : ∀ f, (m.1.onRnd r f).Scratch v := fun f => hm.keep (by rfl)
    exact ((hr _).drawUnits).copyOut

theorem checkTick : d.checkTick.Scratch v := by
  unfold Dev.checkTick
  extract_lets d1
  have h1 : d1.Scratch v := h.foldl fun x _ hx => hx.launchCheck
  exact h1.foldl fun x _ hx => hx.rankRelease

end
end Dev.Scratch

end Sys2Proof.Machine
end

section
/-! PROOFS. A boundary with little to do: the clock runs on by one frame, and one write of GLB_SCRATCH takes effect (R51, R55). -/

namespace Sys2Proof.Machine
open Sys2Proof.Claim

/-- The clock of a frame, with inputs waiting and no action, read or data-path reset. -/
def Calm.at (f : Frm) (i : List Instr) : Calm := { frm := f, inputs := i, acts := [], reads := [], dpDue := false }

/-- The watch of a clock alone. -/
def Watch.clock (f : Frm) (i : List Instr) : Watch := ⟨false, false, some (Calm.at f i)⟩

theorem Dev.sound_clock_iff {d : Dev} {f : Frm} {i : List Instr} : d.Sound (.clock f i) ↔
    d.frm = f ∧ d.inputs = i ∧ d.obvo.acts = [] ∧ d.obvo.reads = [] ∧ d.dpDue = false := by
  have hc : d.books.calm = Calm.at f i ↔
      d.frm = f ∧ d.inputs = i ∧ d.obvo.acts = [] ∧ d.obvo.reads = [] ∧ d.dpDue = false := by
    simp [Dev.books, Calm.at]
  rw [← hc]
  exact ⟨fun h => h.calm _ rfl, fun h => ⟨nofun, nofun, nofun, fun c hc => h.trans (Option.some.inj hc)⟩⟩

/-- Beside the device nothing changed, and its clock stands so. -/
structure Clocked (s : State) (f : Frm) (i : List Instr) (t : State) : Prop where
  kept : Kept s t
  sound : t.Sound (.clock f i)

namespace Clocked
variable {s t : State} {f : Frm} {i : List Instr}

theorem onDev (h : Clocked s f i t) {g : Dev → Dev} {f' : Frm} {i' : List Instr}
    (hg : ∀ d : Dev, d.Sound (.clock f i) → (g d).Sound (.clock f' i')) : Clocked s f' i' (t.onDev g) :=
  ⟨h.kept, hg _ h.sound⟩

theorem dev (h : Clocked s f i t) : t.dev.frm = f ∧ t.dev.inputs = i ∧ t.dev.obvo.acts = [] ∧
    t.dev.obvo.reads = [] ∧ t.dev.dpDue = false := Dev.sound_clock_iff.mp h.sound

theorem endFrame (h : Clocked s f i t) (hh : t.dev.obvo.held = []) : Clocked s f i t.endFrame := by
  have h1 := h.onDev fun d hd => hd.qclrAll.holdsMoved.catTick.fanTick.sendTick.stallTick.depthTick.cntTick.lockTick.condTick
  obtain ⟨-, -, -, hr, -⟩ := h1.dev
  unfold State.endFrame State.readTick
  rw [State.runHeld_of_none hh, hr]
  refine h1.onDev fun d hd => ?_
  obtain ⟨hf, hi, ha, -, hp⟩ := Dev.sound_clock_iff.mp hd
  exact Dev.sound_clock_iff.mpr ⟨hf, hi, ha, rfl, hp⟩

theorem newFrame (h : Clocked s f i t) {fi : FrameIn} : Clocked s f.next i (t.onDev fun d => d.newFrame fi) := by
  refine h.onDev fun d hd => ?_
  have h1 : (d.correctTick fi).beginFrame.Sound (.clock f.next i) := by
    obtain ⟨hf, hi, ha, hr, hp⟩ := Dev.sound_clock_iff.mp (hd.correctTick (f := fi))
    exact Dev.sound_clock_iff.mpr ⟨congrArg Frm.next hf, hi, ha, hr, hp⟩
  exact h1.passTick.onPwr.poolTick.foldl fun _ _ hx => hx.budTick

theorem dpTick (h : Clocked s f i t) : Clocked s f i t.dpTick := by
  obtain ⟨-, -, -, -, hp⟩ := h.dev
  unfold State.dpTick
  rw [hp]
  exact h

/-- What a boundary does before it samples. -/
theorem opened (h : Clocked s f i s) (hh : s.dev.obvo.held = []) {fi : FrameIn} :
    Clocked s f.next i (((s.endFrame.onDev fun d => d.newFrame fi).dpTick).onDev Dev.eventTick) :=
  ((h.endFrame hh).newFrame.dpTick).onDev fun _ hd => hd.eventTick

/-- The inputs are taken off the list before they are sampled. -/
theorem emptied (h : Clocked s f i t) : Clocked s f [] (t.onDev fun d => { d with inputs := [] }) := by
  refine h.onDev fun d hd => ?_
  obtain ⟨hf, -, ha, hr, hp⟩ := Dev.sound_clock_iff.mp hd
  exact Dev.sound_clock_iff.mpr ⟨hf, rfl, ha, hr, hp⟩

theorem closed (h : Clocked s f i t) {fi : FrameIn} : Clocked s f i
    ((t.onDev fun d => { d.answerWrites with level1 := [] }).onDev fun d => (d.afterActs fi).checkTick) := by
  refine (h.onDev fun d hd => ?_).onDev fun _ hd => hd.afterActs.checkTick
  exact hd.answerWrites.keep (by rfl)

end Clocked

/-- With no input waiting and nothing held the clock runs on by one frame. -/
theorem State.boundary_clocked {s : State} {f : FrameIn} (h : Clocked s s.dev.frm [] s) (hh : s.dev.obvo.held = []) :
    Clocked s s.dev.frm.next [] (s.boundary f) := by
  have h2 := h.opened hh (fi := f)
  obtain ⟨-, hi, -, -, -⟩ := h2.dev
  have h3 := h2.emptied
  obtain ⟨-, -, ha, -, -⟩ := h3.dev
  unfold State.boundary State.sampleInputs
  dsimp only
  rw [hi, List.foldl_nil, State.actTick_none ha]
  refine Clocked.closed ?_
  refine h3.onDev fun d hd => ?_
  obtain ⟨hf, hi, -, hr, hp⟩ := Dev.sound_clock_iff.mp hd
  exact Dev.sound_clock_iff.mpr ⟨hf, hi, rfl, hr, hp⟩

/-! ### One write of GLB_SCRATCH -/

/-- The write as the action it is sampled as. -/
def scratchAct (v : Word) (cmd : Nat) : CtlAct :=
  { who := .sw .obvo, op := .write (ra 0 0x38) fullMask v, cmd := cmd, idx := 0 }

theorem State.takeInput_scratch (s : State) (v : Word) :
    s.takeInput (.registerWrite .obvo (BitVec.ofNat 32 (ra 0 0x38)) v) =
      s.onDev (fun d => d.addAct (.sw .obvo) (.write (ra 0 0x38) fullMask v)) := rfl

theorem Dev.plainWrite_scratch (d : Dev) (v : Word) : d.plainWrite (ra 0 0x38) v = d.wr (ra 0 0x38) v := by
  have hrw : regRw (ra 0 0x38) = BitVec.allOnes 32 := by decide
  rw [Dev.plainWrite_eq_of_no_w1c d v (by decide), hrw, BitVec.not_allOnes, BitVec.and_zero, BitVec.zero_or,
    BitVec.and_allOnes]

/-- The action writes the register and nothing else of the device, and its command notes it. -/
theorem State.applyAct_scratch (s : State) (v : Word) (cmd : Nat) : ∃ w data,
    s.applyAct (scratchAct v cmd) = s.onDev (fun d => (d.wr (ra 0 0x38) v).actDone (scratchAct v cmd) w data) := by
  have hr : s.dev.writeRefusal .obvo (ra 0 0x38) = none := by
    simp [Dev.writeRefusal, isCol, s.dev.dieRefusal_of_blk_le_one (a := ra 0 0x38) (by decide)]
  have hw : (s.runOp (scratchAct v cmd)).2 = s.onDev (fun d => d.wr (ra 0 0x38) v) := by
    rw [scratchAct, State.runOp_write, State.regWrite_of_unrefused v hr (by decide) (by decide) (by decide), State.writeAt_scratch]
    exact congrArg s.onDev (funext fun d => d.plainWrite_scratch v)
  unfold State.applyAct
  dsimp only
  rw [hw]
  exact ⟨_, _, rfl⟩

/-- The device once the write has taken effect, before its command is answered. -/
def Dev.scratched (d : Dev) (v : Word) (w : Option Word) (data : List Byte) : Dev :=
  ((d.onObvo (fun o => { o with acts := [], nextCmd := o.nextCmd + 1 })).wr (ra 0 0x38) v).actDone
    (scratchAct v d.obvo.nextCmd) w data

theorem State.actTick_scratch {s : State} (ha : s.dev.obvo.acts = []) (v : Word) : ∃ w data,
    (s.onDev (fun d => d.addAct (.sw .obvo) (.write (ra 0 0x38) fullMask v))).actTick =
      (s.onDev (fun d => d.scratched v w data)).onDev (fun d => { d.answerWrites with level1 := [] }) := by
  have ha1 : (s.onDev (fun d => d.addAct (.sw .obvo) (.write (ra 0 0x38) fullMask v))).dev.obvo.acts =
      [scratchAct v s.dev.obvo.nextCmd] := by
    simp [Dev.addAct, Dev.onObvo, ha, scratchAct]
  have hc : ∀ m w, (scratchAct v s.dev.obvo.nextCmd).op ≠ .write (ra 0xF 0xC) m w := by
    simp [scratchAct, ra]
  rw [State.actTick_one ha1 hc rfl]
  obtain ⟨w, data, hw⟩ := State.applyAct_scratch ((s.onDev (fun d => d.addAct (.sw .obvo) (.write (ra 0 0x38) fullMask v))).onDev
    (fun d => d.onObvo (fun o => { o with acts := [] }))) v s.dev.obvo.nextCmd
  rw [hw]
  exact ⟨w, data, rfl⟩

theorem Clocked.scratched {s t : State} {f : Frm} {i : List Instr} (h : Clocked s f i t) {v : Word} {w : Option Word}
    {data : List Byte} : Clocked s f i (t.onDev (fun d => d.scratched v w data)) := by
  refine h.onDev fun d hd => ?_
  obtain ⟨hf, hi, -, hr, hp⟩ := Dev.sound_clock_iff.mp hd
  exact Dev.sound_clock_iff.mpr ⟨hf, hi, rfl, hr, hp⟩

/-- With one write of GLB_SCRATCH waiting and nothing held, the register holds the word at the end. -/
theorem State.boundary_scratch {s : State} {f : FrameIn} {v : Word} (hh : s.dev.obvo.held = [])
    (h : Clocked s s.dev.frm [.registerWrite .obvo (BitVec.ofNat 32 (ra 0 0x38)) v] s) :
    Clocked s s.dev.frm.next [] (s.boundary f) ∧ (s.boundary f).dev.Scratch v := by
  have h2 := h.opened hh (fi := f)
  obtain ⟨-, hi, -, -, -⟩ := h2.dev
  have h3 := h2.emptied
  obtain ⟨-, -, ha, -, -⟩ := h3.dev
  unfold State.boundary State.sampleInputs
  dsimp only
  rw [hi, List.foldl_cons, List.foldl_nil, State.takeInput_scratch]
  obtain ⟨w, data, ht⟩ := State.actTick_scratch ha v
  rw [ht]
  refine ⟨h3.scratched.closed, ?_⟩
  have hs : ∀ d : Dev, (d.scratched v w data).Scratch v := fun d => Dev.rd_wr_self _ _ _
  have hl : ∀ {d : Dev}, d.Scratch v → ({ d with level1 := [] } : Dev).Scratch v := fun hd => hd.keep (by rfl)
  exact (hl (hs _).answerWrites).afterActs.checkTick

/-- A quiet state, but for the inputs that wait: its clock stands, and nothing is held. -/
theorem Clocked.of_quiet {s : State} {i : List Instr} (h : Quiet { s with dev := { s.dev with inputs := [] } })
    (hi : s.dev.inputs = i) : Clocked s s.dev.frm i s ∧ s.dev.obvo.held = [] := by
  obtain ⟨-, ha, hh, hr, hp, -⟩ := h
  exact ⟨⟨⟨rfl, rfl, rfl⟩, Dev.sound_clock_iff.mpr ⟨rfl, hi, ha, hr, hp⟩⟩, hh⟩

end Sys2Proof.Machine

namespace Sys2Proof.Claim
open Sys2Proof.Machine

/-- Settles O9: the watch of the clock carries the frame through a boundary, and few actions settle by their levels. -/
theorem frameBoundaryBeginsFrame : Obligations.FrameBoundaryBeginsFrame := by
  unfold Obligations.FrameBoundaryBeginsFrame
  refine ⟨fun s f hq => ?_, fun s f v hq hi => ?_, fun s f => ⟨_, rfl, rfl⟩, fun s => rfl,
    fun s x ha hc hw => State.actTick_one ha hc hw, fun s x y hl hc => s.settleActs_of_clash hl hc, fun s x y h => ?_⟩
  · obtain ⟨hc, hh⟩ := Clocked.of_quiet (s := s) ⟨rfl, hq.2⟩ hq.1
    have hb := State.boundary_clocked hc hh (f := f)
    obtain ⟨hf, -, -, -, -⟩ := hb.dev
    refine ⟨_, rfl, hb.kept, ?_⟩
    rw [hf]
    exact ⟨rfl, rfl, rfl, rfl, rfl, rfl⟩
  · obtain ⟨hc, hh⟩ := Clocked.of_quiet hq hi
    obtain ⟨hb, hv⟩ := State.boundary_scratch hh hc (f := f)
    obtain ⟨-, hin, ha, -, -⟩ := hb.dev
    exact ⟨_, rfl, hv, ha, hin⟩
  · exact ⟨s.clash_of_same_who h, s.settleActs_two h, serveOrder_of_one_who (w := y.who) (by simp [h])⟩

end Sys2Proof.Claim
end

section
/-! PROOFS. Lanes that train: EQUALISER_SETTLED, LOCK_ACQUIRED, LOCK_LOST, SIGNAL_LOST and TRAIN_TIMEOUT, and a lane clock that stops
(R91, R92, R98, R99, R102, R538). -/

namespace Sys2Proof.Machine

/-! ## A LANE condition raised with a change of its lane (R98, R109, R110) -/

/-- Condition `c` of lane `l` is raised and the lane becomes `y`; ports, other lanes and registers beyond the condition's stay. -/
structure Dev.LaneRaised (d e : Dev) (c l : Nat) (y : Lane) : Prop where
  words : e.words = d.words ++ [condWord 2 c l]
  self : e.lane l = y
  others : ∀ m, m ≠ l → e.lane m = d.lane m
  ports : e.ports = d.ports
  clocks : e.clkDead = d.clkDead
  regs : ∀ a, a ≠ condAddr 2 l → a ≠ condAddr 2 l + 4 → e.rd a = d.rd a
  out : e.out = d.out

theorem Dev.laneRaised_raiseAt (d : Dev) (c l : Nat) : d.LaneRaised (d.raiseAt 2 c l l) c l (d.lane l) where
  words := by simp
  self := by simp
  others m _ := by simp
  ports := by simp
  clocks := by simp
  regs _ h0 h4 := d.raiseAt_rd 2 c l l h0 h4
  out := by simp

theorem Dev.LaneRaised.setLane {d e : Dev} {c l : Nat} {x : Lane} (h : d.LaneRaised e c l x) (y : Lane) :
    d.LaneRaised (e.setLane l y) c l y :=
  { h with self := Dev.lane_setLane_self .., others := fun m hm => (Dev.lane_setLane_ne _ _ hm).trans (h.others m hm) }

theorem Dev.LaneRaised.word_mem {d e : Dev} {c l : Nat} {y : Lane} (h : d.LaneRaised e c l y) : condWord 2 c l ∈ e.words := by
  simp [h.words]

/-- The lane may change before the word is raised. -/
theorem Dev.OnlyLane.raiseAt {d e : Dev} {l : Nat} (h : d.OnlyLane e l) (c : Nat) : d.LaneRaised (e.raiseAt 2 c l l) c l (e.lane l) := by
  obtain ⟨he, hl⟩ := h
  have hr := e.laneRaised_raiseAt c l
  exact {
    words := by rw [hr.words, he]
    self := hr.self
    others := fun m hm => (hr.others m hm).trans (hl m hm)
    ports := by rw [hr.ports, he]
    clocks := by rw [hr.clocks, he]
    regs := fun a h0 h4 => (hr.regs a h0 h4).trans (Dev.rd_congr (by rw [he]) a)
    out := by rw [hr.out, he] }

/-! ## A lane enters ADAPT (R95, R98) -/

/-- A lane that carries no port enters ADAPT with the signal it has, and nothing else changes. -/
theorem Dev.toAdapt_of_not_carries {d : Dev} {l : Nat} (h : carries (d.lane l).st = false) :
    ∃ y, d.toAdapt l = d.setLane l y ∧ y.st = .adapt ∧ y.sig = (d.lane l).sig := by
  have hserv : (d.lane l).st ≠ .service := fun hs => by simp [carries, hs] at h
  have hquit : d.quitService l = d := if_pos hserv
  have hto := Dev.toAdapt.eq_1 d l
  rw [hquit, Dev.onLane_eq] at hto
  exact ⟨_, hto, rfl, rfl⟩

theorem Dev.moveLane_adapt_of_not_carries {d : Dev} {l : Nat} (h : carries (d.lane l).st = false) : d.moveLane l .adapt = d.toAdapt l := by
  simp [Dev.moveLane, h]

/-! ## Signal lost (R99, R538) -/

/-- The lane trains or is READY: what it loses takes no port down (R98). -/
def Lane.trains (x : Lane) : Prop := x.st = .adapt ∨ x.st = .hunt ∨ x.st = .tune ∨ x.st = .ready

theorem Lane.trains_iff {x : Lane} : x.trains ↔ x.st ∈ [LaneSt.adapt, .hunt, .tune, .ready] := by simp [Lane.trains]

theorem Lane.trains.not_carries {x : Lane} (h : x.trains) : carries x.st = false := by
  rcases h with h | h | h | h <;> rw [h] <;> rfl

theorem Lane.trains.not_rests {x : Lane} (h : x.trains) : x.st ∉ [LaneSt.off, .test, .fault] := by
  rcases h with h | h | h | h <;> rw [h] <;> decide

/-- A lane that carries no port trains, or is out of use. -/
theorem Lane.trains_of_not_carries {x : Lane} (hc : carries x.st = false) (hr : x.st ∉ [LaneSt.off, .test, .fault]) : x.trains := by
  unfold Lane.trains
  revert hc hr
  cases x.st <;> decide

theorem Dev.loseSignal_of_deaf {d : Dev} {l : Nat} (h : (d.lane l).st ∈ [LaneSt.off, .test, .fault] ∨ (d.lane l).rxEi = true) :
    d.loseSignal l = d := by
  refine if_pos ?_
  rcases h with h | h
  · rw [List.contains_iff_mem.2 h]; rfl
  · rw [h, Bool.or_true]

/-- LANE 02h is raised on a lane that has no signal. -/
def Dev.signalGone (d : Dev) (l : Nat) : Dev := (d.raiseAt 2 2 l l).onLane l (fun y => { y with sig := false })

theorem Dev.loseSignal_of_active {d : Dev} {l : Nat} (hr : (d.lane l).st ∉ [LaneSt.off, .test, .fault]) (hei : (d.lane l).rxEi = false) :
    d.loseSignal l = (d.signalGone l).moveLane l .adapt :=
  if_neg (by rw [hei, Bool.or_false, List.contains_iff_mem]; exact hr)

theorem Dev.laneRaised_signalGone (d : Dev) (l : Nat) : d.LaneRaised (d.signalGone l) 2 l { d.lane l with sig := false } := by
  have h := (d.laneRaised_raiseAt 2 l).setLane { (d.raiseAt 2 2 l l).lane l with sig := false }
  rw [Dev.raiseAt_lane] at h
  rwa [Dev.signalGone, Dev.onLane_eq, Dev.raiseAt_lane]

/-- A lane that trains and hears nothing more enters ADAPT without signal, and LANE 02h is raised. -/
theorem Dev.loseSignal_of_trains {d : Dev} {l : Nat} (h : (d.lane l).trains) (hei : (d.lane l).rxEi = false) :
    ∃ y, d.LaneRaised (d.loseSignal l) 2 l y ∧ y.st = .adapt ∧ y.sig = false := by
  have hgone := d.laneRaised_signalGone l
  have hc : carries ((d.signalGone l).lane l).st = false := by rw [hgone.self]; exact h.not_carries
  obtain ⟨y, hy, hst, hsig⟩ := Dev.toAdapt_of_not_carries hc
  refine ⟨y, ?_, hst, by rw [hsig, hgone.self]⟩
  rw [Dev.loseSignal_of_active h.not_rests hei, Dev.moveLane_adapt_of_not_carries hc, hy]
  exact hgone.setLane y

/-! ## Lock (R91, R92) -/

theorem Dev.gainLock_of_hunt {d : Dev} {l : Nat} (hst : (d.lane l).st = .hunt) (hei : (d.lane l).rxEi = false) :
    d.gainLock l = d.setLane l { d.lane l with st := .tune, run := 0, eqiNew := true, headers := (0, []) } := by
  have hfar : d.farEnd l = false := by simp [Dev.farEnd, hst]
  simp [Dev.gainLock, hst, hei, hfar]

theorem Dev.gainLock_of_idle {d : Dev} {l : Nat} (hei : (d.lane l).rxEi = true) :
    d.gainLock l = d.setLane l { d.lane l with rxLock := true, headers := (0, []) } := if_pos (.inl hei)

/-- A lane with lock that carries no port loses it: the loss is counted, LANE 01h is raised, and the lane hunts. -/
theorem Dev.loseLock_of_locked {d : Dev} {l : Nat} (hst : (d.lane l).st = .tune ∨ (d.lane l).st = .ready) (hei : (d.lane l).rxEi = false) :
    ∃ y, (d.addSat (rl 0x4C l) 1).LaneRaised (d.loseLock l) 1 l y ∧ y.st = .hunt := by
  have hc : carries (d.lane l).st = false := by rcases hst with h | h <;> rw [h] <;> rfl
  have hraised := (d.addSat (rl 0x4C l) 1).laneRaised_raiseAt 1 l
  have hlose : d.loseLock l = ((d.addSat (rl 0x4C l) 1).raiseAt 2 1 l l).moveLane l .hunt := by
    rcases hst with h | h <;> simp [Dev.loseLock, h, hei]
  generalize (d.addSat (rl 0x4C l) 1).raiseAt 2 1 l l = e at *
  obtain ⟨y, hy, hyst, -⟩ := e.moveLane_of_not_carries .hunt (by rw [hraised.self]; exact hc)
  exact ⟨y, by rw [hlose, hy]; exact hraised.setLane y, hyst⟩

/-! ## A lane die without its clock (R538) -/

/-- What the lanes `ls`, none of which carries a port, lose with their signal: those that trained outside electrical idle are in ADAPT, those
out of use stay, and so does every other lane. -/
structure Dev.SignalsLost (d e : Dev) (ls : List Nat) : Prop where
  ports : e.ports = d.ports
  clocks : e.clkDead = d.clkDead
  words : d.words ⊆ e.words
  others : ∀ l, l ∉ ls → e.lane l = d.lane l
  rest : ∀ l ∈ ls, (d.lane l).st ∈ [LaneSt.off, .test, .fault] → e.lane l = d.lane l
  adapt : ∀ l ∈ ls, (d.lane l).trains → (d.lane l).rxEi = false →
    (e.lane l).st = .adapt ∧ (e.lane l).sig = false ∧ condWord 2 2 l ∈ e.words

theorem Dev.signalsLost_nil (d : Dev) : d.SignalsLost d [] where
  ports := rfl
  clocks := rfl
  words := List.Subset.refl _
  others _ _ := rfl
  rest _ h := absurd h List.not_mem_nil
  adapt _ h := absurd h List.not_mem_nil

theorem Dev.signalsLost_one {d : Dev} {l : Nat} (hc : carries (d.lane l).st = false) : d.SignalsLost (d.loseSignal l) [l] := by
  by_cases hdeaf : (d.lane l).st ∈ [LaneSt.off, .test, .fault] ∨ (d.lane l).rxEi = true
  · rw [Dev.loseSignal_of_deaf hdeaf]
    refine ⟨rfl, rfl, List.Subset.refl _, fun _ _ => rfl, fun _ _ _ => rfl, fun m hm ht hei => ?_⟩
    obtain rfl := List.mem_singleton.1 hm
    rcases hdeaf with h | h
    · exact absurd h ht.not_rests
    · rw [h] at hei; cases hei
  · obtain ⟨hrest, hei⟩ := not_or.1 hdeaf
    obtain ⟨y, hy, hst, hsig⟩ := Dev.loseSignal_of_trains (Lane.trains_of_not_carries hc hrest) (by simpa using hei)
    refine ⟨hy.ports, hy.clocks, by simp [hy.words], fun m hm => hy.others m (by simpa using hm), fun m hm h => ?_, fun m hm _ _ => ?_⟩
    · obtain rfl := List.mem_singleton.1 hm
      exact absurd h hrest
    · obtain rfl := List.mem_singleton.1 hm
      exact ⟨by rw [hy.self, hst], by rw [hy.self, hsig], hy.word_mem⟩

theorem Dev.SignalsLost.cons {d e f : Dev} {l : Nat} {ls : List Nat} (h : d.SignalsLost e [l]) (hl : l ∉ ls) (k : e.SignalsLost f ls) :
    d.SignalsLost f (l :: ls) := by
  have hself : f.lane l = e.lane l := k.others l hl
  have hother {m : Nat} (hm : m ∈ ls) : e.lane m = d.lane m := h.others m fun hml => hl (List.mem_singleton.1 hml ▸ hm)
  refine ⟨k.ports.trans h.ports, k.clocks.trans h.clocks, List.Subset.trans h.words k.words, fun m hm => ?_, fun m hm hrest => ?_, fun m hm ht hei => ?_⟩
  · obtain ⟨hne, hni⟩ := not_or.1 fun h => hm (List.mem_cons.2 h)
    exact (k.others m hni).trans (h.others m fun hm => hne (List.mem_singleton.1 hm))
  · rcases List.mem_cons.1 hm with rfl | hm
    · exact hself.trans (h.rest m List.mem_cons_self hrest)
    · rw [k.rest m hm (by rwa [hother hm]), hother hm]
  · rcases List.mem_cons.1 hm with rfl | hm
    · obtain ⟨hst, hsig, hw⟩ := h.adapt m List.mem_cons_self ht hei
      exact ⟨by rw [hself, hst], by rw [hself, hsig], k.words hw⟩
    · rw [← hother hm] at ht hei
      exact k.adapt m hm ht hei

/-- Lanes that carry no port lose their signal one after another. -/
theorem Dev.signalsLost_foldl {ls : List Nat} (hnd : ls.Nodup) {d : Dev} (hc : ∀ l ∈ ls, carries (d.lane l).st = false) :
    d.SignalsLost (ls.foldl (fun x l => x.loseSignal l) d) ls := by
  induction ls generalizing d with
  | nil => exact d.signalsLost_nil
  | cons l ls ih =>
    obtain ⟨hl, hnd⟩ := List.nodup_cons.1 hnd
    have hone := Dev.signalsLost_one (hc l List.mem_cons_self)
    refine hone.cons hl (ih hnd fun m hm => ?_)
    rw [hone.others m fun hml => hl (List.mem_singleton.1 hml ▸ hm)]
    exact hc m (List.mem_cons_of_mem _ hm)

/-- The lanes of a lane die. -/
def dieLanes (i : Nat) : List Nat := (List.range 64).map (fun k => i * 64 + k)

theorem mem_dieLanes {i l : Nat} : l ∈ dieLanes i ↔ l / 64 = i := by
  simp only [dieLanes, List.mem_map, List.mem_range]
  constructor
  · rintro ⟨k, hk, rfl⟩; omega
  · intro h; exact ⟨l % 64, by omega, by omega⟩

theorem dieLanes_nodup (i : Nat) : (dieLanes i).Nodup := List.nodup_range.map fun _ _ h => Nat.add_left_cancel h

end Sys2Proof.Machine

namespace Sys2Proof.Claim
open Sys2Proof Sys2Proof.Machine

/-! ## Events of one lane -/

/-- An event that makes of the lane `y`. -/
theorem runs_setLane {c : Instr} {s : State} {f : Dev → Dev} {n : Nat} {y : Lane} (hex : exec c s = devStep f s)
    (he : f s.dev = s.dev.setLane n y) : Runs c s fun t => LaneAnd s t n [] ∧ t.dev.lane n = y :=
  runs_dev hex he ⟨⟨⟨rfl, rfl, rfl⟩, rfl, fun _ hm => Dev.lane_setLane_ne _ _ hm, fun _ _ => rfl⟩, Dev.lane_setLane_self ..⟩

/-- An event that does nothing here. -/
theorem runs_nothing {c : Instr} {s : State} {f : Dev → Dev} (hex : exec c s = devStep f s) (he : f s.dev = s.dev) :
    Runs c s fun t => t = s := runs_dev hex he rfl

theorem not_mem_condRegs {a b i : Nat} : a ∉ condRegs b i ↔ a ≠ condAddr b i ∧ a ≠ condAddr b i + 4 := by simp [condRegs]

theorem regsBut_of_laneRaised {s : State} {e : Dev} {c n : Nat} {y : Lane} (h : s.dev.LaneRaised e c n y) :
    RegsBut s { s with dev := e } (condRegs 2 n) := fun a ha =>
  have ⟨h0, h4⟩ := not_mem_condRegs.1 ha
  h.regs a h0 h4

/-- A training timeout that is due (R99). -/
theorem exec_trainTimeout_of_late {s : State} {l : BitVec 9} {f : Nat} (hf : (s.dev.lane l.toNat).tAdapt = some f) (hage : 200000 ≤ s.dev.age f)
    (ht : (s.dev.lane l.toNat).st = .adapt ∨ (s.dev.lane l.toNat).st = .hunt ∨ (s.dev.lane l.toNat).st = .tune) :
    ∃ e c y, exec (.trainTimeout l) s = .next { s with dev := e } ∧ s.dev.LaneRaised e c l.toNat y ∧
      if 2 ≤ (s.dev.lane l.toNat).timeouts then c = 4 ∧ y.st = .fault ∧ y.timeouts = 0
      else c = 3 ∧ y.st = .adapt ∧ y.timeouts = (s.dev.lane l.toNat).timeouts + 1 := by
  have hlate : (match (s.dev.lane l.toNat).tAdapt with | some t => decide (200000 ≤ s.dev.age t) | none => false) = true := by
    rw [hf]; exact decide_eq_true hage
  by_cases h2 : 2 ≤ (s.dev.lane l.toNat).timeouts
  · refine ⟨_, 4, _, congrArg Host.Outcome.next (onDev_of_eq ((if_pos ⟨hlate, ht⟩).trans (if_pos h2))),
      (Dev.onlyLane_setLane ..).raiseAt 4, ?_⟩
    rw [if_pos h2, Dev.lane_setLane_self]
    exact ⟨rfl, rfl, rfl⟩
  · have hc : carries (s.dev.lane l.toNat).st = false := by rcases ht with h | h | h <;> rw [h] <;> rfl
    obtain ⟨y, hy, hst, -⟩ := Dev.toAdapt_of_not_carries hc
    have hto : s.dev.OnlyLane (s.dev.toAdapt l.toNat) l.toNat := hy ▸ s.dev.onlyLane_setLane _ y
    refine ⟨_, 3, _, congrArg Host.Outcome.next (onDev_of_eq ((if_pos ⟨hlate, ht⟩).trans (if_neg h2))), (hto.setLane _).raiseAt 3, ?_⟩
    rw [if_neg h2, Dev.lane_setLane_self, hy, Dev.lane_setLane_self]
    exact ⟨rfl, hst, rfl⟩

/-- Settles O16: each event of a lane that trains is a change of that lane, with its condition where one is raised. -/
theorem laneTrainingSteps : Obligations.LaneTrainingSteps := by
  unfold Obligations.LaneTrainingSteps
  intro s l n x
  refine ⟨fun hst hclk => runs_setLane rfl (if_pos ⟨hst, hclk⟩), fun hst hei => runs_setLane rfl (Dev.gainLock_of_hunt hst hei),
    fun hei => runs_setLane rfl (Dev.gainLock_of_idle hei), fun hst hei => ?_, fun ht hei => ?_, fun f hf hage ht => ?_⟩
  · obtain ⟨y, hy, hyst⟩ := Dev.loseLock_of_locked (l := n) hst hei
    refine runs_dev rfl rfl ⟨⟨rfl, rfl, rfl⟩, hy.word_mem, ?_, hy.self ▸ hyst, hy.others, hy.ports, fun a ha => ?_⟩
    · have hne : rl 0x4C n ≠ condAddr 2 n ∧ rl 0x4C n ≠ condAddr 2 n + 4 := by simp only [condAddr, rl, if_true]; omega
      exact (hy.regs _ hne.1 hne.2).trans (Dev.rd_wr_self ..)
    · obtain ⟨hcount, hcond⟩ := not_or.1 (mt List.mem_cons.2 ha)
      obtain ⟨h0, h4⟩ := not_mem_condRegs.1 hcond
      exact (hy.regs a h0 h4).trans (Dev.rd_wr_ne _ _ hcount)
  · obtain ⟨y, hy, hyst, hsig⟩ := Dev.loseSignal_of_trains (l := n) ht hei
    exact runs_dev rfl rfl ⟨⟨rfl, rfl, rfl⟩, hy.word_mem, hy.self ▸ hyst, hy.self ▸ hsig, hy.others, hy.ports, regsBut_of_laneRaised hy⟩
  · obtain ⟨e, c, y, hex, hy, hcase⟩ := exec_trainTimeout_of_late hf hage ht
    refine ⟨_, hex, ⟨rfl, rfl, rfl⟩, ?_, hy.others, hy.ports, regsBut_of_laneRaised hy⟩
    have hself : e.lane n = y := hy.self
    by_cases h2 : 2 ≤ x.timeouts
    · obtain ⟨rfl, hst, hto⟩ := (if_pos h2).mp hcase
      rw [if_pos h2]
      exact ⟨hself ▸ hst, hself ▸ hto, hy.word_mem⟩
    · obtain ⟨rfl, hst, hto⟩ := (if_neg h2).mp hcase
      rw [if_neg h2]
      exact ⟨hself ▸ hst, hself ▸ hto, hy.word_mem⟩

/-- Settles O19: the lanes of the die lose their signal one after another, and the note alone keeps a lane in ADAPT. -/
theorem laneClockStopsDie : Obligations.LaneClockStopsDie := by
  unfold Obligations.LaneClockStopsDie
  refine ⟨fun s i hc => ?_, fun s l hdead => runs_nothing rfl (if_neg fun h => h.2 hdead), fun s i => ?_⟩
  · let d1 : Dev := { s.dev with clkDead := if i.toNat ∈ s.dev.clkDead then s.dev.clkDead else s.dev.clkDead ++ [i.toNat] }
    have hlost : d1.SignalsLost ((dieLanes i.toNat).foldl (fun x l => x.loseSignal l) d1) (dieLanes i.toNat) :=
      Dev.signalsLost_foldl (dieLanes_nodup _) fun l hl => hc l (mem_dieLanes.1 hl)
    generalize he : (dieLanes i.toNat).foldl (fun x l => x.loseSignal l) d1 = e at hlost
    have hnoted : i.toNat ∈ d1.clkDead := by
      simp only [d1]; split
      · assumption
      · simp
    refine runs_dev rfl he ⟨⟨rfl, rfl, rfl⟩, hlost.clocks ▸ hnoted, hlost.ports, fun l hl ht hei => ?_, fun l hl => ?_⟩
    · exact hlost.adapt l (mem_dieLanes.2 hl) (Lane.trains_iff.2 ht) hei
    · by_cases hd : l / 64 = i.toNat
      · exact hlost.rest l (mem_dieLanes.2 hd) (hl.resolve_left fun h => h hd)
      · exact hlost.others l fun h => hd (mem_dieLanes.1 h)
  · refine runs_dev rfl rfl ⟨⟨rfl, rfl, rfl⟩, by simp, fun j hj => by simp [hj], rfl⟩

end Sys2Proof.Claim
end

section
/-! PROOFS. TXEQ_REQUEST: a request of the partner is answered once, and applied where the taps stay in range (R93, R94, R95, R438). -/

namespace Sys2Proof.Machine

/-! ## What a request does to the taps (R93, R94, R438) -/

/-- The taps after one step of tap `tap`, up where `act` is 1 and else down. -/
def stepTaps (t : List Int) (tap act : Nat) : List Int := t.set (tap - 1) (t.getD (tap - 1) 0 + (if act = 1 then 1 else -1))

section
variable {d : Dev} {l : Nat} {t : List Int} {req : BitVec 16}

section
variable (h1 : 1 ≤ req.toNat % 8) (h4 : req.toNat % 8 ≤ 4) (hact : req.toNat / 8 % 4 = 1 ∨ req.toNat / 8 % 4 = 2)
include h1 h4 hact

/-- A step inside R94's ranges and sum and the Narrows limits is applied. -/
theorem Dev.txeqStep_of_ok (hok : tapsOk (stepTaps t (req.toNat % 8) (req.toNat / 8 % 4)) = true)
    (hlim : d.clampTaps l (stepTaps t (req.toNat % 8) (req.toNat / 8 % 4)) = stepTaps t (req.toNat % 8) (req.toNat / 8 % 4)) :
    d.txeqStep l t req = (stepTaps t (req.toNat % 8) (req.toNat / 8 % 4), 1) := by
  unfold stepTaps at *
  simp only [Dev.txeqStep]
  rw [if_neg (by omega), if_pos ⟨h1, h4, hact⟩, hok, if_neg (by decide), if_pos hlim]

/-- A step that leaves R94's ranges or sum is not applied. -/
theorem Dev.txeqStep_of_not_ok (hok : tapsOk (stepTaps t (req.toNat % 8) (req.toNat / 8 % 4)) = false) : d.txeqStep l t req = (t, 2) := by
  unfold stepTaps at *
  simp only [Dev.txeqStep]
  rw [if_neg (by omega), if_pos ⟨h1, h4, hact⟩, hok, if_pos (by decide)]

end

/-- A preset inside the limits is taken. -/
theorem Dev.txeqStep_of_preset (h7 : req.toNat % 8 = 7)
    (hlim : d.clampTaps l (presetTaps (req.toNat / 32 % 8)) = presetTaps (req.toNat / 32 % 8)) :
    d.txeqStep l t req = (presetTaps (req.toNat / 32 % 8), 1) := by
  simp only [Dev.txeqStep]
  rw [if_pos h7, if_pos hlim, hlim]

end

/-! ## The answer (R93) -/

/-- TXEQ_ACK: the status and the number of the request it answers. -/
def txAckOf (status : Nat) (id : BitVec 6) : BitVec 8 := BitVec.ofNat 8 (status * 64 + id.toNat)

/-- The lane takes the taps `t` and answers request `id` with `status`. -/
def Dev.answerTaps (d : Dev) (l : Nat) (t : List Int) (status : Nat) (id : BitVec 6) : Dev :=
  (d.setLane l { d.lane l with taps := t, lastReq := some id, ack := txAckOf status id }).emit (.txAck l (txAckOf status id))

/-- A lane that could not take what was asked, noted for this training (R94). -/
def Dev.limitLane (d : Dev) (l : Nat) : Dev := (d.onLane l (fun y => { y with limited := true })).raiseAt 2 0xB l l

/-- Lane `l` has answered request `id` and holds the taps `t`; only the LANE condition of the lane may have been raised beside. -/
structure Dev.TapsAnswered (d e : Dev) (l : Nat) (t : List Int) (status : Nat) (id : BitVec 6) : Prop where
  taps : (e.lane l).taps = t
  last : (e.lane l).lastReq = some id
  ack : (e.lane l).ack = txAckOf status id
  out : e.out = .txAck l (txAckOf status id) :: d.out
  others : ∀ k, k ≠ l → e.lane k = d.lane k
  ports : e.ports = d.ports
  regs : ∀ a, a ≠ condAddr 2 l → a ≠ condAddr 2 l + 4 → e.rd a = d.rd a

theorem Dev.lane_answerTaps (d : Dev) (l : Nat) (t : List Int) (status : Nat) (id : BitVec 6) :
    (d.answerTaps l t status id).lane l = { d.lane l with taps := t, lastReq := some id, ack := txAckOf status id } := Dev.lane_setLane_self ..

theorem Dev.tapsAnswered_answerTaps (d : Dev) (l : Nat) (t : List Int) (status : Nat) (id : BitVec 6) :
    d.TapsAnswered (d.answerTaps l t status id) l t status id where
  taps := by rw [d.lane_answerTaps]
  last := by rw [d.lane_answerTaps]
  ack := by rw [d.lane_answerTaps]
  out := rfl
  others _ hk := Dev.lane_setLane_ne _ _ hk
  ports := rfl
  regs _ _ _ := rfl

/-- LANE 0Bh is raised and noted. -/
theorem Dev.laneRaised_limitLane (d : Dev) (l : Nat) : d.LaneRaised (d.limitLane l) 0xB l { d.lane l with limited := true } := by
  have h := (d.onlyLane_setLane l { d.lane l with limited := true }).raiseAt 0xB
  rwa [Dev.lane_setLane_self] at h

theorem Dev.TapsAnswered.limitLane {d e : Dev} {l : Nat} {t : List Int} {status : Nat} {id : BitVec 6}
    (h : d.TapsAnswered e l t status id) : d.TapsAnswered (e.limitLane l) l t status id :=
  have hr := e.laneRaised_limitLane l
  { taps := by rw [hr.self]; exact h.taps
    last := by rw [hr.self]; exact h.last
    ack := by rw [hr.self]; exact h.ack
    out := hr.out.trans h.out
    others := fun k hk => (hr.others k hk).trans (h.others k hk)
    ports := hr.ports.trans h.ports
    regs := fun a h0 h4 => (hr.regs a h0 h4).trans (h.regs a h0 h4) }

end Sys2Proof.Machine

namespace Sys2Proof.Claim
open Sys2Proof Sys2Proof.Machine

/-- The number of a request. -/
def reqIdOf (req : BitVec 16) : BitVec 6 := BitVec.ofNat 6 (req.toNat / 256)

section
variable {s : State} {l : BitVec 9} {req : BitVec 16} (hact : (s.dev.lane l.toNat).st = .tune ∨ (s.dev.lane l.toNat).st = .ready ∨
  (carries (s.dev.lane l.toNat).st = true ∧ (s.dev.lane l.toNat).rxEi = false)) (hnew : (s.dev.lane l.toNat).lastReq ≠ some (reqIdOf req))
include hact hnew

/-- A new request on a lane whose receiver is active. -/
theorem exec_txeqRequest_of_new {t : List Int} {status : Nat} {e : Dev}
    (hstep : s.dev.txeqStep l.toNat (s.dev.lane l.toNat).taps req = (t, status))
    (he : (if status = 2 ∧ (s.dev.lane l.toNat).limited = false then (s.dev.answerTaps l.toNat t status (reqIdOf req)).limitLane l.toNat
      else s.dev.answerTaps l.toNat t status (reqIdOf req)) = e) : exec (.txeqRequest l req) s = .next { s with dev := e } := by
  refine congrArg Host.Outcome.next (onDev_of_eq ?_)
  dsimp only
  refine (if_neg (not_or.2 ⟨by simpa [or_iff_not_imp_left] using hact, hnew⟩)).trans ?_
  rw [hstep, ← he]
  simp only [Bool.not_eq_true']
  rfl

/-- A request that can be met is answered with STATUS 01b. -/
theorem runs_txeqRequest_of_met {t : List Int} (hstep : s.dev.txeqStep l.toNat (s.dev.lane l.toNat).taps req = (t, 1)) :
    Runs (.txeqRequest l req) s fun u => Kept s u ∧ s.dev.TapsAnswered u.dev l.toNat t 1 (reqIdOf req) ∧ u.dev.words = s.dev.words :=
  ⟨_, exec_txeqRequest_of_new hact hnew hstep (if_neg (by simp)), ⟨rfl, rfl, rfl⟩, Dev.tapsAnswered_answerTaps .., rfl⟩

/-- A request that is not applied is answered with STATUS 10b, and LANE 0Bh is raised once in a training. -/
theorem runs_txeqRequest_of_unmet {t : List Int} (hstep : s.dev.txeqStep l.toNat (s.dev.lane l.toNat).taps req = (t, 2)) :
    Runs (.txeqRequest l req) s fun u => Kept s u ∧ s.dev.TapsAnswered u.dev l.toNat t 2 (reqIdOf req) ∧
      ((s.dev.lane l.toNat).limited = false → condWord 2 0xB l.toNat ∈ u.dev.words) ∧ (u.dev.lane l.toNat).limited = true := by
  have hans := s.dev.tapsAnswered_answerTaps l.toNat t 2 (reqIdOf req)
  cases hlim : (s.dev.lane l.toNat).limited with
  | false =>
    have hr := (s.dev.answerTaps l.toNat t 2 (reqIdOf req)).laneRaised_limitLane l.toNat
    exact ⟨_, exec_txeqRequest_of_new hact hnew hstep (if_pos ⟨rfl, hlim⟩), ⟨rfl, rfl, rfl⟩, hans.limitLane, fun _ => hr.word_mem,
      by rw [hr.self]⟩
  | true =>
    refine ⟨_, exec_txeqRequest_of_new hact hnew hstep (if_neg (by simp [hlim])), ⟨rfl, rfl, rfl⟩, hans, nofun, ?_⟩
    rw [Dev.lane_answerTaps]
    exact hlim

end

/-- Settles O18: the request is met, refused or a repetition, and each is answered as such. -/
theorem tapRequestsAnswered : Obligations.TapRequestsAnswered := by
  unfold Obligations.TapRequestsAnswered
  intro s l req n x id tap act m pre Answered hact
  have answered {u : State} {t : List Int} {status : Nat} (hk : Kept s u) (h : s.dev.TapsAnswered u.dev n t status id) : Answered u t status :=
    ⟨hk, h.taps, h.last, h.ack, h.out, h.others, h.ports, fun a ha =>
      have ⟨h0, h4⟩ := not_mem_condRegs.1 ha
      h.regs a h0 h4⟩
  refine ⟨fun hnew h1 h4 hstep hok hlim => ?_, fun hnew h1 h4 hstep hok => ?_, fun hnew h7 hlim => ?_, fun hold =>
    runs_nothing rfl (if_pos (.inr hold))⟩
  · obtain ⟨u, hex, hk, hans, hw⟩ := runs_txeqRequest_of_met hact hnew (Dev.txeqStep_of_ok h1 h4 hstep hok hlim)
    exact ⟨u, hex, answered hk hans, hw⟩
  · obtain ⟨u, hex, hk, hans, hw, hl⟩ := runs_txeqRequest_of_unmet hact hnew (Dev.txeqStep_of_not_ok h1 h4 hstep hok)
    exact ⟨u, hex, answered hk hans, hw, hl⟩
  · obtain ⟨u, hex, hk, hans, hw⟩ := runs_txeqRequest_of_met hact hnew (Dev.txeqStep_of_preset h7 hlim)
    exact ⟨u, hex, answered hk hans, hw⟩

end Sys2Proof.Claim
end

section
/-! PROOFS. EQI_UPDATE of a lane that carries a port out of service (R96, R97, R98). -/

namespace Sys2Proof.Claim
open Sys2Proof Sys2Proof.Machine

/-- Port 0, DOWN, on lane 0, in SERVICE after one update below the threshold, and lane 1, in electrical idle. -/
def lowEyeDev : Dev := { regs := [(rp 0xA 0x100 0, 0x80010000)], lanes := [(0, { st := .service, run := 1 }), (1, { st := .ei })] }

def lowEyeState : State := { State.reset with dev := lowEyeDev }

/-- The second low update of lane 0 takes lane 1 to ADAPT: the DOWN of a port that is DOWN already trains its idle lanes anew. -/
theorem eqiUpdate_moves_idle_lane : ∃ t, exec (.eqiUpdate 0 [(0, 2)] [] [] [] [] []) lowEyeState = .next t ∧
    (t.dev.lane 1).st = .adapt := ⟨_, rfl, by decide +kernel⟩

/-- Refutes O17: the statement bounds neither the port nor its other lanes, and where the port is DOWN with another lane in EI, the second
low update trains that lane anew too, so it is not the updated lane alone that changes. -/
theorem not_eyeQualityDecidesLane : ¬ Obligations.EyeQualityDecidesLane := by
  unfold Obligations.EyeQualityDecidesLane
  rintro ⟨h, -⟩
  obtain ⟨t, hex, -, -, -, -, hothers, -⟩ := (h lowEyeState 0 [(0, 2)] [] [] [] [] [] (by decide) (by decide)).1
    (by decide) (by decide) (by decide) (by decide)
  obtain ⟨u, hexu, hadapt⟩ := eqiUpdate_moves_idle_lane
  obtain rfl : t = u := Host.Outcome.next.inj (hex.symm.trans hexu)
  have hstay : (t.dev.lane 1).st = .ei := congrArg Lane.st (hothers 1 (by decide))
  rw [hadapt] at hstay
  cases hstay

end Sys2Proof.Claim
end

section
/-! PROOFS. A port's lanes deskewed, in electrical idle and waking (R88, R101, R102, R103). -/

namespace Sys2Proof.Machine

/-! ## The lanes of a port change together -/

/-- The same change on every lane of a list. -/
def Dev.onLanes (d : Dev) (ls : List Nat) (g : Lane → Lane) : Dev := ls.foldl (fun x l => x.onLane l g) d

theorem Dev.onLanes_only (d : Dev) (ls : List Nat) (g : Lane → Lane) : d.OnlyLanes (d.onLanes ls g) ls := by
  suffices h : ∀ (ks : List Nat) (e : Dev), ks ⊆ ls → d.OnlyLanes e ls → d.OnlyLanes (e.onLanes ks g) ls from
    h ls d (List.Subset.refl _) (.refl d ls)
  intro ks
  induction ks with
  | nil => exact fun _ _ h => h
  | cons k ks ih =>
    intro e hks h
    obtain ⟨hk, hks⟩ := List.cons_subset.1 hks
    exact ih _ hks (h.snoc hk (Dev.onlyLane_setLane ..))

theorem Dev.onLanes_lane {ls : List Nat} (hnd : ls.Nodup) (d : Dev) (g : Lane → Lane) {l : Nat} (hl : l ∈ ls) :
    (d.onLanes ls g).lane l = g (d.lane l) := by
  induction ls generalizing d with
  | nil => exact absurd hl List.not_mem_nil
  | cons k ks ih =>
    obtain ⟨hk, hnd⟩ := List.nodup_cons.1 hnd
    rcases List.mem_cons.1 hl with rfl | hl
    · exact (((d.onLane l g).onLanes_only ks g).2 l hk).trans (Dev.lane_setLane_self ..)
    · exact (ih hnd _ hl).trans (congrArg g (Dev.lane_setLane_ne _ _ fun h => hk (h ▸ hl)))

/-! ## Budgets of an idle output (R103, R184) -/

theorem Dev.budOf_setBud (d : Dev) (o k c : Nat) (b : Nat × Nat) : (d.setBud o k b).budOf o c = if c = k then b else d.budOf o c := by
  rw [Dev.budOf, Dev.setBud, mapGet_set]
  simp only [Nat.add_left_cancel_iff, Dev.budOf]

theorem Dev.budOf_foldl_setBud_zero (ks : List Nat) (d : Dev) (o c : Nat) (h : c ∈ ks ∨ d.budOf o c = (0, 0)) :
    (ks.foldl (fun (x : Dev) k => x.setBud o k (0, 0)) d).budOf o c = (0, 0) := by
  induction ks generalizing d with
  | nil => exact h.resolve_left List.not_mem_nil
  | cons k ks ih =>
    refine ih _ ?_
    by_cases hck : c = k
    · exact .inr (by rw [Dev.budOf_setBud, if_pos hck])
    · exact h.imp (fun h => (List.mem_cons.1 h).resolve_left hck) fun h => by rw [Dev.budOf_setBud, if_neg hck, h]

/-- An output that is shut has no budget of a class. -/
theorem Dev.budOf_shutBud (d : Dev) (o : Nat) {c : Nat} (h : c < 7) : (d.shutBud o).budOf o c = (0, 0) :=
  d.budOf_foldl_setBud_zero (List.range 7) o c (.inl (List.mem_range.2 h))

/-- Shutting an output's budgets changes nothing else. -/
theorem Dev.shutBud_eq (d : Dev) (o : Nat) : ∃ b c, d.shutBud o = { d with bud := b, corr := c } := by
  have hzero (ks : List Nat) (e : Dev) (h : ∃ b, e = { d with bud := b }) :
      ∃ b, ks.foldl (fun (x : Dev) k => x.setBud o k (0, 0)) e = { d with bud := b } := by
    induction ks generalizing e with
    | nil => exact h
    | cons k ks ih => obtain ⟨b, rfl⟩ := h; exact ih _ ⟨_, rfl⟩
  obtain ⟨b, hb⟩ := hzero (List.range 7) d ⟨_, rfl⟩
  unfold Dev.shutBud
  rw [hb]
  exact ⟨b, _, rfl⟩

/-- A device that differs in budgets alone has the same lanes, ports and outputs. -/
theorem Dev.same_of_budgets {d e : Dev} (h : ∃ b c, e = { d with bud := b, corr := c }) :
    (∀ l, e.lane l = d.lane l) ∧ (∀ p, e.port p = d.port p) ∧ e.out = d.out := by
  obtain ⟨_, _, rfl⟩ := h
  exact ⟨fun _ => rfl, fun _ => rfl, rfl⟩

/-! ## What idle and wake leave alone -/

/-- Of the device, only port `n`, the lanes `ls`, budgets and what is sent differ. -/
structure Dev.OnlyIdle (d e : Dev) (n : Nat) (ls : List Nat) : Prop where
  rest : e = { d with lanes := e.lanes, ports := e.ports, bud := e.bud, corr := e.corr, out := e.out }
  lanes : ∀ l, l ∉ ls → e.lane l = d.lane l
  ports : ∀ q, q ≠ n → e.port q = d.port q

namespace Dev.OnlyIdle
variable {d e : Dev} {n : Nat} {ls : List Nat}

theorem refl : d.OnlyIdle d n ls := ⟨rfl, fun _ _ => rfl, fun _ _ => rfl⟩

theorem of_onlyLanes (h : d.OnlyLanes e ls) : d.OnlyIdle e n ls := by
  obtain ⟨he, hl⟩ := h
  exact ⟨by rw [he], hl, fun q _ => Dev.port_congr (by rw [he]) q⟩

theorem setPort (h : d.OnlyIdle e n ls) (x : Port) : d.OnlyIdle (e.setPort n x) n ls where
  rest := by rw [h.rest]; rfl
  lanes := h.lanes
  ports q hq := (Dev.port_setPort_ne _ _ hq).trans (h.ports q hq)

theorem emit (h : d.OnlyIdle e n ls) (o : Out) : d.OnlyIdle (e.emit o) n ls where
  rest := by rw [h.rest]; rfl
  lanes := h.lanes
  ports := h.ports

/-- Budgets alone differ. -/
theorem budgets (h : d.OnlyIdle e n ls) {f : Dev} (hf : ∃ b c, f = { e with bud := b, corr := c }) : d.OnlyIdle f n ls := by
  obtain ⟨_, _, rfl⟩ := hf
  exact ⟨by rw [h.rest], h.lanes, h.ports⟩

end Dev.OnlyIdle

/-- The same change on every lane of port `n`, and another on the port. -/
def Dev.movePort (d : Dev) (n : Nat) (g : Lane → Lane) (f : Port → Port) : Dev := (d.onLanes (d.lanesOf n) g).onPort n f

section
variable (d : Dev) (n : Nat) (g : Lane → Lane) (f : Port → Port)

theorem Dev.movePort_eq : d.movePort n g f = (d.onLanes (d.lanesOf n) g).setPort n (f (d.port n)) := by
  have hport : (d.onLanes (d.lanesOf n) g).port n = d.port n := Dev.port_congr (by rw [(d.onLanes_only _ g).1]) n
  rw [Dev.movePort, Dev.onPort_eq, hport]

theorem Dev.movePort_only : d.OnlyIdle (d.movePort n g f) n (d.lanesOf n) := (Dev.OnlyIdle.of_onlyLanes (d.onLanes_only _ g)).setPort _

theorem Dev.port_movePort : (d.movePort n g f).port n = f (d.port n) := by rw [Dev.movePort_eq, Dev.port_setPort_self]

theorem Dev.lane_movePort {l : Nat} (hl : l ∈ d.lanesOf n) : (d.movePort n g f).lane l = g (d.lane l) :=
  Dev.onLanes_lane (d.lanesOf_nodup n) d g hl

theorem Dev.out_movePort : (d.movePort n g f).out = d.out := by
  rw [Dev.movePort_eq, Dev.setPort_out, (d.onLanes_only _ g).1]

end

theorem Dev.lane_emit (d : Dev) (o : Out) (l : Nat) : (d.emit o).lane l = d.lane l := rfl
theorem Dev.port_emit (d : Dev) (o : Out) (p : Nat) : (d.emit o).port p = d.port p := rfl

/-- The transmitter of port `n` and its lanes enter electrical idle (R101). -/
def Dev.portSleeps (d : Dev) (n : Nat) : Dev :=
  d.movePort n (fun y => { y with st := .ei }) fun x => { x with txEi := true, wakeAt := none, wakeDue := none, eiSend := true }

/-- The lanes of port `n` serve again after a wake, its transmitter awake (R103). -/
def Dev.portServes (d : Dev) (n : Nat) : Dev :=
  d.movePort n (fun z => { z with st := .service }) fun y => { y with txEi := false, wakeAt := none, wakeDue := none, idle := 0 }

/-- A change of a port's state that becomes due. -/
def Port.duly (u : Due) (x : Port) : Port := if u ∈ x.due then x else { x with due := x.due ++ [u] }

theorem Port.duly_st (u : Due) (x : Port) : (x.duly u).st = x.st := by unfold Port.duly; split <;> rfl

theorem Port.mem_duly (u : Due) (x : Port) : u ∈ (x.duly u).due := by
  unfold Port.duly
  split
  · assumption
  · simp

end Sys2Proof.Machine

namespace Sys2Proof.Claim
open Sys2Proof Sys2Proof.Machine

/-- Settles O20: each event changes the port's lanes together, and the port; the budgets of an idle port are shut. -/
theorem portIdleAndWake : Obligations.PortIdleAndWake := by
  unfold Obligations.PortIdleAndWake
  intro s p n x ls Same
  have same {e : Dev} (h : s.dev.OnlyIdle e n ls) : Same { s with dev := e } :=
    ⟨⟨rfl, rfl, rfl⟩, h.lanes, h.ports, by rw [h.rest], by rw [h.rest], by rw [h.rest]⟩
  have hall {q : Nat → Bool} (h : ∀ l ∈ ls, q l = true) : ls.all q = true := List.all_eq_true.2 h
  refine ⟨fun skew hv hst hw hl hsk => ?_, fun hst => ?_, fun skew hv hw hl hsk => ?_, fun hok => ?_, fun hv hl => ?_, fun f htx hdue hf hw => ?_,
    fun w hw hage => ?_, fun hv hl hw => ?_⟩
  · have hserve := hall (q := fun l => (s.dev.lane l).st == .ready || (s.dev.lane l).st == .service) fun l h => by simpa using hl l h
    have hasleep : ¬ (s.dev.pvalid n = true ∧ x.rxWakeAt.isSome = true ∧ ls.all (fun l => (s.dev.lane l).rxLock) = true) := by simp [hw]
    have hready : ¬ ((! s.dev.pvalid n) = true ∨ x.st ≠ .down ∨
        (! ls.all fun l => (s.dev.lane l).st == .ready || (s.dev.lane l).st == .service) = true) := by
      rw [hv, hserve, hst]; decide
    refine runs_dev (e := s.dev.movePort n (fun y => { y with st := .service, run := 0 }) (Port.duly .exchange)) rfl
      ((if_neg hasleep).trans ((if_neg hready).trans (if_neg (by simpa using hsk)))) ⟨same (Dev.movePort_only ..), ?_, ?_, fun l hm => ?_⟩
    · rw [Dev.port_movePort, Port.duly_st]; exact hst
    · rw [Dev.port_movePort]; exact Port.mem_duly ..
    · rw [Dev.lane_movePort _ _ _ _ hm]
  · refine (congrArg (fun e : Dev => (e.port n).st = .exchange ∧ (e.port n).tExch = s.dev.now) (if_pos hst)).mpr ?_
    rw [Dev.port_setPort_self]
    exact ⟨rfl, rfl⟩
  · exact runs_dev rfl ((if_pos ⟨hv, hw, hall hl⟩).trans (if_neg (by simpa using hsk)))
      ⟨same (Dev.OnlyIdle.refl.setPort _), rfl, Dev.port_setPort_self ..⟩
  · have hrun : exec (.eiEnter p) s = .next { s with dev := ((s.dev.portSleeps n).shutBud n).emit (.idle n) } :=
      congrArg Host.Outcome.next (onDev_of_eq (if_neg (by simpa using hok)))
    have hshut := (s.dev.portSleeps n).shutBud_eq n
    have hbud (c : Nat) (hc : c < 7) := (s.dev.portSleeps n).budOf_shutBud n hc
    have honly := (s.dev.movePort_only ..).budgets hshut
    obtain ⟨hlane, hport, hout⟩ := Dev.same_of_budgets hshut
    generalize (s.dev.portSleeps n).shutBud n = f at *
    exact ⟨_, hrun, same (honly.emit _), congrArg Port.txEi ((hport n).trans (Dev.port_movePort ..)),
      fun l hm => (hlane l).trans (Dev.lane_movePort _ _ _ _ hm), hbud, congrArg (Out.idle n :: ·) (hout.trans (Dev.out_movePort ..))⟩
  · exact runs_dev (e := s.dev.movePort n (fun y => { y with rxEi := true, rxLock := false, sig := false, found := 0 })
        fun x => { x with rxWakeAt := none, rxDeskew := false }) rfl
      (if_neg (by simpa using ⟨hv, hl⟩))
      ⟨same (Dev.movePort_only ..), fun l hm => Dev.lane_movePort _ _ _ _ hm, Dev.port_movePort ..⟩
  · have hdue : (match x.wakeDue with | some f => decide (f < s.dev.now) | none => false) = true := by rw [hdue]; exact decide_eq_true hf
    exact runs_dev (e := (s.dev.movePort n (fun z => { z with st := .wake }) fun y => { y with wakeAt := some s.dev.now }).emit (.burst n)) rfl
      (if_pos ⟨htx, hdue, by rw [hw]; rfl⟩)
      ⟨same ((Dev.movePort_only ..).emit _), fun l hm => (Dev.lane_emit ..).trans (Dev.lane_movePort _ _ _ _ hm),
        (Dev.port_emit ..).trans (Dev.port_movePort ..), congrArg (Out.burst n :: ·) (Dev.out_movePort ..)⟩
  · have hwake : (s.dev.port p.toNat).wakeAt = some w := hw
    have hrun : exec (.wakeComplete p) s = .next { s with dev := (s.dev.portServes n).openBud n } :=
      congrArg Host.Outcome.next (onDev_of_eq (by dsimp only; rw [hwake]; exact if_pos hage))
    have hopen := (s.dev.portServes n).openBud_eq n
    have honly := (s.dev.movePort_only ..).budgets hopen
    obtain ⟨hlane, hport, -⟩ := Dev.same_of_budgets hopen
    generalize (s.dev.portServes n).openBud n = f at *
    exact ⟨_, hrun, same honly, fun l hm => (hlane l).trans (Dev.lane_movePort _ _ _ _ hm), (hport n).trans (Dev.port_movePort ..)⟩
  · exact runs_dev (e := s.dev.movePort n (fun z => { z with sig := true }) fun x => { x with rxWakeAt := some s.dev.now, rxDeskew := false }) rfl
      (if_pos ⟨hv, hall hl, by rw [hw]; rfl⟩)
      ⟨same (Dev.movePort_only ..), fun l hm => Dev.lane_movePort _ _ _ _ hm, Dev.port_movePort ..⟩

end Sys2Proof.Claim
end

section
/-! PROOFS. Test functions of a lane: its patterns, its checker and the injection of errors (R98, R105, R107, R108). -/

namespace Sys2Proof.Machine

/-! ## A write of LANE_PAT_CTL (R98, R105) -/

/-- The register takes the written codes. -/
def Dev.patCtlSet (d : Dev) (l : Nat) (v : Word) : Dev := d.wr (rl 0x50 l) (v &&& 0x77)

theorem Dev.fld_patCtlSet (d : Dev) (l : Nat) (v : Word) {lo : Nat} (h : Machine.fld 0x77 lo 3 = 2 ^ 3 - 1) :
    (d.patCtlSet l v).fld (rl 0x50 l) lo 3 = Machine.fld v lo 3 := by
  rw [Dev.fld, Dev.patCtlSet, Dev.rd_wr_self, fld_and_of_covered _ _ h]

theorem Dev.portOf_patCtlSet (d : Dev) {l : Nat} (v : Word) (hl : l < 512) (m : Nat) : (d.patCtlSet l v).portOf m = d.portOf m :=
  d.portOf_wr_of_lt _ (by unfold rl; omega) m

theorem Dev.bit_patCtlSet (d : Dev) (l : Nat) (v : Word) : (d.patCtlSet l v).bit (rl 0 l) 0 = d.bit (rl 0 l) 0 := by
  rw [Dev.bit, Dev.patCtlSet, Dev.rd_wr_ne _ _ (by unfold rl; omega), Dev.bit]

/-- A pattern in GEN or CHK makes a test of the lane. -/
theorem Dev.laneTest_patCtlSet (d : Dev) (l : Nat) {v : Word} (hp : patOn (Machine.fld v 0 3) = true ∨ patOn (Machine.fld v 4 3) = true) :
    (d.patCtlSet l v).laneTest l = true := by
  rw [Dev.laneTest, d.fld_patCtlSet l v (show Machine.fld 0x77 0 3 = _ by decide), d.fld_patCtlSet l v (show Machine.fld 0x77 4 3 = _ by decide)]
  rcases hp with h | h <;> simp [h]

/-- What the write leaves before control counts: the codes in the register, and a changed GEN with its generator started (log 84). -/
def Dev.genStarts (d : Dev) (l : Nat) (v : Word) : Dev :=
  (if Machine.fld v 0 3 = d.fld (rl 0x50 l) 0 3 then d
    else d.onLane l (fun x => { x with gen := if Machine.fld v 0 3 = 3 then 0 else 1 })).patCtlSet l v

theorem Dev.genStarts_onlyLane (d : Dev) (l : Nat) (v : Word) :
    (d.patCtlSet l v).OnlyLane (d.genStarts l v) l ∧ ((d.genStarts l v).lane l).st = (d.lane l).st := by
  unfold Dev.genStarts
  split
  · exact ⟨.refl _ l, rfl⟩
  · refine ⟨(d.patCtlSet l v).onlyLane_setLane l _, ?_⟩
    rw [Dev.patCtlSet, Dev.wr_lane, Dev.onLane_eq, Dev.lane_setLane_self]

theorem Dev.patCtlWrite_eq (d : Dev) (l : Nat) (v : Word) : d.patCtlWrite l v =
    if Machine.fld v 4 3 = d.fld (rl 0x50 l) 4 3 then ((d.genStarts l v).evalLane l).downLane l
    else (((d.genStarts l v).evalLane l).downLane l).onLane l (fun x => { x with chkLock := false }) := by
  simp only [Dev.patCtlWrite, beq_iff_eq]
  rfl

/-- A pattern written to a lane that carries no port and that its control moves freely takes it to TEST. -/
theorem Dev.patCtlWrite_of_pattern {d : Dev} {l : Nat} {v : Word} (hl : l < 512) (hs : d.laneServes l) (hen : d.bit (rl 0 l) 0 = true)
    (hr : d.portRests l) (hc : carries (d.lane l).st = false) (hf : (d.lane l).st ≠ .fault)
    (hp : patOn (Machine.fld v 0 3) = true ∨ patOn (Machine.fld v 4 3) = true) :
    (d.patCtlSet l v).OnlyLane (d.patCtlWrite l v) l ∧ ((d.patCtlWrite l v).lane l).st = .test ∧
      (Machine.fld v 4 3 ≠ d.fld (rl 0x50 l) 4 3 → ((d.patCtlWrite l v).lane l).chkLock = false) := by
  have hport := d.portOf_patCtlSet v hl
  have hbit := (d.bit_patCtlSet l v).trans hen
  have htest := d.laneTest_patCtlSet l hp
  have hserves : (d.patCtlSet l v).laneServes l := ⟨hs.1, hs.2.1, fun p h => hs.2.2 p (hport l ▸ h)⟩
  have hrests : (d.patCtlSet l v).portRests l := fun p h => hr p (hport l ▸ h)
  obtain ⟨hgen, hst⟩ := d.genStarts_onlyLane l v
  rw [Dev.patCtlWrite_eq]
  generalize d.genStarts l v = e at *
  generalize d.patCtlSet l v = w at *
  have heval := hgen.evalLane (hst ▸ hc)
  have hto : ((e.evalLane l).lane l).st = .test := by
    have hen : e.laneEn l = true := by rw [hgen.1]; exact hserves.laneEn.trans hbit
    rw [Dev.evalLane_of_test hen (by rw [hgen.1]; exact htest) (hst ▸ hf)]
    split
    · assumption
    · exact Dev.moveLane_st _ (hst ▸ hc)
  rw [(heval.portRests hrests).downLane]
  split
  · next h => exact ⟨heval, hto, fun hn => absurd h hn⟩
  · refine ⟨heval.setLane _, ?_, fun _ => ?_⟩
    · rw [Dev.onLane_eq, Dev.lane_setLane_self]; exact hto
    · rw [Dev.onLane_eq, Dev.lane_setLane_self]

theorem State.writeAt_lane (s : State) (src : Src) {o l : Nat} (v : Word) (ho : o < 0x1000) (hl : l < 512) :
    s.writeAt src (rl o l) v = s.onDev (fun d => d.writeLane (o + l * 0x1000) v) := by
  have hb : blk (rl o l) = 2 := by rw [rl_eq_ra, blk_ra _ (by omega)]
  have hoff : off (rl o l) = o + l * 0x1000 := by rw [rl_eq_ra, off_ra _ (by omega)]
  simp [State.writeAt, hb, hoff, show o + l * 0x1000 < 0x200000 by omega]

theorem State.writeAt_patCtl (s : State) (src : Src) {l : Nat} (v : Word) (h : l < 512) :
    s.writeAt src (rl 0x50 l) v = s.onDev (fun d => d.patCtlWrite l v) := by
  rw [State.writeAt_lane s src v (by decide) h]
  simp [Dev.writeLane, show (0x50 + l * 0x1000) / 0x1000 = l by omega]

/-! ## A write of LANE_INJ_CTL (R107, R108) -/

theorem State.writeAt_injCtl (s : State) (src : Src) {l : Nat} (v : Word) (h : l < 512) :
    s.writeAt src (rl 0x70 l) v = s.onDev (fun d => d.injCtlWrite l v) := by
  rw [State.writeAt_lane s src v (by decide) h]
  simp [Dev.writeLane, show (0x70 + l * 0x1000) / 0x1000 = l by omega]

/-- REPEAT codewords, or injection until it is ended. -/
def repeatOf (v : Word) : Option Nat := if Machine.fld v 16 8 = 0 then none else some (Machine.fld v 16 8)

/-- GO with MODE 01b on a lane in TEST that has not left SERVICE in this frame. -/
theorem Dev.injCtlWrite_of_test {d : Dev} {l : Nat} {v : Word} (hst : (d.lane l).st = .test) (hleft : (d.lane l).tLeft ≠ d.now + 1)
    (hgo : Machine.bit v 31 = true) (hmode : Machine.fld v 0 2 = 1) :
    d.injCtlWrite l v = ((d.wr (rl 0x70 l) (v &&& 0x00FF1F03)).wr (rl 0x74 l) 0).setLane l
      { d.lane l with tInj := d.now + 1, inj := some (repeatOf v) } := by
  have hnow (a : Nat) (w : Word) : (d.wr a w).now = d.now := rfl
  simp [Dev.injCtlWrite, hgo, hmode, hst, hleft, hnow, repeatOf]

end Sys2Proof.Machine

namespace Sys2Proof.Claim
open Sys2Proof Sys2Proof.Machine

/-- One lane and written registers differ, nothing else. -/
theorem laneAnd_of_wr {s : State} {l : Nat} {e : Dev} {a : Nat} {w : Word} (h : (s.dev.wr a w).OnlyLane e l) :
    LaneAnd s { s with dev := e } l [a] ∧ e.rd a = w := by
  obtain ⟨he, hl⟩ := h
  have hregs : e.regs = (s.dev.wr a w).regs := by rw [he]
  refine ⟨⟨⟨rfl, rfl, rfl⟩, ?_, hl, fun b hb => ?_⟩, (Dev.rd_congr hregs _).trans (Dev.rd_wr_self ..)⟩
  · rw [hregs]; exact he
  · exact (Dev.rd_congr hregs b).trans (Dev.rd_wr_ne _ _ (by simpa using hb))

/-- The write of a lane's register takes effect. -/
theorem takes_laneWrite {c : Instr} {s : State} {src : Src} {o l : Nat} {v : Word} (ho : o < 0x1000) (h4 : o % 4 = 0) (hl : l < 512)
    (hc : WriteCmd c src (rl o l) v) (hr : Reached s src (rl o l)) {P : State → Prop} (hP : P (s.writeAt src (rl o l) v)) : Takes c s P :=
  hc.takes hr (by unfold rl; omega) (by unfold rl; omega) (isRwl_of_blk_ne (by unfold blk rl; omega)) hP

/-- Settles O21: the written codes, the checker and the injection, clause by clause. -/
theorem laneTestFunctions : Obligations.LaneTestFunctions := by
  unfold Obligations.LaneTestFunctions
  intro s src l v n x Pat
  have hl : n < 512 := l.isLt
  refine ⟨fun hr hserv hact hen hport hc hf => ?_, fun hchk => runs_setLane rfl (if_pos hchk), fun rx seed hchk hlock => ?_,
    fun hr hst hleft hgo hmode => ?_, fun k hinj => ?_⟩
  · have hpat (hp : patOn (Machine.fld v 0 3) = true ∨ patOn (Machine.fld v 4 3) = true) :=
      Dev.patCtlWrite_of_pattern hl ⟨hserv, hact, fun p h => (hport p h).1⟩ hen (fun p h => (hport p h).2) hc hf hp
    refine ⟨fun hgen => ?_, fun hchk hne => ?_⟩
    · obtain ⟨honly, htest, -⟩ := hpat (.inl hgen)
      refine takes_laneWrite (by decide) (by decide) hl ⟨fun _ => rfl, rfl, fun _ => rfl⟩ hr ?_
      rw [State.writeAt_patCtl s src v hl]
      obtain ⟨hand, hrd⟩ := laneAnd_of_wr honly
      exact ⟨hand, hrd, htest⟩
    · obtain ⟨honly, htest, hlock⟩ := hpat (.inr hchk)
      refine takes_laneWrite (by decide) (by decide) hl ⟨fun _ => rfl, rfl, fun _ => rfl⟩ hr ?_
      rw [State.writeAt_patCtl s src v hl]
      obtain ⟨hand, hrd⟩ := laneAnd_of_wr honly
      exact ⟨⟨hand, hrd, htest⟩, hlock hne⟩
  · refine runs_dev rfl (if_pos (by rw [hchk]; exact hlock)) ⟨⟨⟨rfl, rfl, rfl⟩, rfl⟩, ?_, ?_, fun a ha => ?_⟩
    · rw [Dev.rd64_add64_ne _ _ (by unfold rl; omega), Dev.rd64_add64_self]
    · rw [Dev.rd64_add64_self, Dev.rd64_add64_ne _ _ (by unfold rl; omega)]
    · simp only [List.mem_cons, List.not_mem_nil, or_false, not_or] at ha
      obtain ⟨h60, h64, h68, h6C⟩ := ha
      have hhi : a ≠ rl 0x60 n + 4 ∧ a ≠ rl 0x68 n + 4 := by unfold rl at *; omega
      exact (Dev.rd_add64_ne _ _ h60 hhi.1).trans (Dev.rd_add64_ne _ _ h68 hhi.2)
  · refine takes_laneWrite (by decide) (by decide) hl ⟨fun _ => rfl, rfl, fun _ => rfl⟩ hr ?_
    rw [State.writeAt_injCtl s src v hl, onDev_of_eq (Dev.injCtlWrite_of_test hst hleft hgo hmode)]
    refine ⟨⟨⟨rfl, rfl, rfl⟩, rfl, fun m hm => Dev.lane_setLane_ne _ _ hm, fun a ha => ?_⟩, Dev.rd_wr_self .., Dev.lane_setLane_self ..⟩
    simp only [List.mem_cons, List.not_mem_nil, or_false, not_or] at ha
    exact (Dev.rd_wr_ne _ _ ha.2).trans (Dev.rd_wr_ne _ _ ha.1)
  · have hrun : exec (.laneInjEnd l) s = .next { s with dev := (s.dev.addSat (rl 0x74 n) k).setLane n { x with inj := none, injOwed := x.injOwed + k } } :=
      congrArg Host.Outcome.next (onDev_of_eq (by rw [show (s.dev.lane l.toNat).inj = some (some k) from hinj]; rfl))
    obtain ⟨hand, hrd⟩ := laneAnd_of_wr (s := s) ((s.dev.addSat (rl 0x74 n) k).onlyLane_setLane n { x with inj := none, injOwed := x.injOwed + k })
    exact ⟨_, hrun, hand, hrd, Dev.lane_setLane_self ..⟩

end Sys2Proof.Claim
end

section
/-! PROOFS. What takes a port down: a lane that leaves service, and a wake that fails (R98, R100, R102, R104, R113). -/

namespace Sys2Proof.Machine

/-! ## What leaves the ports as they are -/

/-- Ports, and which lane belongs to which, are as before. -/
def Dev.PortsStay (d e : Dev) : Prop := e.ports = d.ports ∧ ∀ l, e.portOf l = d.portOf l

namespace Dev.PortsStay
variable {d e f : Dev}

theorem refl : d.PortsStay d := ⟨rfl, fun _ => rfl⟩
theorem trans (h : d.PortsStay e) (k : e.PortsStay f) : d.PortsStay f := ⟨k.1.trans h.1, fun l => (k.2 l).trans (h.2 l)⟩
theorem setLane (d : Dev) (l : Nat) (x : Lane) : d.PortsStay (d.setLane l x) := ⟨rfl, fun _ => rfl⟩
theorem port (h : d.PortsStay e) (p : Nat) : e.port p = d.port p := Dev.port_congr h.1 p

/-- The plat structure of ports stands in block PLAT: what leaves its registers alone leaves every lane its port. -/
theorem of_rd (hp : e.ports = d.ports) (hr : ∀ a, 0xA000000 ≤ a → e.rd a = d.rd a) : d.PortsStay e := by
  have hplat (p : Nat) : e.rd (rp 0xA 0x100 p) = d.rd (rp 0xA 0x100 p) := hr _ (by unfold rp; omega)
  have hvalid : e.pvalid = d.pvalid := funext fun p => by rw [Dev.pvalid, Dev.bit, hplat]; rfl
  have hlane0 : e.lane0 = d.lane0 := funext fun p => by rw [Dev.lane0, Dev.fld, hplat]; rfl
  have hwidth : e.width = d.width := funext fun p => by rw [Dev.width, Dev.wcode, Dev.fld, hplat]; rfl
  exact ⟨hp, fun l => by simp only [Dev.portOf, Dev.validPorts, hvalid, hlane0, hwidth]⟩

theorem wr (d : Dev) {a : Nat} (v : Word) (h : a < 0xA000000) : d.PortsStay (d.wr a v) :=
  .of_rd rfl fun _ hb => Dev.rd_wr_ne _ _ (by omega)

theorem raiseLane (d : Dev) (c : Nat) {l : Nat} (hl : l < 512) : d.PortsStay (d.raiseAt 2 c l l) :=
  .of_rd (Dev.raiseAt_ports ..) fun a ha => d.raiseAt_rd 2 c l l (by simp only [condAddr, if_true, rl]; omega)
    (by simp only [condAddr, if_true, rl]; omega)

/-- A lane that leaves SERVICE. -/
theorem quitService (d : Dev) {l : Nat} (hl : l < 512) : d.PortsStay (d.quitService l) := by
  unfold Dev.quitService
  extract_lets x late d1
  have h1 : d.PortsStay d1 := .setLane ..
  split
  · exact refl
  · split
    · exact h1.trans (.raiseLane _ _ hl)
    · exact h1

theorem toAdapt (d : Dev) {l : Nat} (hl : l < 512) : d.PortsStay (d.toAdapt l) := (quitService d hl).trans (.setLane ..)

end Dev.PortsStay

theorem Dev.quitService_ports (d : Dev) (l : Nat) : (d.quitService l).ports = d.ports := by
  unfold Dev.quitService
  extract_lets x late d1
  have h1 : d1.ports = d.ports := rfl
  split
  · rfl
  · split
    · rw [Dev.raiseAt_ports, h1]
    · exact h1

/-! ## A port's DOWN becomes due (R98, R113) -/

/-- The port keeps its state, and its DOWN is due. -/
def Dev.GoesDown (d e : Dev) (p : Nat) : Prop := (e.port p).st = (d.port p).st ∧ Due.down ∈ (e.port p).due

theorem Dev.goesDown_setPort (d e : Dev) (p : Nat) : d.GoesDown (e.setPort p ((d.port p).duly .down)) p := by
  rw [Dev.GoesDown, Dev.port_setPort_self]
  exact ⟨Port.duly_st .., Port.mem_duly ..⟩

section
variable {d : Dev} {p : Nat} (hdown : (d.port p).st ≠ .down) (hdis : (d.port p).st ≠ .disabled)
include hdown hdis

theorem Dev.portDown_of_active : d.portDown p = d.setPort p ((d.port p).duly .down) := if_neg (by simp [hdown, hdis])

/-- A lane that carries its port and moves makes the port's DOWN due (R98). -/
theorem Dev.moveLane_of_carries {l : Nat} (st : LaneSt) (hl : l < 512) (hc : carries (d.lane l).st = true) (hp : d.portOf l = some p) :
    ∃ e, d.PortsStay e ∧ d.moveLane l st = e.setPort p ((d.port p).duly .down) := by
  unfold Dev.moveLane
  extract_lets was d1
  have hstay : d.PortsStay d1 := by
    simp only [d1]
    split
    · exact .toAdapt d hl
    · exact (Dev.PortsStay.quitService d hl).trans (.setLane ..)
  have hport : d1.port p = d.port p := hstay.port p
  refine ⟨d1, hstay, ?_⟩
  rw [if_pos hc, Dev.laneDown, (hstay.2 l).trans hp, ← hport]
  exact d1.portDown_of_active (hport ▸ hdown) (hport ▸ hdis)

/-- The same, where ports and the lane's state are those of an earlier device. -/
theorem Dev.moveLane_goesDown {e : Dev} {l : Nat} (he : d.PortsStay e) (hst : (e.lane l).st = (d.lane l).st) (st : LaneSt) (hl : l < 512)
    (hc : carries (d.lane l).st = true) (hp : d.portOf l = some p) : d.GoesDown (e.moveLane l st) p := by
  have hport := he.port p
  obtain ⟨f, -, hmove⟩ := Dev.moveLane_of_carries (hport ▸ hdown) (hport ▸ hdis) st hl (hst ▸ hc) ((he.2 l).trans hp)
  rw [hmove, hport]
  exact d.goesDown_setPort f p

/-- A lane that carries its port and loses lock outside electrical idle. -/
theorem Dev.loseLock_goesDown {l : Nat} (hl : l < 512) (hc : carries (d.lane l).st = true) (hp : d.portOf l = some p)
    (hei : (d.lane l).rxEi = false) : d.GoesDown (d.loseLock l) p := by
  have hlose : d.loseLock l = ((d.addSat (rl 0x4C l) 1).raiseAt 2 1 l l).moveLane l .hunt := by simp [Dev.loseLock, hei, hc]
  have hstay := (Dev.PortsStay.wr d (sat32 ((d.rd (rl 0x4C l)).toNat + 1)) (a := rl 0x4C l) (by unfold rl; omega)).trans (.raiseLane _ 1 hl)
  rw [hlose]
  exact Dev.moveLane_goesDown hdown hdis hstay (congrArg Lane.st (Dev.raiseAt_lane ..)) .hunt hl hc hp

/-- A lane that carries its port and loses its signal outside electrical idle. -/
theorem Dev.loseSignal_goesDown {l : Nat} (hl : l < 512) (hc : carries (d.lane l).st = true) (hp : d.portOf l = some p)
    (hei : (d.lane l).rxEi = false) : d.GoesDown (d.loseSignal l) p := by
  have hr : (d.lane l).st ∉ [LaneSt.off, .test, .fault] := by
    revert hc
    cases (d.lane l).st <;> decide
  have hstay : d.PortsStay (d.signalGone l) := (Dev.PortsStay.raiseLane d 2 hl).trans (.setLane ..)
  have hst : ((d.signalGone l).lane l).st = (d.lane l).st := by rw [(d.laneRaised_signalGone l).self]
  rw [Dev.loseSignal_of_active hr hei]
  exact Dev.moveLane_goesDown hdown hdis hstay hst .adapt hl hc hp

/-- A port that fails, with a LANE condition on each of its lanes (R102, R104). -/
theorem Dev.portFail_goesDown (c : Nat) : d.GoesDown ((d.raisePort c p).portFail p) p := by
  have hraise : (d.raisePort c p).ports = d.ports := foldl_keeps Dev.ports _ _ _ fun _ _ => Dev.holdAt_ports ..
  have hretrain (e : Dev) : (e.retrainPort p).ports = e.ports :=
    foldl_keeps Dev.ports _ _ _ fun x l => (Dev.setLane_ports ..).trans (x.quitService_ports l)
  have hport : (d.raisePort c p).port p = d.port p := Dev.port_congr hraise p
  have hfail : ((d.raisePort c p).portFail p).port p = (d.port p).duly .down := by
    rw [Dev.portFail, Dev.port_congr (hretrain _), Dev.portDown_of_active (hport ▸ hdown) (hport ▸ hdis), Dev.port_setPort_self, hport]
  rw [Dev.GoesDown, hfail]
  exact ⟨Port.duly_st .., Port.mem_duly ..⟩

end

/-! ## A port's DOWN takes place (R100, R113) -/

/-- A port that has left is DOWN with cause 0. -/
theorem Dev.portLeave_down (d : Dev) (p : Nat) : ((d.portLeave p .down 0).port p).st = .down ∧ ((d.portLeave p .down 0).port p).cause = 0 := by
  have hquar : (PortSt.down == PortSt.quar) = false := rfl
  unfold Dev.portLeave
  simp only [hquar, Bool.false_eq_true, if_false, Dev.port_setPort_self, and_self]

/-- A lane that carries its port and is disabled takes the port down in the frame of the write (R98, R100). -/
theorem Dev.laneCtlWrite_takesDown {d : Dev} {l p : Nat} {v : Word} (hl : l < 512) (hdown : (d.port p).st ≠ .down)
    (hdis : (d.port p).st ≠ .disabled) (hc : carries (d.lane l).st = true) (hp : d.portOf l = some p) (h0 : Machine.bit v 0 = false) :
    ((d.laneCtlWrite l v).port p).st = .down ∧ ((d.laneCtlWrite l v).port p).cause = 0 := by
  have hen : (d.laneCtlSet l v).laneEn l = false := by simp [Dev.laneEn, Dev.bit_laneCtlSet, h0]
  have hoff : ((d.laneCtlSet l v).lane l).st ≠ .off := fun h => by rw [Dev.lane_laneCtlSet] at h; rw [h] at hc; cases hc
  have hset : (d.laneCtlSet l v).portOf l = some p := (d.portOf_wr_of_lt _ (by have := rl_lt hl; omega) l).trans hp
  obtain ⟨e, he, hmove⟩ := Dev.moveLane_of_carries (d := d.laneCtlSet l v) hdown hdis .off hl hc hset
  have hport : (e.setPort p (((d.laneCtlSet l v).port p).duly .down)).portOf l = some p := (he.2 l).trans hset
  have hdue : ((e.setPort p (((d.laneCtlSet l v).port p).duly .down)).port p).due.contains .down = true := by
    rw [Dev.port_setPort_self, List.contains_iff_mem]; exact Port.mem_duly ..
  rw [Dev.laneCtlWrite_eq, Dev.laneRetrained_of_not (.inr hen), Dev.evalLane_of_disabled hen, if_neg hoff, hmove, Dev.downLane, hport]
  dsimp only
  rw [Dev.downNow, if_pos hdue]
  exact Dev.portLeave_down ..

end Sys2Proof.Machine

namespace Sys2Proof.Claim
open Sys2Proof Sys2Proof.Machine

/-- Settles O15: a lane that moves while it carries its port makes the port's DOWN due, and a write has it take place at once. -/
theorem lossOfALaneTakesPortDown : Obligations.LossOfALaneTakesPortDown := by
  unfold Obligations.LossOfALaneTakesPortDown
  refine ⟨?_, ?_, fun d p => d.portLeave_down p⟩
  · intro s l p hc hp hdown hdis Down
    refine ⟨fun src v hr h0 => ?_, ?_⟩
    · refine takes_laneWrite (by decide) (by decide) l.isLt ⟨fun _ => rfl, rfl, fun _ => rfl⟩ hr ?_
      rw [State.writeAt_laneCtl s src v l.isLt]
      exact ⟨⟨rfl, rfl, rfl⟩, Dev.laneCtlWrite_takesDown l.isLt hdown hdis hc hp h0⟩
    · intro Goes hei
      exact ⟨runs_dev rfl rfl ⟨⟨rfl, rfl, rfl⟩, Dev.loseLock_goesDown hdown hdis l.isLt hc hp hei⟩,
        runs_dev rfl rfl ⟨⟨rfl, rfl, rfl⟩, Dev.loseSignal_goesDown hdown hdis l.isLt hc hp hei⟩⟩
  · intro s p w hage hdown hdis Goes
    have hgoes : Goes { s with dev := (s.dev.raisePort 9 p.toNat).portFail p.toNat } := ⟨⟨rfl, rfl, rfl⟩, Dev.portFail_goesDown hdown hdis 9⟩
    exact ⟨fun hw => runs_dev rfl (by rw [hw]; exact if_pos hage) hgoes,
      fun hw hback => runs_dev rfl (by dsimp only; rw [hw]; exact if_pos ⟨hage, by rw [hback]; rfl⟩) hgoes⟩

end Sys2Proof.Claim
end

section
/-! PROOFS. What only reports on a port: its violations, and the changes of its state that become due (R113, R136, R137). -/

namespace Sys2Proof.Machine

/-- A change of a port's state that is not due yet joins those that are. -/
theorem Port.duly_of_not_mem {u : Due} {x : Port} (h : u ∉ x.due) : x.duly u = { x with due := x.due ++ [u] } := if_neg h

theorem Dev.later_eq (d : Dev) (p : Nat) (u : Due) : d.later p u = d.setPort p ((d.port p).duly u) := rfl

/-- Of the ports only `p` may differ, and not in its state; conditions may join those of the frame, and of the registers only the LINK condition
of the port may change. -/
structure Dev.PortReports (d e : Dev) (p : Nat) : Prop where
  words : d.words ⊆ e.words
  st : (e.port p).st = (d.port p).st
  others : ∀ q, q ≠ p → e.port q = d.port q
  regs : ∀ a, a ≠ condAddr 3 p → a ≠ condAddr 3 p + 4 → e.rd a = d.rd a

namespace Dev.PortReports
variable {d e f : Dev} {p : Nat}

theorem refl : d.PortReports d p := ⟨List.Subset.refl _, rfl, fun _ _ => rfl, fun _ _ _ => rfl⟩

theorem setPort (h : d.PortReports e p) {x : Port} (hx : x.st = (e.port p).st) : d.PortReports (e.setPort p x) p where
  words := h.words
  st := (congrArg Port.st (Dev.port_setPort_self ..)).trans (hx.trans h.st)
  others q hq := (Dev.port_setPort_ne _ _ hq).trans (h.others q hq)
  regs := h.regs

theorem later (h : d.PortReports e p) (u : Due) : d.PortReports (e.later p u) p := h.setPort (Port.duly_st ..)

theorem sendCtl (h : d.PortReports e p) (b : Nat) : d.PortReports (e.sendCtl p b) p := h.setPort rfl

theorem raiseAt (h : d.PortReports e p) (c det : Nat) : d.PortReports (e.raiseAt 3 c det p) p where
  words := by rw [Dev.raiseAt_words]; exact List.subset_append_of_subset_left _ h.words
  st := by rw [Dev.raiseAt_port]; exact h.st
  others q hq := by rw [Dev.raiseAt_port]; exact h.others q hq
  regs a h0 h4 := (e.raiseAt_rd 3 c det p h0 h4).trans (h.regs a h0 h4)

theorem ite {c : Prop} [Decidable c] (h : d.PortReports e p) (k : d.PortReports f p) : d.PortReports (if c then e else f) p := by
  split
  · exact h
  · exact k

end Dev.PortReports

/-- A count in the registers of a port's LINK window does not bear on its role in emulation. -/
theorem Dev.emuRole_addSat (d : Dev) {p o : Nat} (k : Nat) (hp : p < 128) (ho : o < 0x4000) : (d.addSat (rp 3 o p) k).emuRole p = d.emuRole p := by
  have hrd (a : Nat) (ha : 0x6000000 ≤ a) : (d.addSat (rp 3 o p) k).rd a = d.rd a := Dev.rd_wr_ne _ _ (by unfold rp; omega)
  have hdir : (d.addSat (rp 3 o p) k).dir p = d.dir p := congrArg (Machine.fld · 0 3) (hrd (rp 6 0x100 (d.role p)) (by unfold rp; omega))
  have htorus : (d.addSat (rp 3 o p) k).isTorus p = d.isTorus p := by rw [Dev.isTorus, hdir]; rfl
  have hemu : (d.addSat (rp 3 o p) k).fld (rp 0x11 0x100 p) 0 2 = d.fld (rp 0x11 0x100 p) 0 2 :=
    congrArg (Machine.fld · 0 2) (hrd _ (by unfold rp; omega))
  simp only [Dev.emuRole, htorus, hemu]

/-- A violation on a port that is no EMU_CHECK port: counted, then LINK 0Ch, then the port's own reports (R136, R137). -/
theorem Dev.violation_reports {d : Dev} {p : Nat} (code : Nat) (pk : Option Packet) (hp : p < 128) (hemu : d.emuRole p ≠ 2) :
    ((d.addSat (rp 3 0x70 p) 1).raiseAt 3 0xC (code * 256 + p) p).PortReports (d.violation p code pk) p := by
  have hrole : (d.addSat (rp 3 0x70 p) 1).emuRole p ≠ 2 := by rwa [d.emuRole_addSat 1 hp (by omega)]
  unfold Dev.violation
  extract_lets x w d1 d2 n d3 d4 lim
  have h2 : (d1.raiseAt 3 0xC (code * 256 + p) p).PortReports d2 p := by
    have : d2 = d1.raiseAt 3 0xC (code * 256 + p) p := if_neg hrole
    rw [this]
    exact .refl
  have h4 : (d1.raiseAt 3 0xC (code * 256 + p) p).PortReports d4 p :=
    have h3 : (d1.raiseAt 3 0xC (code * 256 + p) p).PortReports d3 p := h2.setPort rfl
    h3.ite (h3.sendCtl _)
  exact ((h4.later _).raiseAt ..).ite h4

end Sys2Proof.Machine
end

section
/-! PROOFS. The partner of a port: IDENT_RECEIVED, TIME_PROBE and TIME_REPLY (R112, R115, R122, R136). -/

namespace Sys2Proof.Machine

/-- The reply to a probe carries its number and the turnaround whole (R115). -/
theorem replyBlk_of_toNat (n : BitVec 3) (ta : BitVec 16) : replyBlk n.toNat ta.toNat = 0x13 + 256 * n.toNat + 2 ^ 16 * ta.toNat := by
  rw [replyBlk, Nat.mod_eq_of_lt n.isLt, Nat.mod_eq_of_lt ta.isLt]

/-- The port after an IDENT in EXCHANGE: the candidate, and the established identity where it repeats the last one (R115). -/
def Port.hearsIdent (x : Port) (i : Ident) : Port := { x with cand := some i, ident := if x.cand = some i then some i else x.ident }

/-- The port after a reply in EXCHANGE: its round trip, and the delay where all eight are known (R115). -/
def Port.hearsReply (x : Port) (n trip : Nat) : Port :=
  let trips := mapPut x.trips n trip
  { x with trips := trips, delay := if trips.length = 8 then some (cdiv ((trips.map (·.2)).foldl min trip) 2) else x.delay }

/-- The running least of a list, begun with `a`, is `a` or of the list, and no more than either. -/
theorem foldl_min_least (a : Nat) (l : List Nat) :
    (l.foldl min a = a ∨ l.foldl min a ∈ l) ∧ l.foldl min a ≤ a ∧ ∀ v ∈ l, l.foldl min a ≤ v := by
  obtain ⟨hmem, hle⟩ := List.min?_eq_some_iff.1 (List.min?_cons' (x := a) (xs := l))
  exact ⟨List.mem_cons.1 hmem, hle a List.mem_cons_self, fun v hv => hle v (List.mem_cons_of_mem _ hv)⟩

end Sys2Proof.Machine

namespace Sys2Proof.Claim
open Sys2Proof Sys2Proof.Machine

/-- An event that makes of the port `y`. -/
theorem runs_setPort {c : Instr} {s : State} {f : Dev → Dev} {n : Nat} {y : Port} (hex : exec c s = devStep f s)
    (he : f s.dev = s.dev.setPort n y) : Runs c s fun t => PortAnd s t n [] [] ∧ t.dev.port n = y :=
  runs_dev hex he ⟨⟨⟨rfl, rfl, rfl⟩, rfl, fun _ hq => Dev.port_setPort_ne _ _ hq, fun _ _ => rfl⟩, Dev.port_setPort_self ..⟩

/-- An IDENT in EXCHANGE (R115). -/
theorem runs_ident_of_exchange {s : State} {p : BitVec 7} {b : BitVec 256} (hst : (s.dev.port p.toNat).st = .exchange) :
    Runs (.identReceived p b) s fun t => PortAnd s t p.toNat [] [] ∧ t.dev.port p.toNat = (s.dev.port p.toNat).hearsIdent (identOf b) :=
  runs_setPort rfl (by dsimp only; rw [hst]; rfl)

/-- A changed IDENT on a port in UP or QUAR is a violation (R122). -/
theorem exec_identReceived_of_changed {s : State} {p : BitVec 7} {b : BitVec 256} {j : Ident}
    (hst : (s.dev.port p.toNat).st = .up ∨ (s.dev.port p.toNat).st = .quar) (hj : (s.dev.port p.toNat).ident = some j) (hne : identOf b ≠ j) :
    exec (.identReceived p b) s = .next { s with dev := s.dev.violation p.toNat 4 none } := by
  refine congrArg Host.Outcome.next (onDev_of_eq ?_)
  rcases hst with hst | hst
  all_goals
    dsimp only
    rw [hst, hj]
    exact (if_neg hne).trans (if_neg fun h => nomatch h.1)

/-- A reply to a probe in EXCHANGE from an identified partner (R115). -/
theorem runs_timeReply_of_exchange {s : State} {p : BitVec 7} (n : BitVec 3) (cyc ta : Nat) (hst : (s.dev.port p.toNat).st = .exchange)
    (hid : (s.dev.port p.toNat).ident.isSome = true) :
    Runs (.timeReply p n cyc ta) s fun t => PortAnd s t p.toNat [] [] ∧
      t.dev.port p.toNat = (s.dev.port p.toNat).hearsReply n.toNat (cyc - ta) :=
  runs_setPort rfl (if_neg (by rw [hst, Option.isNone_eq_false_iff.2 hid]; decide))

/-- Settles O22: an IDENT is noted or violates, a probe is answered, and the least of eight round trips gives the delay. -/
theorem partnerIsIdentifiedAndTimed : Obligations.PartnerIsIdentifiedAndTimed := by
  unfold Obligations.PartnerIsIdentifiedAndTimed
  refine ⟨fun s p b hst => runs_ident_of_exchange hst, fun s p b j hst hj hne hemu => ?_, fun s p n ta => ?_, fun s p n cyc ta hst hid => ?_⟩
  · have hrep := Dev.violation_reports 4 none p.isLt hemu
    have hcount : rp 3 0x70 p.toNat ≠ condAddr 3 p.toNat ∧ rp 3 0x70 p.toNat ≠ condAddr 3 p.toNat + 4 := by simp [condAddr, rp]; omega
    refine ⟨_, exec_identReceived_of_changed hst hj hne, ⟨rfl, rfl, rfl⟩, hrep.words (by simp), ?_, ?_, fun q hq => ?_, fun a ha => ?_⟩
    · rw [hrep.regs _ hcount.1 hcount.2, Dev.raiseAt_rd _ _ _ _ _ hcount.1 hcount.2]
      exact Dev.rd_wr_self ..
    · exact hrep.st.trans (congrArg Port.st (Dev.raiseAt_port ..))
    · exact (hrep.others q hq).trans (Dev.raiseAt_port ..)
    · obtain ⟨hn, hcond⟩ := not_or.1 (mt List.mem_cons.2 ha)
      obtain ⟨h0, h4⟩ := not_mem_condRegs.1 hcond
      rw [hrep.regs a h0 h4, Dev.raiseAt_rd _ _ _ _ _ h0 h4]
      exact Dev.rd_wr_ne _ _ hn
  · split
    next hl =>
      rw [← replyBlk_of_toNat]
      exact runs_setPort rfl (if_pos hl)
    next hl => exact runs_nothing rfl (if_neg hl)
  · obtain ⟨t, hex, hand, hport⟩ := runs_timeReply_of_exchange n cyc ta hst hid
    refine ⟨t, hex, hand, ?_⟩
    dsimp only
    rw [hport]
    refine ⟨rfl, mapGet_put_self .., fun k hk => mapGet_put_ne _ _ _ hk, fun h8 => ⟨_, if_pos h8, ?_⟩⟩
    exact foldl_min_least ..

end Sys2Proof.Claim
end

section
/-! PROOFS. PORT_CHECK and the check that is due (R113, R115, R117, R120, R123). -/

namespace Sys2Proof.Machine

/-! ## A port enters QUAR (R123) -/

/-- FC_XOFF computed anew leaves the rest of its port. -/
theorem Dev.refreshXoff_port (d : Dev) (p : Nat) : ∃ b, (d.refreshXoff p).port p = { d.port p with txXoff := b } := by
  unfold Dev.refreshXoff
  extract_lets old bits
  split
  · exact ⟨(d.port p).txXoff, rfl⟩
  · exact ⟨bits, Dev.port_setPort_self ..⟩

/-- A port that has entered QUAR holds its cause and the frame. -/
theorem Dev.portLeave_quar (d : Dev) (p cause : Nat) : ((d.portLeave p .quar cause).port p).st = .quar ∧
    ((d.portLeave p .quar cause).port p).cause = cause ∧ ((d.portLeave p .quar cause).port p).tQuar = d.now := by
  unfold Dev.portLeave
  extract_lets x quar up d1 d2 d3 live d4 d5 d6
  rw [if_pos (show quar = true from rfl)]
  obtain ⟨b, hb⟩ := Dev.refreshXoff_port (d5.onPort p fun y => { y with
    st := .quar, cause := cause, tQuar := d.now, tOut := if up then d.now else y.tOut, due := []
    decided := false, swapWait := none, remapWait := none, missing := if up then false else y.missing }) p
  rw [hb, Dev.onPort_eq, Dev.port_setPort_self]
  exact ⟨rfl, rfl, rfl⟩

theorem Dev.quarantine_spec (d : Dev) (p cause c det : Nat) : ((d.quarantine p cause c det).port p).st = .quar ∧
    ((d.quarantine p cause c det).port p).cause = cause ∧ ((d.quarantine p cause c det).port p).tQuar = d.now := by
  have h := (d.raiseAt 3 c (det * 256 + p) p).portLeave_quar p cause
  rwa [Dev.raiseAt_now] at h

/-! ## The tests of R117 -/

/-- A port's own record bears on the tests only by the role it plays. -/
theorem Dev.linkTest_setPort {d : Dev} {p : Nat} {y : Port} (h : y.role = (d.port p).role) (i : Ident) (delay : Nat) :
    (d.setPort p y).linkTest p i delay = d.linkTest p i delay := by
  have hrole : (d.setPort p y).role p = d.role p := by rw [Dev.role, Dev.port_setPort_self, h, Dev.role]
  unfold Dev.linkTest
  rw [hrole]
  rfl

/-- The port that enters CHECK (R117). -/
def Port.inCheck (x : Port) (now : Nat) : Port := { x with st := .check, tCheck := now, columns := 0 }

/-- The port that has decided UP, its partner of the same firmware (R120). -/
def Port.decides (x : Port) (now : Nat) : Port :=
  { x with decided := true, tDecide := now, ackRseq := 0, rxTag := 0, rxNext := 0, rxSeen := 0, rxBlocks := 0, reqOpen := false, reqFor := none
           txXoff := 0, fwDiff := false, swapWait := none, remapWait := none, columns := 0 }

/-- Where the partner runs the same firmware and has not sent UP_READY, the decision changes the port alone (R120). -/
theorem Dev.decideUp_of_same {d : Dev} {p : Nat} {i : Ident} (hi : (d.port p).ident = some i) (hfw : i.fwVer = d.col.fwVer)
    (hup : (d.port p).upReady = false) : d.decideUp p = d.setPort p ((d.port p).decides d.now) := by
  have hsame : (i.switch && i.fwVer != d.col.fwVer) = false := by rw [hfw, bne_self_eq_false, Bool.and_false]
  unfold Dev.decideUp
  extract_lets x diff d1 d2
  have hdiff : diff = false := by simp only [diff, x, hi]; exact hsame
  have h1 : d1 = d := if_neg (by simp [hdiff])
  have h2 : d2 = d.setPort p (x.decides d.now) := by simp only [d2, h1, hdiff]; rfl
  rw [if_neg (by rw [hup]; decide), h2]

/-- The evaluation of a port that no other waits for: its own outcome, where it does not fail its role's test (R117). -/
theorem Dev.linkCheck_of_unawaited {d : Dev} {p : Nat} (h : ∀ r, (d.port r).swapWait ≠ some p) (i : Ident) (delay : Nat) :
    (d.linkTest p i delay = none → d.linkCheck p i delay = d.decideUp p) ∧
      ∀ cause c det, d.linkTest p i delay = some (cause, c, det) → cause ≠ 2 → d.linkCheck p i delay = d.quarantine p cause c det := by
  have hwaits : d.validPorts.filter (fun r => (d.port r).st == .check && (d.port r).swapWait == some p) = [] :=
    List.filter_eq_nil_iff.2 fun r _ => by simp [h r]
  unfold Dev.linkCheck
  dsimp only
  rw [hwaits]
  refine ⟨fun ht => by rw [ht]; rfl, fun cause c det ht h2 => ?_⟩
  rw [ht]
  split
  next heq => cases heq
  next heq => cases heq; exact absurd rfl h2
  next heq => cases heq; rfl

theorem Dev.linkTest_inCheck (d : Dev) (p : Nat) (i : Ident) (delay : Nat) :
    (d.setPort p ((d.port p).inCheck d.now)).linkTest p i delay = d.linkTest p i delay :=
  have hrole : ((d.port p).inCheck d.now).role = (d.port p).role := rfl
  Dev.linkTest_setPort hrole i delay

/-- That a port enters CHECK makes none wait for it. -/
theorem Dev.unawaited_inCheck {d : Dev} {p : Nat} (h : ∀ r, (d.port r).swapWait ≠ some p) (r : Nat) :
    ((d.setPort p ((d.port p).inCheck d.now)).port r).swapWait ≠ some p := by
  by_cases hr : r = p
  · rw [hr, Dev.port_setPort_self]; exact h p
  · rw [Dev.port_setPort_ne _ _ hr]; exact h r

section
variable {d : Dev} {p : Nat} {i : Ident} {t : Nat} (hst : (d.port p).st = .exchange) (hi : (d.port p).ident = some i)
  (ht : (d.port p).delay = some t)
include hst hi ht

/-- The check that is due of a port in EXCHANGE (R117). -/
theorem Dev.takeDue_check : d.takeDue p .check = (d.setPort p ((d.port p).inCheck d.now)).linkCheck p i t := by
  change d.checkNow p = _
  unfold Dev.checkNow
  dsimp only
  rw [hi, ht]
  exact if_pos hst

/-- Every test passed, the port decides UP (R120). -/
theorem Dev.takeDue_check_of_passed (hfree : ∀ r, (d.port r).swapWait ≠ some p) (hpass : d.linkTest p i t = none)
    (hfw : i.fwVer = d.col.fwVer) (hup : (d.port p).upReady = false) :
    d.takeDue p .check = (d.setPort p ((d.port p).inCheck d.now)).setPort p (((d.port p).inCheck d.now).decides d.now) := by
  have hport := Dev.port_setPort_self d p ((d.port p).inCheck d.now)
  have htest := (d.linkTest_inCheck p i t).trans hpass
  have hdec := Dev.decideUp_of_same (d := d.setPort p ((d.port p).inCheck d.now)) (p := p) (by rw [hport]; exact hi) hfw (by rw [hport]; exact hup)
  rw [hport] at hdec
  rw [Dev.takeDue_check hst hi ht, (Dev.linkCheck_of_unawaited (Dev.unawaited_inCheck hfree) i t).1 htest]
  exact hdec

/-- A failed test, the role's apart, quarantines the port (R117, R123). -/
theorem Dev.takeDue_check_of_failed (hfree : ∀ r, (d.port r).swapWait ≠ some p) {cause c det : Nat}
    (hfail : d.linkTest p i t = some (cause, c, det)) (h2 : cause ≠ 2) :
    d.takeDue p .check = (d.setPort p ((d.port p).inCheck d.now)).quarantine p cause c det := by
  have htest := (d.linkTest_inCheck p i t).trans hfail
  rw [Dev.takeDue_check hst hi ht, (Dev.linkCheck_of_unawaited (Dev.unawaited_inCheck hfree) i t).2 cause c det htest h2]

end

/-- A control block that joins those that wait. -/
theorem Dev.mem_ctlBlocks_sendCtl (d : Dev) (p b : Nat) : b ∈ ((d.sendCtl p b).port p).ctlBlocks := by
  rw [Dev.sendCtl, Dev.onPort_eq, Dev.port_setPort_self]
  exact List.mem_append_right _ List.mem_cons_self

/-- UP_READY goes with the first column after the decision (R119). -/
theorem Dev.upReadyBlk_mem_dueCtl {d : Dev} {p : Nat} (hst : (d.port p).st = .check) (hdec : (d.port p).decided = true)
    (hcol : (d.port p).columns = 0) : upReadyBlk ∈ ((d.dueCtl p).port p).ctlBlocks := by
  unfold Dev.dueCtl
  dsimp only
  rw [hst, hdec, hcol]
  exact Dev.mem_ctlBlocks_sendCtl ..

end Sys2Proof.Machine

namespace Sys2Proof.Claim
open Sys2Proof Sys2Proof.Machine

/-- Settles O23: PORT_CHECK makes the check due, and the check decides UP or quarantines. -/
theorem portCheckDecides : Obligations.PortCheckDecides := by
  unfold Obligations.PortCheckDecides
  intro s p i dl n x e hst hi hdl hwait
  refine ⟨fun hdue => runs_setPort rfl ?_, fun hfree => ⟨fun hpass hfw hup => ?_, fun cause c det hfail h2 => ?_⟩⟩
  · have hcan : s.dev.canCheck n = true := by
      have hx : (s.dev.port n).st = .exchange ∧ (s.dev.port n).ident = some i ∧ (s.dev.port n).delay = some dl := ⟨hst, hi, hdl⟩
      simp [Dev.canCheck, hx, hwait]
    rw [← Port.duly_of_not_mem hdue]
    exact if_pos hcan
  · have he : e = _ := Dev.takeDue_check_of_passed hst hi hdl hfree hpass hfw hup
    have hport : e.port n = (x.inCheck s.dev.now).decides s.dev.now := by rw [he]; exact Dev.port_setPort_self ..
    refine ⟨by rw [he]; rfl, fun q hq => ?_, hport, ?_⟩
    · rw [he, Dev.port_setPort_ne _ _ hq, Dev.port_setPort_ne _ _ hq]
    · exact Dev.upReadyBlk_mem_dueCtl (by rw [hport]; rfl) (by rw [hport]; rfl) (by rw [hport]; rfl)
  · have he : e = _ := Dev.takeDue_check_of_failed hst hi hdl hfree hfail h2
    rw [he]
    exact Dev.quarantine_spec ..

end Sys2Proof.Claim
end

section
/-! PROOFS. Timers and changes of state on the way up: SWAP_WAIT_EXPIRE, EXCHANGE_TIMEOUT, UP_READY, UP_READY_TIMEOUT and NB_MISSING (R116, R119,
R120, R121, R390). -/

namespace Sys2Proof.Machine

/-! ## A port that fails (R100, R113) -/

/-- What is due stays due. -/
theorem Port.mem_duly_of_mem {u v : Due} {x : Port} (h : u ∈ x.due) : u ∈ (x.duly v).due := by
  unfold Port.duly
  split
  · exact h
  · exact List.mem_append_left _ h

theorem Dev.words_subset_quitService (d : Dev) (l : Nat) : d.words ⊆ (d.quitService l).words := by
  unfold Dev.quitService
  extract_lets x late d1
  split
  · exact List.Subset.refl _
  · split
    · rw [Dev.raiseAt_words]; exact List.subset_append_left ..
    · exact List.Subset.refl _

/-- A port that trains anew keeps what was raised in the frame. -/
theorem Dev.words_subset_retrainPort (d : Dev) (p : Nat) : d.words ⊆ (d.retrainPort p).words := by
  suffices h : ∀ (ls : List Nat) (e : Dev), d.words ⊆ e.words → d.words ⊆ (ls.foldl (fun x l => x.toAdapt l) e).words from
    h _ d (List.Subset.refl _)
  intro ls
  induction ls with
  | nil => exact fun _ h => h
  | cons l ls ih => exact fun e h => ih _ (List.Subset.trans h (e.words_subset_quitService l))

theorem Dev.retrainPort_ports (d : Dev) (p : Nat) : (d.retrainPort p).ports = d.ports :=
  foldl_keeps Dev.ports _ _ _ fun x l => (Dev.setLane_ports ..).trans (x.quitService_ports l)

/-- A port neither DOWN nor DISABLED that fails keeps its state with its DOWN due, and what was raised stays raised. -/
theorem Dev.portFail_spec {d : Dev} {p : Nat} (hdown : (d.port p).st ≠ .down) (hdis : (d.port p).st ≠ .disabled) :
    d.GoesDown (d.portFail p) p ∧ d.words ⊆ (d.portFail p).words := by
  have hdue := Dev.portDown_of_active hdown hdis
  have hport : (d.portFail p).port p = (d.port p).duly .down := by
    rw [Dev.portFail, Dev.port_congr (Dev.retrainPort_ports ..), hdue, Dev.port_setPort_self]
  have hwords : d.words ⊆ (d.portFail p).words := by
    rw [Dev.portFail, hdue]
    exact (d.setPort p _).words_subset_retrainPort p
  exact ⟨⟨by rw [hport]; exact Port.duly_st .., by rw [hport]; exact Port.mem_duly ..⟩, hwords⟩

/-- A port that fails under a LINK condition. -/
theorem Dev.portFail_raised {d : Dev} {p : Nat} (hdown : (d.port p).st ≠ .down) (hdis : (d.port p).st ≠ .disabled) (c : Nat) :
    d.GoesDown ((d.raiseAt 3 c p p).portFail p) p ∧ condWord 3 c p ∈ ((d.raiseAt 3 c p p).portFail p).words := by
  have hport := d.raiseAt_port 3 c p p p
  obtain ⟨⟨hst, hdue⟩, hwords⟩ := Dev.portFail_spec (d := d.raiseAt 3 c p p) (hport ▸ hdown) (hport ▸ hdis)
  exact ⟨⟨hst.trans (congrArg Port.st hport), hdue⟩, hwords (by simp)⟩

/-! ## A wait for a swap (R121) -/

/-- QUAR with cause 3 falls due for a port, and for the other of its pair where that one has not decided. -/
def Dev.swapEnds (d : Dev) (p q : Nat) : Dev :=
  if (d.port q).st = .exchange ∨ ((d.port q).st = .check ∧ ! (d.port q).decided) then (d.later p (.swapped q)).later q (.swapped p)
  else d.later p (.swapped q)

/-- Only the two ports change, by what becomes due. -/
theorem Dev.swapEnds_spec (d : Dev) (p q : Nat) : d.swapEnds p q = { d with ports := (d.swapEnds p q).ports } ∧
    (∀ r, r ≠ p → r ≠ q → (d.swapEnds p q).port r = d.port r) ∧ Due.swapped q ∈ ((d.swapEnds p q).port p).due ∧
    (((d.port q).st = .exchange ∨ ((d.port q).st = .check ∧ (d.port q).decided = false)) →
      Due.swapped p ∈ ((d.swapEnds p q).port q).due) := by
  have hone (e : Dev) (a : Nat) (u : Due) : (e.later a u).port a = (e.port a).duly u := Dev.port_setPort_self ..
  have hother (e : Dev) {a r : Nat} (u : Due) (h : r ≠ a) : (e.later a u).port r = e.port r := Dev.port_setPort_ne _ _ h
  have hp : Due.swapped q ∈ ((d.later p (.swapped q)).port p).due := by rw [hone]; exact Port.mem_duly ..
  unfold Dev.swapEnds
  split
  next =>
    refine ⟨rfl, fun r hr hrq => (hother _ _ hrq).trans (hother _ _ hr), ?_, fun _ => by rw [hone]; exact Port.mem_duly ..⟩
    by_cases hpq : p = q
    · subst hpq
      rw [hone]
      exact Port.mem_duly_of_mem hp
    · rw [hother _ _ hpq]
      exact hp
  next h => exact ⟨rfl, fun r hr _ => hother _ _ hr, hp, fun hq => absurd (by simpa using hq) h⟩

/-! ## A port enters UP (R119, R120) -/

/-- The port that has heard UP_READY (R119). -/
def Port.hearsReady (x : Port) : Port := { x with upReady := true }

/-- The port that enters UP, its transmit state afresh (R120). -/
def Port.comesUp (x : Port) : Port :=
  { x with st := .up, wasUp := true, missing := false, sndRseq := 0, txTag := 0, rxXoff := 0, replay := [], served := none, badTags := [], unsure := []
           rr := 0, visiting := false, deficit := [0, 0, 0, 0, 0], vcLast := [0, 0, 0, 0, 0], idle := 0, violCount := 0
           swapWait := none, remapWait := none }

/-- Without an abort word kept for it, a port that enters UP changes itself and budgets alone. -/
theorem Dev.enterUp_eq {d : Dev} {p : Nat} (hc : d.bit (rp 7 0x100 p) 31 = false) (hf : d.bit (rp 8 0x108 p) 0 = false) :
    ∃ b c, d.enterUp p = { d.setPort p (d.port p).comesUp with bud := b, corr := c } := by
  obtain ⟨b, c, h⟩ := (d.setPort p (d.port p).comesUp).openBud_eq p
  refine ⟨b, c, ?_⟩
  change Dev.sendPend (Dev.openBud (d.setPort p (d.port p).comesUp) p) p = _
  rw [Dev.sendPend_of_none (by rw [h]; exact hc) (by rw [h]; exact hf), h]

theorem Dev.takeDue_up_of_ready {d : Dev} {p : Nat} (hst : (d.port p).st = .check) (hdec : (d.port p).decided = true)
    (hup : (d.port p).upReady = true) : d.takeDue p .up = d.enterUp p :=
  (if_neg (by rw [hst]; decide)).trans (if_pos ⟨hst, hdec, hup⟩)

theorem Dev.takeDue_swapped_of_undecided {d : Dev} {p : Nat} (q : Nat)
    (h : (d.port p).st = .exchange ∨ ((d.port p).st = .check ∧ (d.port p).decided = false)) :
    d.takeDue p (.swapped q) = d.quarantine p 3 7 q := if_pos (by simpa using h)

end Sys2Proof.Machine

namespace Sys2Proof.Claim
open Sys2Proof Sys2Proof.Machine

/-- A wait for a swap, or for the partner's remap, of 8,000 frames (R121). -/
theorem exec_swapWaitExpire_of_late {s : State} {p : BitVec 7} {q : Nat}
    (hq : (s.dev.port p.toNat).swapWait = some q ∨ ((s.dev.port p.toNat).swapWait = none ∧ (s.dev.port p.toNat).remapWait = some q))
    (hst : (s.dev.port p.toNat).st = .check) (hage : 8000 ≤ s.dev.age (s.dev.port p.toNat).tCheck) :
    exec (.swapWaitExpire p) s = .next { s with dev := s.dev.swapEnds p.toNat q } := by
  have hlate : ¬ ((s.dev.port p.toNat).st ≠ .check ∨ s.dev.age (s.dev.port p.toNat).tCheck < 8000) := by simp [hst, hage]
  refine congrArg Host.Outcome.next (onDev_of_eq ?_)
  rcases hq with hq | ⟨hq, hr⟩
  · dsimp only
    rw [hq]
    exact if_neg hlate
  · dsimp only
    rw [hq, hr]
    exact if_neg hlate

/-- A port of the plat out of UP for 640,000 frames is noted, with LINK 06h (R390). -/
theorem runs_nbMissing_of_late {s : State} {p : BitVec 7} (hnb : Machine.bit (s.dev.nb (s.dev.role p.toNat)) 31 = true)
    (hst : (s.dev.port p.toNat).st ≠ .up) (hmiss : (s.dev.port p.toNat).missing = false)
    (hage : 640000 ≤ s.dev.age (s.dev.port p.toNat).tOut) :
    Runs (.nbMissing p) s fun t => Kept s t ∧ t.dev.port p.toNat = { s.dev.port p.toNat with missing := true } ∧
      condWord 3 6 p.toNat ∈ t.dev.words ∧ (∀ q, q ≠ p.toNat → t.dev.port q = s.dev.port q) ∧ RegsBut s t (condRegs 3 p.toNat) := by
  have hport := s.dev.raiseAt_port 3 6 p.toNat p.toNat
  refine runs_dev rfl (if_pos ⟨hnb, hst, by rw [hmiss]; rfl, hage⟩) ⟨⟨rfl, rfl, rfl⟩, ?_, ?_, fun q hq => ?_, fun a ha => ?_⟩
  · rw [Dev.onPort_eq, Dev.port_setPort_self, hport]
  · rw [Dev.onPort_eq, Dev.setPort_words, Dev.raiseAt_words]
    exact List.mem_append_right _ List.mem_cons_self
  · exact (Dev.port_setPort_ne _ _ hq).trans (hport q)
  · exact (raisedOn_raiseAt s.dev 3 6 p.toNat p.toNat).2.2 a ha

/-- UP_READY on a port that has not decided is noted (R119). -/
theorem runs_upReady_of_undecided {s : State} {p : BitVec 7}
    (h : (s.dev.port p.toNat).st = .exchange ∨ ((s.dev.port p.toNat).st = .check ∧ (s.dev.port p.toNat).decided = false)) :
    Runs (.upReady p) s fun t => PortAnd s t p.toNat [] [] ∧ t.dev.port p.toNat = { s.dev.port p.toNat with upReady := true } := by
  have hway : (s.dev.port p.toNat).st = .exchange ∨ (s.dev.port p.toNat).st = .check := h.imp_right (·.1)
  have hdec : ¬ ((s.dev.port p.toNat).st = .check ∧ (s.dev.port p.toNat).decided = true) := by
    rintro ⟨hst, hdec⟩
    rcases h with h | h
    · rw [h] at hst; cases hst
    · rw [h.2] at hdec; cases hdec
  exact runs_setPort rfl ((if_pos hway).trans (if_neg hdec))

/-- UP_READY on a port that has decided makes its UP due too (R119). -/
theorem runs_upReady_of_decided {s : State} {p : BitVec 7} (hst : (s.dev.port p.toNat).st = .check) (hdec : (s.dev.port p.toNat).decided = true)
    (hdue : Due.up ∉ (s.dev.port p.toNat).due) :
    Runs (.upReady p) s fun t => PortAnd s t p.toNat [] [] ∧
      t.dev.port p.toNat = { s.dev.port p.toNat with upReady := true, due := (s.dev.port p.toNat).due ++ [.up] } := by
  have hnoted : (s.dev.setPort p.toNat (s.dev.port p.toNat).hearsReady).port p.toNat = (s.dev.port p.toNat).hearsReady := Dev.port_setPort_self ..
  have hlater := Dev.later_eq (s.dev.setPort p.toNat (s.dev.port p.toNat).hearsReady) p.toNat .up
  rw [hnoted, Port.duly_of_not_mem (x := (s.dev.port p.toNat).hearsReady) hdue] at hlater
  exact runs_dev rfl (((if_pos (.inr hst)).trans (if_pos ⟨hst, hdec⟩)).trans hlater) ⟨⟨⟨rfl, rfl, rfl⟩, rfl,
    fun q hq => (Dev.port_setPort_ne _ _ hq).trans (Dev.port_setPort_ne _ _ hq), fun _ _ => rfl⟩, Dev.port_setPort_self ..⟩

/-- Settles O24: each timer and message makes a change due or takes it, clause by clause. -/
theorem linkTimersAct : Obligations.LinkTimersAct := by
  unfold Obligations.LinkTimersAct
  intro s p n x Goes
  have fails (hdown : x.st ≠ .down) (hdis : x.st ≠ .disabled) : Goes { s with dev := (s.dev.raiseAt 3 3 n n).portFail n } :=
    have ⟨⟨hst, hdue⟩, hword⟩ := Dev.portFail_raised hdown hdis 3
    ⟨⟨rfl, rfl, rfl⟩, hst, hdue, hword⟩
  refine ⟨fun q hq hst hage => ⟨_, exec_swapWaitExpire_of_late hq hst hage, ⟨rfl, rfl, rfl⟩, s.dev.swapEnds_spec n q⟩, fun q hst => ?_,
    fun hst hage => ?_, fun hst => runs_upReady_of_undecided hst,
    fun hst hdec hdue => runs_upReady_of_decided hst hdec hdue, fun hst hdec hup hc hf => ?_, fun hst hdec hage => ?_, runs_nbMissing_of_late⟩
  · rw [Dev.takeDue_swapped_of_undecided q hst]
    obtain ⟨hquar, hcause, -⟩ := s.dev.quarantine_spec n 3 7 q
    exact ⟨hquar, hcause⟩
  · exact runs_dev rfl (if_pos ⟨hst, hage⟩) (fails (by rw [hst]; decide) (by rw [hst]; decide))
  · dsimp only
    have heq := Dev.enterUp_eq hc hf
    have hport := (Dev.same_of_budgets heq).2.1
    rw [Dev.takeDue_up_of_ready hst hdec hup]
    refine ⟨?_, fun q hq => (hport q).trans (Dev.port_setPort_ne _ _ hq), ?_⟩
    · obtain ⟨b, c, h⟩ := heq
      rw [h]
      rfl
    · rw [hport, Dev.port_setPort_self]
      exact ⟨rfl, rfl, rfl, rfl, rfl, rfl, rfl, rfl⟩
  · exact runs_dev rfl (if_pos ⟨hst, hdec, hage⟩) (fails (by rw [hst]; decide) (by rw [hst]; decide))

end Sys2Proof.Claim
end

section
/-! PROOFS. Retry: acknowledgements, REQ, START and the timeout of a REQ (R124, R125, R126, R127). -/

namespace Sys2Proof.Machine

/-! ## Acknowledgement (R125) -/

/-- The port that has freed its first `i` cells. -/
def Port.freed (x : Port) (i : Nat) : Port := { x with replay := x.replay.drop i, fullSeen := if i = 0 then x.fullSeen else false }

/-- An ACK_RSEQ of a held cell or of the next frees what comes before it, and changes nothing else. -/
theorem Dev.ackTo_spec {d : Dev} {p : Nat} {ack : BitVec 12} {i : Nat} (h : ackPos (d.port p) ack = some i) :
    d.ackTo p ack = { d with ports := (d.ackTo p ack).ports } ∧ (∀ q, q ≠ p → (d.ackTo p ack).port q = d.port q) ∧
      (d.ackTo p ack).port p = (d.port p).freed i := by
  unfold Dev.ackTo
  rw [h]
  dsimp only
  split
  next h0 => exact ⟨rfl, fun _ _ => rfl, by rw [h0]; rfl⟩
  next h0 =>
    refine ⟨rfl, fun q hq => Dev.port_setPort_ne _ _ hq, ?_⟩
    rw [Dev.onPort_eq, Dev.port_setPort_self, Port.freed, if_neg h0]

/-! ## A replay (R127) -/

/-- What is left of the cell in progress has as many data blocks as asked for, or all there are. -/
theorem streamData_splitStream (left : Nat) (l : List TxItem) : streamData (splitStream left l).1 = min left (streamData l) := by
  induction l generalizing left with
  | nil => simp [splitStream, streamData]
  | cons t l ih =>
    cases t with
    | start id => simpa [splitStream, streamData] using ih left
    | blk b =>
      cases hb : isData b with
      | false => simpa [splitStream, streamData, hb] using ih left
      | true =>
        cases left with
        | zero => simpa [splitStream, streamData, hb] using ih 0
        | succ n =>
          have := ih n
          simp only [streamData] at this
          simp [splitStream, streamData, hb, this]

/-- Cells of which nothing was sent yet: their data blocks are all taken out of the stream. -/
def Port.unsent (x : Port) : Nat := (splitStream (streamData x.stream % 8) x.stream).2.2 / 8

/-- The first tag of a replay. -/
def Port.replayTag (x : Port) : BitVec 12 := x.txTag - BitVec.ofNat 12 x.unsent

/-- The cells held for replay under their new tags. -/
def Port.retagged (x : Port) : List RCell := x.replay.zipIdx.map fun c => { c.1 with tag := x.replayTag + BitVec.ofNat 12 c.2 }

theorem Port.length_retagged (x : Port) : x.retagged.length = x.replay.length := by simp [Port.retagged]

/-- All but the tags stays in order. -/
theorem Port.retagged_map {α : Type} (x : Port) (f : RCell → α) (hf : ∀ c t, f { c with tag := t } = f c) :
    x.retagged.map f = x.replay.map f := by
  refine List.ext_getElem (by simp [x.length_retagged]) fun k _ _ => ?_
  simp [Port.retagged, hf]

/-- The new tags follow one another. -/
theorem Port.retagged_tag (x : Port) {k : Nat} (hk : k < x.replay.length) :
    (x.retagged.map (·.tag))[k]? = some (x.replayTag + BitVec.ofNat 12 k) := by
  simp [Port.retagged, hk]

/-- What is sent after START: the blocks of the cells (R87). -/
def replayStream (id : BitVec 6) (cells : List RCell) : List TxItem :=
  .start id :: cells.flatMap fun c => (cellBlocks c.pk c.idx).map .blk

/-- A REQ with a new REQ_ID for a cell held, or the next: the earlier cells are freed, the others go again under new tags. -/
theorem Dev.reqIn_of_new {d : Dev} {p : Nat} {ack : BitVec 12} {id : BitVec 6} {i : Nat} (hnew : (d.port p).served ≠ some id)
    (hpos : ackPos (d.port p) ack = some i) :
    let y := (d.port p).freed i
    ∃ z : Port, d.reqIn p ack id = (((d.ackTo p ack).setPort p z).add64 (rp 3 0x58 p) (y.retagged.length - y.unsent)).emit (.start p id y.retagged) ∧
      z.served = some id ∧ z.sndRseq = y.sndRseq ∧ z.replay = y.retagged ∧ z.txTag = y.replayTag + BitVec.ofNat 12 y.retagged.length ∧
      z.stream = (splitStream (streamData y.stream % 8) y.stream).1 ++ replayStream id y.retagged := by
  obtain ⟨-, -, hport⟩ := Dev.ackTo_spec hpos
  intro y
  unfold Dev.reqIn
  dsimp only
  rw [if_neg hnew, hpos]
  dsimp only
  rw [Dev.onPort_eq, hport]
  exact ⟨_, rfl, rfl, rfl, rfl, rfl, rfl⟩

/-! ## A REQ asked again (R126) -/

/-- The port as it asks again with the ACK_RSEQ of its run of REQ_IDs. -/
def Port.reasks (x : Port) (ack : BitVec 12) (now : Nat) : Port :=
  { x with reqAck := ack, reqId := x.reqId + 1, reqOpen := true, resumed := false, reqTries := x.reqTries + 1, reqFor := some ack, reqAt := now }

/-- One more REQ of a run: counted and sent. -/
def Dev.reasked (d : Dev) (p : Nat) (ack : BitVec 12) : Dev :=
  ((d.setPort p ((d.port p).reasks ack d.now)).add64 (rp 3 0x50 p) 1).emit (.req p ack ((d.port p).reqId + 1))

/-- The fourth REQ with one ACK_RSEQ takes the port down. -/
theorem Dev.issueReq_of_again {d : Dev} {p : Nat} {ack : BitVec 12} (h : (d.port p).reqFor = some ack) :
    d.issueReq p ack = if 3 ≤ (d.port p).reqTries then ((d.reasked p ack).raiseAt 3 1 p p).portFail p else d.reasked p ack := by
  unfold Dev.issueReq
  extract_lets x id tries d1
  have ht : tries = x.reqTries + 1 := if_pos h
  have h1 : d1 = d.reasked p ack := by simp only [d1, ht]; rfl
  rw [ht, h1]
  simp only [Nat.succ_le_succ_iff, x]

theorem Dev.port_reasked (d : Dev) (p : Nat) (ack : BitVec 12) : (d.reasked p ack).port p = (d.port p).reasks ack d.now := by
  rw [Dev.reasked, Dev.port_emit, Dev.port_congr (Dev.add64_ports ..), Dev.port_setPort_self]

/-- A linked port is neither DOWN nor DISABLED. -/
theorem linked_active {st : PortSt} (h : linked st = true) : st ≠ .down ∧ st ≠ .disabled := by
  constructor
  all_goals
    rintro rfl
    cases h

end Sys2Proof.Machine

namespace Sys2Proof.Claim
open Sys2Proof Sys2Proof.Machine

section
variable {s : State} {p : BitVec 7}

/-- Port `p` changes, a counter of its own counts and one output joins. -/
theorem portAnd_of_counted {e : Dev} (he : ∃ l, e = { s.dev with ports := l }) (hothers : ∀ q, q ≠ p.toNat → e.port q = s.dev.port q)
    (z : Port) (o k : Nat) (out : Out) :
    let t : State := { s with dev := ((e.setPort p.toNat z).add64 (rp 3 o p.toNat) k).emit out }
    PortAnd s t p.toNat [rp 3 o p.toNat, rp 3 (o + 4) p.toNat] [out] ∧ t.dev.port p.toNat = z ∧
      t.dev.rd64 (rp 3 o p.toNat) = (s.dev.rd64 (rp 3 o p.toNat) + k) % 2 ^ 64 := by
  have haddr : rp 3 (o + 4) p.toNat = rp 3 o p.toNat + 4 := by unfold rp; omega
  have hport (q : Nat) : (((e.setPort p.toNat z).add64 (rp 3 o p.toNat) k).emit out).port q = (e.setPort p.toNat z).port q :=
    (Dev.port_emit ..).trans (Dev.port_congr (Dev.add64_ports ..) q)
  have hrd (a : Nat) : (((e.setPort p.toNat z).add64 (rp 3 o p.toNat) k).emit out).rd a = (s.dev.add64 (rp 3 o p.toNat) k).rd a := by
    obtain ⟨l, rfl⟩ := he
    rfl
  have hdev : ((e.setPort p.toNat z).add64 (rp 3 o p.toNat) k).emit out =
      { s.dev with ports := (((e.setPort p.toNat z).add64 (rp 3 o p.toNat) k).emit out).ports
                   regs := (((e.setPort p.toNat z).add64 (rp 3 o p.toNat) k).emit out).regs, out := [out] ++ s.dev.out } := by
    obtain ⟨l, rfl⟩ := he
    rfl
  generalize ((e.setPort p.toNat z).add64 (rp 3 o p.toNat) k).emit out = f at *
  refine ⟨⟨⟨rfl, rfl, rfl⟩, hdev, fun q hq => ?_, fun a ha => ?_⟩, (hport _).trans (Dev.port_setPort_self ..), ?_⟩
  · exact ((hport q).trans (Dev.port_setPort_ne _ _ hq)).trans (hothers q hq)
  · simp only [List.mem_cons, List.not_mem_nil, or_false, not_or, haddr] at ha
    exact (hrd a).trans (Dev.rd_add64_ne _ _ ha.1 ha.2)
  · exact (Dev.rd64_congr hrd _).trans (Dev.rd64_add64_self ..)

/-- A REQ open for 8 frames is asked again, or its port fails (R126). -/
theorem exec_reqTimeout_of_late (hopen : (s.dev.port p.toNat).reqOpen = true) (hage : 8 ≤ s.dev.age (s.dev.port p.toNat).reqAt)
    (hfor : (s.dev.port p.toNat).reqFor = some (s.dev.port p.toNat).reqAck) :
    exec (.reqTimeout p) s = .next { s with dev :=
      let e := s.dev.reasked p.toNat (s.dev.port p.toNat).reqAck
      if 3 ≤ (s.dev.port p.toNat).reqTries then (e.raiseAt 3 1 p.toNat p.toNat).portFail p.toNat else e } :=
  congrArg Host.Outcome.next (onDev_of_eq ((if_pos ⟨hopen, hage⟩).trans (Dev.issueReq_of_again hfor)))

variable (hl : linked (s.dev.port p.toNat).st = true)
include hl

/-- An acknowledgement (R125). -/
theorem runs_ack {ack : BitVec 12} {i : Nat} (hpos : ackPos (s.dev.port p.toNat) ack = some i) :
    Runs (.ackReceived p ack) s fun t => PortAnd s t p.toNat [] [] ∧ t.dev.port p.toNat = (s.dev.port p.toNat).freed i := by
  obtain ⟨hdev, hothers, hport⟩ := Dev.ackTo_spec hpos
  refine runs_dev rfl (if_pos hl) ⟨⟨⟨rfl, rfl, rfl⟩, ?_, hothers, fun a _ => ?_⟩, hport⟩
  · dsimp only
    rw [hdev]
    rfl
  · dsimp only
    rw [hdev]
    rfl

/-- A REQ with a new REQ_ID (R127). -/
theorem runs_req_of_new {ack : BitVec 12} {id : BitVec 6} {i : Nat} (hnew : (s.dev.port p.toNat).served ≠ some id)
    (hpos : ackPos (s.dev.port p.toNat) ack = some i) :
    Runs (.retryReqReceived p ack id) s fun t =>
      let y := (s.dev.port p.toNat).freed i
      let z := t.dev.port p.toNat
      PortAnd s t p.toNat [rp 3 0x58 p.toNat, rp 3 0x5C p.toNat] [.start p.toNat id y.retagged] ∧
      t.dev.rd64 (rp 3 0x58 p.toNat) = (s.dev.rd64 (rp 3 0x58 p.toNat) + (y.retagged.length - y.unsent)) % 2 ^ 64 ∧
      z.served = some id ∧ z.sndRseq = y.sndRseq ∧ z.replay = y.retagged ∧ z.txTag = y.replayTag + BitVec.ofNat 12 y.retagged.length ∧
      z.stream = (splitStream (streamData y.stream % 8) y.stream).1 ++ replayStream id y.retagged := by
  obtain ⟨hdev, hothers, -⟩ := Dev.ackTo_spec hpos
  obtain ⟨z, hreq, hz⟩ := Dev.reqIn_of_new hnew hpos
  obtain ⟨hand, hport, hcount⟩ := portAnd_of_counted ⟨_, hdev⟩ hothers z 0x58
    (((s.dev.port p.toNat).freed i).retagged.length - ((s.dev.port p.toNat).freed i).unsent) (.start p.toNat id ((s.dev.port p.toNat).freed i).retagged)
  exact runs_dev rfl ((if_pos hl).trans hreq) ⟨hand, hcount, hport.symm ▸ hz⟩

/-- A START with the REQ_ID asked (R126). -/
theorem runs_start_of_asked {id : BitVec 6} (hopen : (s.dev.port p.toNat).reqOpen = true) (hid : (s.dev.port p.toNat).reqId = id) :
    Runs (.retryStartReceived p id) s fun t => PortAnd s t p.toNat [] [] ∧ t.dev.port p.toNat =
      { (if (s.dev.port p.toNat).resumed then s.dev.port p.toNat else (s.dev.port p.toNat).atStart) with reqOpen := false, resumed := false } :=
  runs_setPort rfl ((if_pos hl).trans (if_pos ⟨hopen, hid⟩))

end

/-- Settles O26: acknowledgement, replay, START and the timeout, clause by clause. -/
theorem retryReplaysInOrder : Obligations.RetryReplaysInOrder := by
  unfold Obligations.RetryReplaysInOrder
  intro s p n x hl
  refine ⟨fun ack i hpos => runs_ack hl hpos, fun ack id i hnew hpos => ?_, fun ack id hserved => ?_,
    fun id hopen hid => runs_start_of_asked hl hopen hid, fun hopen hage hfor htries => ?_, fun hopen hage hfor htries => ?_⟩
  · obtain ⟨t, hex, hand, hcount, hserved, hsnd, hrep, htag, hstream⟩ := runs_req_of_new hl hnew hpos
    have hlen : ((s.dev.port p.toNat).freed i).retagged.length = (x.replay.drop i).length := Port.length_retagged _
    refine ⟨t, hex, ?_⟩
    dsimp only
    rw [hrep, htag, hlen]
    rw [hlen] at hcount
    refine ⟨hand, hserved, hsnd, Port.retagged_map _ _ fun _ _ => rfl, Port.retagged_map _ _ fun _ _ => rfl,
      Port.retagged_map _ _ fun _ _ => rfl, rfl, fun k hk => Port.retagged_tag _ hk, hcount, _, ?_, hstream⟩
    rw [streamData_splitStream]
    exact Nat.min_eq_left (Nat.mod_le ..)
  · exact runs_nothing rfl ((if_pos hl).trans (if_pos hserved))
  · have hex := exec_reqTimeout_of_late hopen hage hfor
    dsimp only at hex
    rw [if_neg (Nat.not_le.2 htries)] at hex
    obtain ⟨hand, hport, hcount⟩ := portAnd_of_counted (s := s) (p := p) ⟨_, rfl⟩ (fun _ _ => rfl) (x.reasks x.reqAck s.dev.now) 0x50 1
      (.req n x.reqAck (x.reqId + 1))
    refine ⟨_, hex, hand, hport.trans ?_, hcount⟩
    simp only [Port.reasks, hopen, hfor]
  · have hex := exec_reqTimeout_of_late hopen hage hfor
    dsimp only at hex
    rw [if_pos htries] at hex
    have hst : ((s.dev.reasked n x.reqAck).port n).st = x.st := by rw [Dev.port_reasked]; rfl
    obtain ⟨hdown, hdis⟩ := linked_active hl
    obtain ⟨⟨hkeeps, hdue⟩, hword⟩ := Dev.portFail_raised (d := s.dev.reasked n x.reqAck) (p := n) (hst ▸ hdown) (hst ▸ hdis) 1
    exact ⟨_, hex, ⟨rfl, rfl, rfl⟩, hkeeps.trans hst, hdue, hword⟩

end Sys2Proof.Claim
end

section
/-! PROOFS. ORDER_PRESENT, ORDER_RELEASE and ORDER_TIMEOUT: an ORDER packet meets its tracker (R164, R165, R166). -/

namespace Sys2Proof.Machine

/-! ## What leaves packets, queues and trackers alone -/

/-- The packets, the output queues, the ORDER trackers and the next number stay. -/
structure Dev.SamePackets (d e : Dev) : Prop where
  pkts : e.pkts = d.pkts
  queue : e.queue = d.queue
  trks : e.trks = d.trks
  nextId : e.nextId = d.nextId

namespace Dev.SamePackets

theorem refl (d : Dev) : d.SamePackets d := ⟨rfl, rfl, rfl, rfl⟩

theorem trans {d e f : Dev} (h : d.SamePackets e) (k : e.SamePackets f) : d.SamePackets f :=
  ⟨k.pkts.trans h.pkts, k.queue.trans h.queue, k.trks.trans h.trks, k.nextId.trans h.nextId⟩

theorem of_reports {d e : Dev} (h : d.OnlyReports e) : d.SamePackets e := by
  obtain ⟨_, _, _, _, rfl⟩ := h
  exact ⟨rfl, rfl, rfl, rfl⟩

theorem of_holds {d e : Dev} (h : d.OnlyHolds e) : d.SamePackets e := by
  obtain ⟨_, _, _, _, rfl⟩ := h
  exact ⟨rfl, rfl, rfl, rfl⟩

theorem orderCond (d : Dev) (c : Nat) (ing o : Option Nat) : d.SamePackets (d.orderCond c ing o) :=
  .of_reports ((Dev.OnlyReports.countPkt d c ing).trans (.raiseAt ..))

theorem sample (d : Dev) (p dir : Nat) (pk : Packet) : d.SamePackets (d.sample p dir pk) := by
  unfold Dev.sample
  extract_lets r n cnt d1 k size tail head rec_ d2
  have h1 : d.SamePackets d1 := ⟨rfl, rfl, rfl, rfl⟩
  split_ifs
  · exact refl d
  · exact h1
  · have hsat : d1.SamePackets (d1.addSat (ra 5 (0x400F10 + 0x1000 * k)) 1) := ⟨rfl, rfl, rfl, rfl⟩
    exact (h1.trans hsat).trans (.of_reports (.raiseOnce ..))
  · exact ⟨rfl, rfl, rfl, rfl⟩

theorem countInj (d : Dev) (k : Pkt) (o : Nat) : d.SamePackets (d.countInj k o) := by
  unfold Dev.countInj
  split
  · exact refl d
  · exact ⟨rfl, rfl, rfl, rfl⟩

theorem patAccepted (d : Dev) (k : Pkt) : d.SamePackets (d.patAccepted k) := by
  unfold Dev.patAccepted
  split
  · dsimp only
    split
    · exact ⟨rfl, rfl, rfl, rfl⟩
    · exact refl d
  · exact refl d

theorem wmark (d : Dev) (a n : Nat) : d.SamePackets (d.wmark a n) := by
  unfold Dev.wmark
  split
  · exact ⟨rfl, rfl, rfl, rfl⟩
  · exact refl d

end Dev.SamePackets

/-! ## Acceptance (R164, R182, R186) -/

/-- An entry of packet `id` waits for output `o`, its train not begun. -/
def Dev.Awaits (d : Dev) (id o : Nat) : Prop := ∃ q ∈ d.queue, q.pid = id ∧ q.out = o ∧ q.begun = false

/-- From `d` to `e` one number is taken for an entry of packet `id`, which waits for output `o`; packets and trackers stay. -/
structure Dev.Queued (d e : Dev) (id o : Nat) : Prop where
  pkts : e.pkts = d.pkts
  trks : e.trks = d.trks
  nextId : e.nextId = d.nextId + 1
  waits : e.Awaits id o

theorem Dev.Queued.then_same {d e f : Dev} {id o : Nat} (h : d.Queued e id o) (k : e.SamePackets f) : d.Queued f id o :=
  ⟨k.pkts.trans h.pkts, k.trks.trans h.trks, k.nextId.trans h.nextId, by rw [Dev.Awaits, k.queue]; exact h.waits⟩

/-- An entry that joins the queue waits; what is marked in the entries afterwards lets it wait. -/
theorem Dev.enqueue_queued (d : Dev) (k : Pkt) (t : Tgt) (o : Nat) (next : Bool) : d.Queued (d.enqueue k t o next) k.id o := by
  unfold Dev.enqueue
  extract_lets hd c n cid b b' d1 _ _ q d2 mk d3 d4 _ d5
  have h1 : d.SamePackets d1 := by
    dsimp only [d1]
    split <;> exact ⟨rfl, rfl, rfl, rfl⟩
  have hjoin : d.Queued { d1 with queue := d1.queue ++ [q], nextId := d1.nextId + 1 } k.id o :=
    ⟨h1.pkts, h1.trks, congrArg (· + 1) h1.nextId, q, by simp, rfl, rfl, rfl⟩
  have h2 : d.Queued d2 k.id o := (hjoin.then_same ⟨rfl, rfl, rfl, rfl⟩).then_same (.of_holds (.handOut ..))
  have h3 : d.Queued d3 k.id o := by
    dsimp only [d3]
    split
    · obtain ⟨x, hx, hpid, hout, hbegun⟩ := h2.waits
      exact ⟨h2.pkts, h2.trks, h2.nextId, _, List.mem_map_of_mem hx, by split <;> exact ⟨hpid, hout, hbegun⟩⟩
    · exact h2
  have h4 : d.Queued d4 k.id o := (h3.then_same (.countInj ..)).then_same (.patAccepted ..)
  have h5 : d.Queued d5 k.id o := by
    dsimp only [d5]
    split
    · exact h4.then_same ⟨rfl, rfl, rfl, rfl⟩
    · exact h4
  exact h5.then_same (.wmark ..)

/-- A confirmed ORDER packet that is accepted leaves the device's packets, and no tracker counts it. -/
theorem Dev.accepted_of_order {d : Dev} {k : Pkt} (horder : k.pk.hdr.order = true) (hconf : k.conf = true)
    (hwatch : isWatched k.pk.hdr = false) (o : Nat) : (d.rmPkt k.id).SamePackets (d.accepted k o) := by
  unfold Dev.accepted
  extract_lets hd cnt d1 d2 d3
  have h1 : d1 = d := if_neg (by simp [cnt, hd, horder])
  have h2 : d.SamePackets d2 := by
    dsimp only [d2]
    rw [h1]
    split
    · rw [if_pos hconf]
      exact .sample ..
    · exact .refl d
  rw [if_pos (by simp [hd, hconf, hwatch])]
  exact ⟨congrArg (List.filter _) h2.pkts, h2.queue, h2.trks, h2.nextId⟩

/-! ## ORD_DONE (R165) -/

/-- At most one packet joins, under the next number; queues and trackers stay. -/
structure Dev.MayAdd (d e : Dev) : Prop where
  pkts : ∀ x ∈ e.pkts, x ∈ d.pkts ∨ x.id = d.nextId
  queue : e.queue = d.queue
  trks : e.trks = d.trks

theorem Dev.ordDone_mayAdd (d : Dev) (h : Header) (status : Nat) : d.MayAdd (d.ordDone h status) := by
  unfold Dev.ordDone Dev.send
  obtain ⟨e, he, hadd⟩ := d.originate_cases _ none none false
  have hsame := Dev.SamePackets.of_reports he
  rcases hadd with hadd | ⟨k, hadd⟩ <;> rw [hadd]
  · exact ⟨fun x hx => .inl (hsame.pkts ▸ hx), hsame.queue, hsame.trks⟩
  · refine ⟨fun x hx => ?_, hsame.queue, hsame.trks⟩
    rcases List.mem_append.1 hx with hx | hx
    · exact .inl (hsame.pkts ▸ hx)
    · exact .inr ((congrArg Pkt.id (List.mem_singleton.1 hx)).trans hsame.nextId)

/-! ## Trackers (R164) -/

/-- The tracker in its next epoch, whose count begins at 0. -/
def Trk.next (t : Trk) : Trk := if t.q then { t with k1 := 0, q := false } else { t with k0 := 0, q := true }

theorem Dev.nextEpoch_trk (d : Dev) (o : Nat) (src : BitVec 16) :
    mapGet {} (d.nextEpoch o src).trks (trkKey o src) = (mapGet {} d.trks (trkKey o src)).next := mapGet_set_self ..

/-- A packet that has a tracked port asks for order. -/
theorem Dev.order_of_orderPort {d : Dev} {k : Pkt} {o : Nat} (h : d.orderPort k = some o) : k.pk.hdr.order = true := by
  by_contra hn
  simp [Dev.orderPort, hn] at h

/-- Granted by its output, a confirmed ORDER packet that met its tracker is accepted, and its tracker begins its next epoch. -/
theorem Dev.orderOffer_of_grant {d : Dev} {k : Pkt} {o r o1 : Nat} {tg : Tgt} {rest : List Tgt} {nx : Bool}
    (horder : k.pk.hdr.order = true) (hconf : k.conf = true) (hwatch : isWatched k.pk.hdr = false) (hid : k.id < d.nextId)
    (htgts : k.tgts = tg :: rest) (hgrant : d.tryTgt r k tg = .ok o1 nx) :
    let e := d.orderOffer r k o true
    (∀ x ∈ e.pkts, x.id ≠ k.id) ∧ e.Awaits k.id o1 ∧
      mapGet {} e.trks (trkKey o k.pk.hdr.srcId) = (mapGet {} d.trks (trkKey o k.pk.hdr.srcId)).next := by
  have hoffer : d.orderOffer r k o true =
      (((d.enqueue k tg o1 nx).accepted k o1).nextEpoch o k.pk.hdr.srcId).ordDone k.pk.hdr 0 := by
    simp [Dev.orderOffer, htgts, hgrant]
  have hqueued := d.enqueue_queued k tg o1 nx
  have hacc := Dev.accepted_of_order (d := d.enqueue k tg o1 nx) horder hconf hwatch o1
  have hdone := (((d.enqueue k tg o1 nx).accepted k o1).nextEpoch o k.pk.hdr.srcId).ordDone_mayAdd k.pk.hdr 0
  rw [← hoffer] at hdone
  refine ⟨fun x hx => ?_, ?_, ?_⟩
  · rcases hdone.pkts x hx with hx | hx
    · exact Dev.not_mem_rmPkt _ _ x (hacc.pkts ▸ hx)
    · have hnum : x.id = d.nextId + 1 := hx.trans (hacc.nextId.trans hqueued.nextId)
      omega
  · rw [Dev.Awaits, hdone.queue]
    show ((d.enqueue k tg o1 nx).accepted k o1).Awaits k.id o1
    rw [Dev.Awaits, hacc.queue]
    exact hqueued.waits
  · have htrks : ((d.enqueue k tg o1 nx).accepted k o1).trks = d.trks := hacc.trks.trans hqueued.trks
    rw [hdone.trks, Dev.nextEpoch_trk, htrks]

/-- Timed out, an ORDER packet leaves the device, and its tracker begins its next epoch (R166). -/
theorem Dev.orderTimeout_spec (d : Dev) (k : Pkt) (o : Nat) :
    let e := d.orderTimeout k o
    (∀ x ∈ e.pkts, x.id ≠ k.id) ∧
      mapGet {} e.trks (trkKey o k.pk.hdr.srcId) = (mapGet {} d.trks (trkKey o k.pk.hdr.srcId)).next := by
  refine ⟨Dev.not_mem_rmPkt _ _, ?_⟩
  have hdone := ((((d.nextEpoch o k.pk.hdr.srcId).add64 (ra 4 0x10) 1).orderCond 0xC k.ing (some o)).ordDone_mayAdd k.pk.hdr 1).trks
  have hcond := (Dev.SamePackets.orderCond ((d.nextEpoch o k.pk.hdr.srcId).add64 (ra 4 0x10) 1) 0xC k.ing (some o)).trks
  exact (congrArg (mapGet {} · _) (hdone.trans hcond)).trans (d.nextEpoch_trk o k.pk.hdr.srcId)

/-! ## A packet that presents (R164, R166) -/

section
variable {d : Dev} {k : Pkt} {o r : Nat}

theorem Dev.orderPresent_of_busy (hbusy : d.orderBusy k o = true) : ∀ x ∈ (d.orderPresent r k o).pkts, x.id ≠ k.id := by
  rw [Dev.orderPresent, if_pos hbusy]
  exact Dev.not_mem_rmPkt _ _

variable (hfree : d.orderBusy k o = false)
include hfree

theorem Dev.orderPresent_of_met (hmet : orderMet (mapGet {} d.trks (trkKey o k.pk.hdr.srcId)) k.pk.hdr = true) :
    d.orderPresent r k o = d.orderOffer r k o true := by
  rw [Dev.orderPresent, if_neg (by simp [hfree]), if_pos hmet]

theorem Dev.orderPresent_of_unmet (hmet : orderMet (mapGet {} d.trks (trkKey o k.pk.hdr.srcId)) k.pk.hdr = false) :
    d.orderPresent r k o = d.onPkt k.id (fun x => { x with st := .ordHeld, since := d.now }) := by
  rw [Dev.orderPresent, if_neg (by simp [hfree]), if_neg (by simp [hmet])]

end
end Sys2Proof.Machine

namespace Sys2Proof.Claim
open Sys2Proof Sys2Proof.Machine

/-! ## The commands of an ORDER packet of the device -/

section
variable {s : State} {id o : Nat} {k : Pkt} (hk : s.dev.pkt id = some k) (ho : s.dev.orderPort k = some o)
include hk ho

theorem runs_orderPresent_of_head (hst : k.st = .hold) (hconf : k.conf = true) (hhead : s.dev.isHead k = true) (haff : s.dev.affected k = none)
    (hpark : s.dev.behindParked k = false) {P : State → Prop} (hP : P { s with dev := (s.dev.orderPresent 0 k o).holdsMoved }) :
    Runs (.orderPresent id) s P :=
  runs_dev rfl (by simp [hk, ho, hst, hconf, hhead, haff, hpark]) hP

theorem runs_orderRelease_of_met (hst : k.st = .ordHeld)
    (hmet : orderMet (mapGet {} s.dev.trks (trkKey o k.pk.hdr.srcId)) k.pk.hdr = true) {P : State → Prop}
    (hP : P { s with dev := (s.dev.onPkt id (fun y => { y with st := .released })).holdsMoved }) : Runs (.orderRelease id) s P :=
  runs_dev rfl (by simp [hk, ho, hst, hmet]) hP

theorem runs_orderTimeout_of_late (hst : k.st = .ordHeld)
    (hmet : orderMet (mapGet {} s.dev.trks (trkKey o k.pk.hdr.srcId)) k.pk.hdr = false)
    (hlate : max 1 (s.dev.fld (ra 4 4) 0 16) ≤ s.dev.age k.since) {P : State → Prop}
    (hP : P { s with dev := (s.dev.orderTimeout k o).holdsMoved }) : Runs (.orderTimeout id) s P := by
  refine runs_dev rfl ?_ hP
  simp only [hk, ho]
  exact if_pos ⟨hst, hlate, by simp [hmet]⟩

end

/-- Settles O31: an ORDER packet that presents, is released or is late, clause by clause. -/
theorem orderPacketsMeetTheirTracker : Obligations.OrderPacketsMeetTheirTracker := by
  unfold Obligations.OrderPacketsMeetTheirTracker
  intro s id o k d tr hk ho
  obtain rfl : k.id = id := Dev.id_of_pkt hk
  have hmoved (e : Dev) : e.SamePackets e.holdsMoved := .of_holds (.holdsMoved e)
  refine ⟨fun hst hconf hhead haff hpark => ?_, fun hst hmet => ?_, fun hst hmet hlate => ?_⟩
  · have present {P : State → Prop} : P { s with dev := (d.orderPresent 0 k o).holdsMoved } → Runs (.orderPresent k.id) s P :=
      runs_orderPresent_of_head hk ho hst hconf hhead haff hpark
    refine ⟨fun hbusy => present ?_, fun hfree hmet hwatch hid tg rest o1 nx htgts hgrant => present ?_, fun hfree hmet => present ?_⟩
    · refine ⟨⟨rfl, rfl, rfl⟩, ?_⟩
      rw [(hmoved _).pkts]
      exact Dev.orderPresent_of_busy hbusy
    · obtain ⟨hgone, hwaits, htrk⟩ :=
        Dev.orderOffer_of_grant (o := o) (Dev.order_of_orderPort ho) hconf hwatch hid htgts hgrant
      rw [Dev.orderPresent_of_met hfree hmet]
      refine ⟨⟨rfl, rfl, rfl⟩, ?_⟩
      rw [(hmoved _).pkts, (hmoved _).queue, (hmoved _).trks]
      exact ⟨hgone, hwaits, htrk⟩
    · rw [Dev.orderPresent_of_unmet hfree hmet]
      exact ⟨⟨rfl, rfl, rfl⟩, rfl⟩
  · exact runs_orderRelease_of_met hk ho hst hmet ⟨⟨rfl, rfl, rfl⟩, rfl⟩
  · refine runs_orderTimeout_of_late hk ho hst hmet hlate ⟨⟨rfl, rfl, rfl⟩, ?_⟩
    rw [(hmoved _).pkts, (hmoved _).trks]
    exact Dev.orderTimeout_spec d k o

end Sys2Proof.Claim
end

section
/-! PROOFS. ADMISSION_ROUND: a packet that presents alone is accepted (R182, R183, R186). -/

namespace Sys2Proof.Machine

/-! ## What leaves packets, queues, budgets and losses alone -/

/-- The packets, the output queues, the budgets and the losses still to be settled stay. -/
structure Dev.SameStock (d e : Dev) : Prop where
  pkts : e.pkts = d.pkts
  queue : e.queue = d.queue
  bud : e.bud = d.bud
  lost : e.lost = d.lost

namespace Dev.SameStock

theorem refl (d : Dev) : d.SameStock d := ⟨rfl, rfl, rfl, rfl⟩

theorem trans {d e f : Dev} (h : d.SameStock e) (k : e.SameStock f) : d.SameStock f :=
  ⟨k.pkts.trans h.pkts, k.queue.trans h.queue, k.bud.trans h.bud, k.lost.trans h.lost⟩

theorem of_reports {d e : Dev} (h : d.OnlyReports e) : d.SameStock e := by
  obtain ⟨_, _, _, _, rfl⟩ := h
  exact ⟨rfl, rfl, rfl, rfl⟩

theorem of_holds {d e : Dev} (h : d.OnlyHolds e) : d.SameStock e := by
  obtain ⟨_, _, _, _, rfl⟩ := h
  exact ⟨rfl, rfl, rfl, rfl⟩

theorem sample (d : Dev) (p dir : Nat) (pk : Packet) : d.SameStock (d.sample p dir pk) := by
  unfold Dev.sample
  extract_lets r n cnt d1 k size tail head rec_ d2
  have h1 : d.SameStock d1 := ⟨rfl, rfl, rfl, rfl⟩
  split_ifs
  · exact refl d
  · exact h1
  · have hsat : d1.SameStock (d1.addSat (ra 5 (0x400F10 + 0x1000 * k)) 1) := ⟨rfl, rfl, rfl, rfl⟩
    exact (h1.trans hsat).trans (.of_reports (.raiseOnce ..))
  · exact ⟨rfl, rfl, rfl, rfl⟩

theorem countInj (d : Dev) (k : Pkt) (o : Nat) : d.SameStock (d.countInj k o) := by
  unfold Dev.countInj
  split
  · exact refl d
  · exact ⟨rfl, rfl, rfl, rfl⟩

theorem wmark (d : Dev) (a n : Nat) : d.SameStock (d.wmark a n) := by
  unfold Dev.wmark
  split
  · exact ⟨rfl, rfl, rfl, rfl⟩
  · exact refl d

theorem stepEpochs (d : Dev) (l : List Pkt) : d.SameStock (d.stepEpochs l) := by
  unfold Dev.stepEpochs
  induction l generalizing d with
  | nil => exact refl d
  | cons k l ih =>
    rw [List.foldl_cons]
    refine trans ?_ (ih _)
    split
    · split
      · exact ⟨rfl, rfl, rfl, rfl⟩
      · exact refl d
    · exact refl d

end Dev.SameStock

/-! ## Acceptance at an output (R178, R182, R186) -/

/-- Only a packet of a pattern source moves its source's list on (R509). -/
theorem Dev.patAccepted_of_plain (d : Dev) {k : Pkt} (h : k.use = .plain) : d.patAccepted k = d := by
  rw [Dev.patAccepted, h]

/-- Leaving, a packet keeps its class and its cells: its VC, HOPS and intermediate device alone differ (R147, R161, R205, R220). -/
@[simp] theorem Dev.outHdr_cls (d : Dev) (k : Pkt) (t : Tgt) (o : Nat) : (d.outHdr k t o).cls = k.pk.hdr.cls := by
  unfold Dev.outHdr
  extract_lets h h1
  split <;> rfl

@[simp] theorem Dev.cellsOfPkt_outHdr (d : Dev) (k : Pkt) (t : Tgt) (o : Nat) : cellsOfPkt (d.outHdr k t o) = cellsOfPkt k.pk.hdr := by
  unfold Dev.outHdr
  extract_lets h h1
  split <;> rfl

/-- What is left of a budget of this frame and the next when `n` cells are drawn from the one or the other (R186). -/
def budLess (b : Nat × Nat) (n : Nat) (next : Bool) : Nat × Nat := if next then (b.1, b.2 - n) else (b.1 - n, b.2)

/-- An entry of packet `k` for target `t` at output `o`, drawn from the budget of frame `draw`, its train not begun. -/
def QEnt.IsFor (q : QEnt) (k : Pkt) (t : Tgt) (o draw : Nat) : Prop :=
  q.pid = k.id ∧ q.out = o ∧ q.cls = k.pk.hdr.cls.toNat ∧ q.vc = t.vc ∧ q.n = cellsOfPkt k.pk.hdr ∧ q.begun = false ∧ q.conf = k.conf ∧
    q.draw = draw

/-- The entry with its packet marked (R209, R210). -/
def QEnt.marked (q : QEnt) : QEnt := { q with pk := { q.pk with hdr := { q.pk.hdr with mark := true } } }

/-- From `d` to `e` packet `k` has joined the queue of output `o` as its last entry, and its cells are drawn from the budget of its
class; packets and losses stay. -/
structure Dev.Joined (d e : Dev) (k : Pkt) (t : Tgt) (o : Nat) (next : Bool) : Prop where
  pkts : e.pkts = d.pkts
  lost : e.lost = d.lost
  queue : ∃ q : QEnt, e.queue = d.queue ++ [q] ∧ q.IsFor k t o (d.now + b2n next)
  bud : e.budOf o k.pk.hdr.cls.toNat = budLess (d.budOf o k.pk.hdr.cls.toNat) (cellsOfPkt k.pk.hdr) next

theorem Dev.Joined.then_same {d e f : Dev} {k : Pkt} {t : Tgt} {o : Nat} {next : Bool} (h : d.Joined e k t o next) (m : e.SameStock f) :
    d.Joined f k t o next :=
  ⟨m.pkts.trans h.pkts, m.lost.trans h.lost, m.queue ▸ h.queue, by rw [Dev.budOf, m.bud]; exact h.bud⟩

/-- Changing the entry under the next number leaves those numbered before it. -/
theorem map_append_of_fresh_key {l : List QEnt} {q : QEnt} (f : QEnt → QEnt) (hl : ∀ e ∈ l, e.key < q.key) :
    (l ++ [q]).map (fun x => if x.key = q.key then f x else x) = l ++ [f q] := by
  have hold : ∀ e ∈ l, (if e.key = q.key then f e else e) = id e := fun e he => if_neg (hl e he).ne
  rw [List.map_append, List.map_congr_left hold, List.map_id, List.map_singleton, if_pos rfl]

/-- A packet that is no CORR packet joins its output's queue on its class's budget; the mark it may get there is its entry's alone. -/
theorem Dev.enqueue_joined (d : Dev) {k : Pkt} (t : Tgt) (o : Nat) (next : Bool) (hcls : k.pk.hdr.cls.toNat ≠ 1) (huse : k.use = .plain)
    (hkeys : ∀ e ∈ d.queue, e.key < d.nextId) : d.Joined (d.enqueue k t o next) k t o next := by
  unfold Dev.enqueue
  extract_lets hd c n cid b b' d1 pk arr q d2 mk d3 d4 col d5
  have hc : c = k.pk.hdr.cls.toNat := congrArg BitVec.toNat (d.outHdr_cls k t o)
  have hn : n = cellsOfPkt k.pk.hdr := d.cellsOfPkt_outHdr k t o
  have h1 : d1 = d.setBud o c (budLess (d.budOf o c) n next) := if_neg (hc ▸ hcls)
  clear_value d1
  subst h1
  have hq : q.IsFor k t o (d.now + b2n next) := ⟨rfl, rfl, hc, rfl, hn, rfl, rfl, rfl⟩
  have hsame : Dev.SameStock { d.setBud o c (budLess (d.budOf o c) n next) with queue := d.queue ++ [q], nextId := d.nextId + 1 } d2 :=
    .trans ⟨rfl, rfl, rfl, rfl⟩ (.of_holds (.handOut ..))
  have hbud : d2.budOf o c = budLess (d.budOf o c) n next := by
    rw [Dev.budOf, hsame.bud]
    exact (d.budOf_setBud ..).trans (if_pos rfl)
  have h2 : d.Joined d2 k t o next := ⟨hsame.pkts, hsame.lost, ⟨q, hsame.queue, hq⟩, by rw [← hc, ← hn, hbud]⟩
  have h3 : d.Joined d3 k t o next := by
    dsimp only [d3]
    split
    · have hmark : (d2.queue.map fun x => if x.key = q.key then x.marked else x) = d.queue ++ [q.marked] :=
        (congrArg _ hsame.queue).trans (map_append_of_fresh_key QEnt.marked hkeys)
      exact ⟨h2.pkts, h2.lost, ⟨q.marked, hmark, hq⟩, h2.bud⟩
    · exact h2
  have h4 : d.Joined d4 k t o next := by
    dsimp only [d4]
    rw [Dev.patAccepted_of_plain _ huse]
    exact h3.then_same (.countInj ..)
  have h5 : d.Joined d5 k t o next := by
    dsimp only [d5]
    split
    · exact h4.then_same ⟨rfl, rfl, rfl, rfl⟩
    · exact h4
  exact h5.then_same (.wmark ..)

/-- A confirmed packet that is accepted and that no launch or dispatch watches leaves the device's packets. -/
theorem Dev.accepted_of_conf {d : Dev} {k : Pkt} (hconf : k.conf = true) (hwatch : isWatched k.pk.hdr = false) (o : Nat) :
    (d.rmPkt k.id).SameStock (d.accepted k o) := by
  unfold Dev.accepted
  extract_lets hd cnt d1 d2 d3
  have h1 : d.SameStock d1 := by
    dsimp only [d1]
    split
    · exact ⟨rfl, rfl, rfl, rfl⟩
    · exact .refl d
  have h2 : d.SameStock d2 := by
    dsimp only [d2]
    split
    · rw [if_pos hconf]
      exact h1.trans (.sample ..)
    · exact h1
  rw [if_pos (by simp [hd, hconf, hwatch])]
  exact ⟨congrArg (List.filter _) h2.pkts, h2.queue, h2.bud, h2.lost⟩

/-! ## The round of a packet that presents alone (R62, R183) -/

/-- One contender's order is itself. -/
theorem Dev.tieOrder_singleton (d : Dev) (k : Pkt) : d.tieOrder [k] = [k] := by
  unfold Dev.tieOrder rotate
  by_cases h : k.st = .released <;> simp [h, Nat.mod_one]

theorem Dev.serve_nil (d : Dev) (r : Nat) : d.serve r [] = d := rfl

/-- What meets nothing else is a part of its own. -/
theorem components_singleton {α : Type} (meet : α → α → Bool) (x : α) : components meet [x] = [[x]] := rfl

/-- A packet that meets no other takes its turn. -/
theorem Dev.serve_singleton (d : Dev) (r : Nat) (k : Pkt) : d.serve r [k] = d.turn r k := by
  simp [Dev.serve, components_singleton, Dev.tieOrder_singleton]

section
variable {d : Dev} {r : Nat} {k : Pkt} (hpkt : d.pkt k.id = some k) (horder : d.orderPort k = none)
include horder

/-- A packet that presents alone and that no tracker compares has the round's one turn; then the epochs may end. -/
theorem Dev.round_of_alone (halone : d.pkts.filter d.presents = [k]) : (d.turn r k).SameStock (d.round r) := by
  have hround : d.round r = (d.turn r k).stepEpochs ([k].filter (fun x => x.st == .released)) := by
    simp [Dev.round, halone, horder, Dev.serve_singleton, Dev.serve_nil]
  rw [hround]
  exact .stepEpochs ..

include hpkt

/-- In its turn, a packet that no drain affects and no parked packet precedes is offered to its output. -/
theorem Dev.turn_of_free (haff : d.affected k = none) (hpark : d.behindParked k = false) : d.turn r k = (d.offer r k).1 := by
  simp [Dev.turn, hpkt, horder, haff, hpark]

end

/-- A unicast that its output grants is accepted there. -/
theorem Dev.offer_of_grant {d : Dev} {r : Nat} {k : Pkt} {t : Tgt} {o : Nat} {next : Bool} (hone : k.mcast = false) (htgts : k.tgts = [t])
    (hgrant : d.tryTgt r k t = .ok o next) : d.offer r k = ((d.enqueue k t o next).accepted k o, true) := by
  simp [Dev.offer, hone, htgts, hgrant]

end Sys2Proof.Machine

namespace Sys2Proof.Claim
open Sys2Proof Sys2Proof.Machine

/-- A round that leaves no loss to settle ends with the holds' flow control. -/
theorem runs_admissionRound_of_lossless {s : State} {r : BitVec 4} (hlost : (s.dev.round r.toNat).lost = []) {P : State → Prop}
    (hP : P { s with dev := (s.dev.round r.toNat).holdsMoved }) : Runs (.admissionRound r) s P :=
  runs_dev rfl (congrArg Dev.holdsMoved (Dev.settleLoss_of_none hlost)) hP

/-- Settles O30: the packet's turn is its offer, the grant queues it and draws its cells, and what follows leaves both alone. -/
theorem admissionAcceptsPacket : Obligations.AdmissionAcceptsPacket := by
  unfold Obligations.AdmissionAcceptsPacket
  intro s r k tg o nx d c n halone hpkt horder haff hpark hone hconf huse hwatch htgts hcls hgrant hlost hkeys
  have hturn : d.turn r.toNat k = (d.enqueue k tg o nx).accepted k o := by
    rw [Dev.turn_of_free hpkt horder haff hpark, Dev.offer_of_grant hone htgts hgrant]
  have hjoin : d.Joined (d.enqueue k tg o nx) k tg o nx := d.enqueue_joined tg o nx hcls huse hkeys
  have hround : ((d.enqueue k tg o nx).rmPkt k.id).SameStock (d.round r.toNat) :=
    (Dev.accepted_of_conf hconf hwatch o).trans (hturn ▸ Dev.round_of_alone horder halone)
  refine runs_admissionRound_of_lossless (hround.lost.trans (hjoin.lost.trans hlost)) ⟨⟨rfl, rfl, rfl⟩, ?_⟩
  have hend : ((d.enqueue k tg o nx).rmPkt k.id).SameStock (d.round r.toNat).holdsMoved := hround.trans (.of_holds (.holdsMoved _))
  obtain ⟨q, hqueue, hpid, hout, hqcls, hvc, hcells, hbegun, hqconf, hdraw⟩ := hjoin.queue
  refine ⟨hend.pkts.trans (congrArg (List.filter _) hjoin.pkts), ⟨q, hend.queue.trans hqueue, hpid, hout, hqcls, hvc, hcells, hbegun,
    hqconf.trans hconf, hdraw⟩, ?_⟩
  rw [Dev.budOf, hend.bud]
  exact hjoin.bud

end Sys2Proof.Claim
end

section
/-! PROOFS. An activation of routing armed, cancelled and drained, and the coordinate written (R198, R199, R222, R223, R226). -/

namespace Sys2Proof.Machine

/-! ## The coordinate (R198, R199) -/

theorem State.writeAt_coord (s : State) (src : Src) (v : Word) : s.writeAt src (ra 6 0) v = s.onDev (fun d => d.coordWrite src v) := rfl

/-- A torus port that keeps the coordinate from being written (R199). -/
def Dev.coordBusy (d : Dev) : Bool :=
  d.validPorts.any (fun p => d.isTorus p && [PortSt.check, .up, .quar].contains (d.port p).st)

theorem Dev.coordWrite_of_allowed {d : Dev} {src : Src} (v : Word) (hc : isCol src = true) (hs : Machine.bit d.straps 15 = true)
    (hb : d.coordBusy = false) : d.coordWrite src v = { d with coord := BitVec.ofNat 12 (Machine.fld v 0 12), coordV := true } := by
  unfold Dev.coordBusy at hb
  simp only [Dev.coordWrite, hc, hs, hb]
  rfl

theorem Dev.coordWrite_of_refused {d : Dev} {src : Src} (v : Word)
    (h : isCol src = false ∨ Machine.bit d.straps 15 = false ∨ d.coordBusy = true) : d.coordWrite src v = d.raiseAt 6 2 (srcLevel src) 0 := by
  have hn : (isCol src && Machine.bit d.straps 15 && ! d.coordBusy) = false := by
    rcases h with h | h | h <;> simp [h]
  unfold Dev.coordBusy at hn
  simp only [Dev.coordWrite, hn]
  rfl

/-! ## Arming and cancelling (R222, R226) -/

theorem State.writeAt_routeActCtl (s : State) (src : Src) (v : Word) : s.writeAt src (ra 6 0x40) v = s.routeActCtl v := rfl

/-- The fields of ROUTE_ACT_CTL as a write leaves them. -/
def routeFields (v : Word) : Word := v &&& 0x000F7F7F

/-- The device with the fields of ROUTE_ACT_CTL written. -/
def Dev.routeCtlSet (d : Dev) (v : Word) : Dev := d.wr (ra 6 0x40) (routeFields v)

theorem State.routeActCtl_of_go {s : State} {v : Word} (hg : Machine.bit v 31 = true) (hc : Machine.bit v 30 = false) :
    s.routeActCtl v = (s.onDev (fun d => d.routeCtlSet v)).routeGo := by simp [State.routeActCtl, hg, hc, Dev.routeCtlSet, routeFields]

theorem State.routeActCtl_of_cancel {s : State} {v : Word} (hg : Machine.bit v 31 = false) (hc : Machine.bit v 30 = true) :
    s.routeActCtl v = s.onDev (fun d => (d.routeCtlSet v).routeCancel) := by
  simp [State.routeActCtl, hg, hc, Dev.routeCtlSet, routeFields, State.onDev_onDev]

theorem Dev.rd_routeCtlSet_self (d : Dev) (v : Word) : (d.routeCtlSet v).rd (ra 6 0x40) = routeFields v := Dev.rd_wr_self ..

theorem Dev.rd64_routeCtlSet (d : Dev) (v : Word) : (d.routeCtlSet v).rd64 (ra 6 0x44) = d.rd64 (ra 6 0x44) := by
  rw [Dev.rd64, Dev.routeCtlSet, Dev.rd_wr_ne _ _ (by decide), Dev.rd_wr_ne _ _ (by decide)]
  rfl

theorem Dev.ovlOn_routeCtlSet (d : Dev) (v : Word) {n : Nat} (h : n < 4) : (d.routeCtlSet v).ovlOn n = d.ovlOn n :=
  congrArg (Machine.bit · 31) (Dev.rd_wr_ne d _ (by unfold ra; omega))

/-- The activation that the fields `c` of ROUTE_ACT_CTL arm for frame `t` (R222). -/
def routeAct (c : Word) (t : Nat) : Act :=
  { t := t, drain := drainOf (Machine.fld c 0 6), ovl := if Machine.bit c 18 then some (Machine.fld c 16 2) else none
    amend := Machine.bit c 19, classes := Machine.fld c 8 7, park := Machine.bit c 6 }

/-- The stage holds an amendment that an activation can take: staged, recorded, and with room in the boot partition (R222). -/
structure State.CanAmend (s : State) : Prop where
  load : s.dev.plat.load = .staged
  kind : cKind s.nv.stage = 1
  room : s.nv.bootUsed + bootRoom s.nv.stage ≤ 0x1000000
  digest : s.dev.plat.digest = sha256 s.nv.stage

/-- A GO that meets no reason to refuse it arms what the fields name. -/
theorem State.routeGo_of_allowed {s : State} {c : Word} {t : Nat} (hrd : s.dev.rd (ra 6 0x40) = c) (ht : s.dev.rd64 (ra 6 0x44) % 2 ^ 48 = t)
    (hal : s.dev.aligned = true) (hlo : s.dev.fno + drainOf (Machine.fld c 0 6) < t) (hhi : t ≤ s.dev.fno + 2 ^ 20)
    (hr : s.dev.ract = none) (hp : s.dev.plat.act = none) (hovl : Machine.bit c 18 = true → s.dev.ovlOn (Machine.fld c 16 2) = true)
    (ham : Machine.bit c 19 = true → s.CanAmend) : s.routeGo = s.onDev (fun d => { d with ract := some (routeAct c t) }) := by
  subst hrd ht
  have hstaged (h : Machine.bit (s.dev.rd (ra 6 0x40)) 19 = true) : (s.dev.plat.load == .staged && cKind s.nv.stage == 1) = true := by
    simp [(ham h).load, (ham h).kind]
  unfold State.routeGo
  dsimp only
  rw [if_neg (by simp [hal]), if_neg (Nat.not_le.2 hlo), if_neg (by simp [hr, hp]), if_neg (Nat.not_lt.2 hhi),
    if_neg fun h => by simp [hovl h.1] at h, if_neg fun h => by simp [hstaged h.1] at h,
    if_neg fun h => Nat.not_lt.2 (ham h.1).room h.2, if_neg fun h => h.2 (ham h.1).digest]
  rfl

theorem Dev.routeCancel_of_armed {d : Dev} (h : d.ract ≠ none) (hd : d.ractDue = false) : d.routeCancel = { d with ract := none } :=
  if_pos ⟨Option.isSome_iff_ne_none.2 h, by rw [hd]; rfl⟩

theorem Dev.routeCancel_of_not {d : Dev} (h : d.ract = none ∨ d.ractDue = true) : d.routeCancel = d.raiseAt 6 5 0x600 0 :=
  if_neg (by rcases h with h | h <;> simp [h])

/-- At S, before T, the device drains (R223). -/
theorem execDrainStart_of_due {s : State} {a : Act} (ha : s.dev.ract = some a) (hd : a.draining = false) (hlo : a.t ≤ s.dev.fno + a.drain)
    (hhi : s.dev.fno < a.t) : execDrainStart s =
      .next (s.onDev (fun d => ({ d with ract := some { a with draining := true } } : Dev).raiseAt 6 6 (a.ovl.getD 0) 0)) := by
  simp only [execDrainStart, devStep, State.onDev, ha]
  rw [if_pos ⟨by simp [hd], hlo, hhi⟩]
  rfl

end Sys2Proof.Machine

namespace Sys2Proof.Claim
open Sys2Proof Sys2Proof.Machine

/-- Settles O35: the coordinate's write, arming, cancelling and the start of the drain, each by the operation it comes to. -/
theorem routingActivationIsArmed : Obligations.RoutingActivationIsArmed := by
  unfold Obligations.RoutingActivationIsArmed
  refine ⟨fun s src v hr => ?_, fun s src v hr => ?_, fun s a ha hd hlo hhi => ?_⟩
  · have takes {e : Dev} {P : State → Prop} (he : s.dev.coordWrite src v = e) (hP : P { s with dev := e }) : Takes (.coordWrite src v) s P :=
      WriteCmd.takes (a := ra 6 0) ⟨fun _ => rfl, rfl, fun _ => rfl⟩ hr (by decide) (by decide) (isRwl_of_blk_ne (by decide))
        (by rwa [State.writeAt_coord, onDev_of_eq he])
    refine ⟨fun hc hs hb => takes (Dev.coordWrite_of_allowed v hc hs hb) ⟨⟨rfl, rfl, rfl⟩, rfl⟩, fun h => ?_⟩
    exact takes (Dev.coordWrite_of_refused v h) ⟨⟨rfl, rfl, rfl⟩, raisedOn_raiseAt ..⟩
  · have takes {c : Instr} (hc : WriteCmd c src (ra 6 0x40) v) {P : State → Prop} (hP : P (s.routeActCtl v)) : Takes c s P :=
      hc.takes hr (by decide) (by decide) (isRwl_of_blk_ne (by decide)) (by rwa [State.writeAt_routeActCtl])
    refine ⟨fun hg hc hal hlo hhi hra hp hovl ham => takes ⟨fun _ => rfl, rfl, fun _ => rfl⟩ ?_, fun hg hc => ⟨fun ha hd => ?_, fun h => ?_⟩⟩
    · have hset : (s.onDev (fun d => d.routeCtlSet v)).dev.rd (ra 6 0x40) = routeFields v := s.dev.rd_routeCtlSet_self v
      have hgo := State.routeGo_of_allowed hset (congrArg (· % 2 ^ 48) (s.dev.rd64_routeCtlSet v)) hal hlo hhi hra hp
        (fun h => (s.dev.ovlOn_routeCtlSet v (fld_lt _ 16 2)).trans (hovl h))
        (fun h => by obtain ⟨hl, hk, hroom, hdig⟩ := ham h; exact ⟨hl, hk, hroom, hdig⟩)
      rw [State.routeActCtl_of_go hg hc, hgo]
      exact ⟨⟨rfl, rfl, rfl⟩, regsBut_wr s _ _, Dev.rd_wr_self .., rfl⟩
    · refine takes ⟨fun _ => rfl, rfl, fun _ => rfl⟩ ?_
      rw [State.routeActCtl_of_cancel hg hc, onDev_of_eq (Dev.routeCancel_of_armed (d := s.dev.routeCtlSet v) ha hd)]
      exact ⟨⟨rfl, rfl, rfl⟩, regsBut_wr s _ _, rfl⟩
    · refine takes ⟨fun _ => rfl, rfl, fun _ => rfl⟩ ?_
      rw [State.routeActCtl_of_cancel hg hc, onDev_of_eq (Dev.routeCancel_of_not (d := s.dev.routeCtlSet v) h)]
      refine ⟨⟨rfl, rfl, rfl⟩, by simp, fun a ha => ?_, by simp [Dev.routeCtlSet]⟩
      obtain ⟨hctl, hcond⟩ := not_or.1 (mt List.mem_cons.2 ha)
      exact ((raisedOn_raiseAt (s.dev.routeCtlSet v) 6 5 0x600 0).2.2 a hcond).trans (Dev.rd_wr_ne _ _ hctl)
  · exact ⟨_, execDrainStart_of_due ha hd hlo hhi, ⟨rfl, rfl, rfl⟩, raisedOn_raiseAt ..⟩

end Sys2Proof.Claim
end

section
/-! PROOFS. What the frame of an activation leaves of routing: nothing that goes with it arms an activation, changes the active overlay
or takes back a condition word (R224, R228). -/

namespace Sys2Proof.Machine

/-- Going from `d` to `e` what is armed and the active overlay stay, and so do the frame's condition words. -/
structure Dev.RouteStays (d e : Dev) : Prop where
  ract : e.ract = d.ract
  ovl : e.ovl = d.ovl
  words : d.words ⊆ e.words

namespace Dev.RouteStays

theorem refl (d : Dev) : d.RouteStays d := ⟨rfl, rfl, List.Subset.refl _⟩

theorem trans {d e f : Dev} (h : d.RouteStays e) (k : e.RouteStays f) : d.RouteStays f :=
  ⟨k.ract.trans h.ract, k.ovl.trans h.ovl, List.Subset.trans h.words k.words⟩

variable {d e f : Dev} (h : d.RouteStays e)
include h

/-- A change beside all of that. -/
theorem keep (hr : f.ract = e.ract := by rfl) (ho : f.ovl = e.ovl := by rfl) (hw : f.words = e.words := by rfl) : d.RouteStays f :=
  ⟨hr.trans h.ract, ho.trans h.ovl, hw ▸ h.words⟩

theorem ite {c : Prop} [Decidable c] (k : d.RouteStays f) : d.RouteStays (if c then e else f) := by
  split
  · exact h
  · exact k

theorem foldl {α : Type} {f : Dev → α → Dev} {l : List α} (hf : ∀ (x : Dev) (a : α), d.RouteStays x → d.RouteStays (f x a)) :
    d.RouteStays (l.foldl f e) :=
  List.foldlRecOn l f h fun x hx a _ => hf x a hx

section
variable {b c det g i k n p r cls slice dst seq : Nat} {w m : Word}

/-! ### Conditions, counts and packets originated (R75, R158, R161) -/

theorem raise : d.RouteStays (e.raise b c det) :=
  ⟨(e.raiseAt_ract ..).trans h.ract, (e.raiseAt_ovl ..).trans h.ovl, by simpa using List.subset_append_of_subset_left _ h.words⟩

theorem raiseOnce : d.RouteStays (e.raiseOnce m b c det) := .ite h h.raise
theorem countPkt {ing : Option Nat} : d.RouteStays (e.countPkt c ing) := by cases ing <;> exact h.keep
theorem countDrop : d.RouteStays (e.countDrop p c k n i) := .ite h.keep h

theorem settleDrop {ing : Option Nat} {x : Header} {dr : Drop} : d.RouteStays (e.settleDrop ing x dr) := by
  unfold Dev.settleDrop
  split
  · exact .ite h.countPkt.raise h.countPkt.raiseOnce
  · exact (h.keep (f := e.add64 ..)).raiseOnce
  · exact h.countDrop.raiseOnce
  · exact h.countDrop.raiseOnce
  · exact h
  · exact h.countDrop

theorem originate {pk : Packet} {dir cin : Option Nat} {col : Bool} : d.RouteStays (e.originate pk dir cin col) := by
  have hlost {x : Header} {dr : Cause → Drop} {l : List Cause} : d.RouteStays (l.foldl (fun y c => y.settleDrop none x (dr c)) e) :=
    h.foldl fun _ _ h => h.settleDrop
  unfold Dev.originate
  dsimp only
  split
  · exact h.settleDrop
  · exact .ite h.settleDrop (.ite hlost hlost.keep)

theorem send {x : List Byte} : d.RouteStays (e.send c cls slice dst seq x) := h.originate

/-! ### Packets dropped (R158, R224) -/

theorem noteLoss {pk : Packet} {dr : Drop} : d.RouteStays (e.noteLoss pk dr) := by
  unfold Dev.noteLoss
  refine .ite ?_ h
  split <;> exact h.keep

theorem answer {ing : Option Nat} {x : Header} {y : List Byte} : d.RouteStays (e.answer ing x y w) := .ite h.originate (.ite h.send h)

theorem discard {x : Pkt} {dr : Drop} : d.RouteStays (e.discard x dr) := by
  unfold Dev.discard
  extract_lets hd ing d1 passed3 d2
  have h1 : d.RouteStays d1 := h.settleDrop.noteLoss
  have h2 : d.RouteStays d2 := by
    dsimp only [d2]
    split
    · exact h1.answer.ite h1
    · exact h1
  exact h2.send.ite h2

theorem dropPkt {x : Pkt} {dr : Drop} : d.RouteStays (e.dropPkt x dr) := by
  unfold Dev.dropPkt
  extract_lets d1
  have h1 : d.RouteStays d1 := h.keep
  exact h1.discard.keep.ite h1.keep

/-! ### Launches and rounds that fail (R286, R314, R479) -/

theorem adopt {x : Option Nat} {t : Bool} : d.RouteStays (e.adopt g n w x t) := by
  unfold Dev.adopt
  extract_lets l lower en d1 d2 dirs
  have h1 : d.RouteStays d1 := h.keep
  have h2 : d.RouteStays d2 := h1.raise.ite h1
  exact h.ite (h2.foldl fun _ _ h => h.originate)

theorem cause {t : Bool} : d.RouteStays (e.cause g w t) := .ite h.adopt h
theorem catFail : d.RouteStays (e.catFail g n c det) := .ite h.raise.cause h.raise

theorem fanAdopt {t : Bool} : d.RouteStays (e.fanAdopt r n w t) := by
  unfold Dev.fanAdopt
  extract_lets x lower d1
  have h1 : d.RouteStays d1 := h.keep
  exact h.ite (h1.raise.ite (h1.foldl fun _ _ h => h.send))

theorem fanCause : d.RouteStays (e.fanCause r w) := .ite h.fanAdopt h
theorem fanFail : d.RouteStays (e.fanFail r c det) := h.raise.fanCause

theorem lossAbort {pk : Packet} : d.RouteStays (e.lossAbort pk w) := by
  unfold Dev.lossAbort
  extract_lets op pl g ln
  refine .ite ?_ (.ite h.cause h)
  split
  · exact h.fanCause
  · exact h

theorem settleLoss : d.RouteStays e.settleLoss := by
  have h0 : d.RouteStays { e with lost := [] } := h.keep
  exact h0.foldl fun _ _ h => h.lossAbort

/-! ### An amendment taken (R388, R522) -/

theorem setRecs {rs : List (Nat × Word)} : d.RouteStays (e.setRecs rs) := by
  have h1 : d.RouteStays (rs.foldl (fun (x : Dev) r => x.wr r.1 (r.2 &&& (platSec r.1).2)) e) := h.foldl fun _ _ h => h.keep
  unfold Dev.setRecs Dev.derive
  extract_lets y a1 a2
  have h2 : d.RouteStays a2 := h1.keep
  exact h2.foldl fun _ _ h => h.foldl fun _ _ h => h.keep

theorem stopRegions {old : Dev} : d.RouteStays (Dev.stopRegions old e) := by
  unfold Dev.stopRegions
  extract_lets changed d1
  have h1 : d.RouteStays d1 := h.foldl fun x i hx =>
    have hcap {y : Cap} : d.RouteStays (x.setCap i y) := hx.keep
    hcap.raise.ite hx
  refine h1.foldl fun x i hx => ?_
  have hpat (l : List (Nat × Pat)) : d.RouteStays (Dev.patWithdraw { x with pats := l } i) := hx.keep
  exact (hpat _).raise.ite hx

theorem amendEnds {old : Dev} : d.RouteStays (Dev.amendEnds old e) := by
  unfold Dev.amendEnds
  extract_lets gs d1 xs hit
  have h1 : d.RouteStays d1 := h.foldl fun _ _ h => h.catFail.keep
  exact h1.foldl fun _ _ h => h.fanFail

/-! ### What follows in the frame (R130, R184, R224, R286) -/

theorem residue : d.RouteStays (e.residue n) := by
  unfold Dev.residue
  extract_lets l m d1
  have h1 : d.RouteStays d1 := h.foldl fun _ _ h => h.dropPkt
  have h2 : d.RouteStays (d1.add64 (ra 6 0xB8) m) := h1.keep
  exact h.ite h2.raise.settleLoss

theorem overlayOff : d.RouteStays e.overlayOff := h.foldl fun _ _ h => h.raise.cause

theorem corrFrom {old : Dev} : d.RouteStays (e.corrFrom old) := by
  have h1 (l : List (Nat × (Nat × Nat))) : d.RouteStays { e with corr := l } := h.keep
  exact (h1 _).foldl fun _ _ h => h.keep

theorem holdsMoved : d.RouteStays e.holdsMoved := by
  obtain ⟨_, _, _, _, he⟩ := Dev.OnlyHolds.holdsMoved e
  rw [he]
  exact h.keep

theorem bypassFlood {v : Nat} : d.RouteStays (e.bypassFlood n p v) := h.foldl fun _ _ h => h.originate.ite h

end
end Dev.RouteStays

end Sys2Proof.Machine
end

section
/-! PROOFS. An activation of routing in its frame T, with its amendment, and in a frame that is not aligned (R224, R388, R521). -/

namespace Sys2Proof.Machine

/-! ## What the amendment leaves alone (R388) -/

namespace Dev.Stays
variable {d e : Dev} (h : d.Stays e)
include h

theorem catFail {g n c det : Nat} : d.Stays (e.catFail g n c det) := .ite h.raise.cause h.raise

theorem amendEnds {old : Dev} : d.Stays (Dev.amendEnds old e) := by
  unfold Dev.amendEnds
  extract_lets gs d1 xs hit
  have h1 : d.Stays d1 := h.foldl fun _ _ h => h.catFail.dropChunks
  exact h1.foldl fun _ _ h => h.fanFail

theorem overlayOff : d.Stays e.overlayOff := h.foldl fun _ _ h => h.raise.cause

end Dev.Stays

/-! ## The amendment (R388) -/

/-- The plat block with an amendment taken: the stage is empty, the epoch active is the amendment's. -/
def Plat.amended (x : Plat) (epoch : Nat) : Plat :=
  { x with load := .empty, trail := false, len := 0, got := 0, digest := [], epoch := epoch }

/-- The device with an amendment taken into the plat block, and measured (R388, R433). -/
def Dev.notesAmend (d : Dev) (b : List Byte) : Dev :=
  let d1 := d.onPlat (fun x => x.amended (cEpoch b))
  { d1 with col := { d1.col with m4 := m4Amend d1.col.m4 b } }

theorem Dev.notesAmend_steady (d : Dev) (b : List Byte) :
    (d.notesAmend b).steady = { d.steady with plat := d.plat.amended (cEpoch b), m4 := m4Amend d.col.m4 b } := rfl

theorem Dev.notesAmend_route (d : Dev) (b : List Byte) : d.RouteStays (d.notesAmend b) := ⟨rfl, rfl, List.Subset.refl _⟩

/-- The device that takes an amendment: its registers, the plat block, and then what the new entries end. -/
def Dev.amended (d : Dev) (b : List Byte) : Dev := Dev.amendEnds d ((Dev.stopRegions d (d.setRecs (cRecs b))).notesAmend b)

theorem Dev.amended_steady (d : Dev) (b : List Byte) :
    (d.amended b).steady = { d.steady with plat := d.plat.amended (cEpoch b), m4 := m4Amend d.col.m4 b } := by
  have hrecs : (Dev.stopRegions d (d.setRecs (cRecs b))).steady = d.steady := (Dev.Stays.refl d).setRecs.stopRegions
  obtain ⟨hplat, _, hm4, _⟩ := Dev.of_steady hrecs
  calc (d.amended b).steady
    _ = ((Dev.stopRegions d (d.setRecs (cRecs b))).notesAmend b).steady := (Dev.Stays.refl _).amendEnds
    _ = _ := by rw [Dev.notesAmend_steady, hrecs, hplat, hm4]; rfl

theorem Dev.amended_route (d : Dev) (b : List Byte) : d.RouteStays (d.amended b) :=
  ((Dev.RouteStays.refl d).setRecs.stopRegions.trans (Dev.notesAmend_route ..)).amendEnds

/-- The container of the stage joins the boot partition, and the floor is its epoch. -/
def Nv.amended (n : Nv) : Nv :=
  { n with floor := cEpoch n.stage, boot := n.boot ++ [n.stage], stage := [], stageOk := false, stageTrail := false }

/-- An amendment on the active epoch that breaks no rule is taken; flash and device change with it. -/
theorem State.applyAmend_of_allowed {s : State} (ha : s.dev.plat.active = true) (hb : cBase s.nv.stage = s.dev.plat.epoch)
    (h4 : s.dev.ruleFour (s.dev.setRecs (cRecs s.nv.stage)) = none) :
    s.applyAmend = { s with nv := s.nv.amended, dev := s.dev.amended s.nv.stage } := by
  unfold State.applyAmend
  dsimp only
  rw [if_neg (by simp [ha, hb, h4])]
  rfl

/-- Taken or refused, an amendment changes beside the device at most flash. -/
theorem State.applyAmend_cases (s : State) : s.applyAmend = { s with dev := s.dev.raiseAt 0xA 8 0x800 0 } ∨
    s.applyAmend = { s with nv := s.nv.amended, dev := s.dev.amended s.nv.stage } := by
  unfold State.applyAmend
  dsimp only
  split
  · exact .inl rfl
  · exact .inr rfl

/-! ## Frame T (R224) -/

/-- Beside the device and flash nothing changes, and of the device neither routing nor what waits for the activation. -/
structure State.RouteRests (s t : State) : Prop where
  pending : t.pending = s.pending
  mem : t.mem = s.mem
  route : s.dev.RouteStays t.dev
  held : t.dev.obvo.held = s.dev.obvo.held

theorem State.applyAmend_rests (s : State) : s.RouteRests s.applyAmend := by
  rcases s.applyAmend_cases with h | h
  · rw [h]
    exact ⟨rfl, rfl, (Dev.RouteStays.refl s.dev).raise, congrArg Steady.held (Dev.Stays.refl s.dev).raise⟩
  · rw [h]
    exact ⟨rfl, rfl, s.dev.amended_route _, congrArg Steady.held (s.dev.amended_steady _)⟩

/-- The state with the activation's amendment applied, if it has one. -/
def State.amendedBy (s : State) (a : Act) : State := if a.amend then s.applyAmend else s

theorem State.amendedBy_rests (s : State) (a : Act) : s.RouteRests (s.amendedBy a) := by
  unfold State.amendedBy
  split
  · exact s.applyAmend_rests
  · exact ⟨rfl, rfl, .refl _, rfl⟩

/-- The device in frame T once the amendment is applied: the overlay, the residue, ROUTE 07h, and what goes with the overlay. -/
def Dev.routed (d old : Dev) (a : Act) : Dev :=
  let d1 : Dev := { d with ovl := a.ovl.getD d.ovl }
  let d2 := (d1.residue a.classes).raise 6 7 d1.ovl
  ((if a.ovl.isSome then d2.overlayOff else d2).corrFrom old).holdsMoved

theorem State.routeActivated_eq (s : State) (a : Act) :
    s.routeActivated a = ((s.onDev (fun d => { d with ract := none })).amendedBy a).onDev (fun d => d.routed s.dev a) := rfl

theorem Dev.routed_spec (d old : Dev) (a : Act) :
    let e := d.routed old a
    e.ract = d.ract ∧ e.ovl = a.ovl.getD d.ovl ∧ condWord 6 7 (a.ovl.getD d.ovl) ∈ e.words ∧ d.Stays e := by
  unfold Dev.routed
  extract_lets d1 d2
  have hroute : d1.RouteStays (d1.residue a.classes) := (Dev.RouteStays.refl d1).residue
  have hword : condWord 6 7 d1.ovl ∈ d2.words := by simp [d2]
  have hrest : d2.RouteStays ((if a.ovl.isSome then d2.overlayOff else d2).corrFrom old).holdsMoved :=
    have h2 := Dev.RouteStays.refl d2
    (h2.overlayOff.ite h2).corrFrom.holdsMoved
  have hsteady : d.Stays d2 := (Dev.Stays.refl d1).residue.raise
  exact ⟨hrest.ract.trans hroute.raise.ract, hrest.ovl.trans hroute.raise.ovl, hrest.words hword,
    (hsteady.overlayOff.ite hsteady).corrFrom.holdsMoved⟩

/-- What an activation in its frame leaves (R224). -/
theorem State.routeActivated_spec (s : State) (a : Act) :
    let t := s.routeActivated a
    t.pending = s.pending ∧ t.mem = s.mem ∧ t.dev.ract = none ∧ t.dev.ovl = a.ovl.getD s.dev.ovl ∧
      condWord 6 7 (a.ovl.getD s.dev.ovl) ∈ t.dev.words ∧ t.dev.obvo.held = s.dev.obvo.held := by
  rw [State.routeActivated_eq]
  obtain ⟨hpend, hmem, hroute, hheld⟩ := State.amendedBy_rests (s.onDev (fun d => { d with ract := none })) a
  obtain ⟨hract, hovl, hword, hstays⟩ := Dev.routed_spec ((s.onDev (fun d => { d with ract := none })).amendedBy a).dev s.dev a
  rw [hroute.ovl] at hovl hword
  exact ⟨hpend, hmem, hract.trans hroute.ract, hovl, hword, (congrArg Steady.held hstays).trans hheld⟩

/-- Without an amendment flash stays. -/
theorem State.routeActivated_nv_of_no_amend (s : State) {a : Act} (h : a.amend = false) : (s.routeActivated a).nv = s.nv := by
  rw [State.routeActivated_eq, State.amendedBy, h]
  rfl

/-- With one that is allowed, flash and the plat block take it. -/
theorem State.routeActivated_of_amend {s : State} {a : Act} (h : a.amend = true) (ha : s.dev.plat.active = true)
    (hb : cBase s.nv.stage = s.dev.plat.epoch)
    (h4 : ({ s.dev with ract := none } : Dev).ruleFour (({ s.dev with ract := none } : Dev).setRecs (cRecs s.nv.stage)) = none) :
    (s.routeActivated a).nv = s.nv.amended ∧ (s.routeActivated a).dev.plat = s.dev.plat.amended (cEpoch s.nv.stage) := by
  have happly := State.applyAmend_of_allowed (s := s.onDev (fun d => { d with ract := none })) ha hb h4
  rw [State.routeActivated_eq, State.amendedBy, h, if_pos rfl, happly]
  obtain ⟨_, _, _, hstays⟩ := Dev.routed_spec (({ s.dev with ract := none } : Dev).amended s.nv.stage) s.dev a
  exact ⟨rfl, (congrArg Steady.plat hstays).trans (congrArg Steady.plat (Dev.amended_steady { s.dev with ract := none } s.nv.stage))⟩

/-! ## The command (R224, R521) -/

section
variable {s : State} {a : Act} (ha : s.dev.ract = some a) (hle : a.t ≤ s.dev.fno) (ht : s.dev.tapHeld = false)
include ha hle ht

theorem execActivated_of_aligned (hal : s.dev.aligned = true) : execActivated s = .next (s.routeActivated a).runHeld := by
  simp [execActivated, ha, ht, hal, Nat.not_lt.2 hle]

/-- In a frame that is not aligned it ends with FRM 08h. -/
theorem execActivated_of_unaligned (hal : s.dev.aligned = false) : execActivated s =
    .next (State.runHeld { s with dev := (({ s.dev with ract := none } : Dev).corrFrom s.dev).notAligned }) := by
  simp [execActivated, State.onDev, ha, ht, hal, Nat.not_lt.2 hle]

end

end Sys2Proof.Machine

namespace Sys2Proof.Claim
open Sys2Proof Sys2Proof.Machine

section
variable {s : State} {a : Act} (ha : s.dev.ract = some a) (hle : a.t ≤ s.dev.fno) (ht : s.dev.tapHeld = false) (hh : s.dev.obvo.held = [])
include ha hle ht hh

theorem runs_activated_of_aligned (hal : s.dev.aligned = true) {P : State → Prop} (hP : P (s.routeActivated a)) : Runs .activated s P := by
  obtain ⟨_, _, _, _, _, hheld⟩ := s.routeActivated_spec a
  exact runs_of_eq (execActivated_of_aligned ha hle ht hal) (State.runHeld_of_none (hheld.trans hh)) hP

theorem runs_activated_of_unaligned (hal : s.dev.aligned = false) :
    Runs .activated s fun t => Kept s t ∧ t.dev.ract = none ∧ t.dev.ovl = s.dev.ovl ∧ RegsBut s t (condRegs 1 0) := by
  have hroute := (Dev.RouteStays.refl ({ s.dev with ract := none } : Dev)).corrFrom (old := s.dev)
  have hstays := (Dev.Stays.refl ({ s.dev with ract := none } : Dev)).corrFrom (old := s.dev)
  have hregs : (({ s.dev with ract := none } : Dev).corrFrom s.dev).regs = s.dev.regs := foldl_keeps Dev.regs _ _ _ fun _ _ => rfl
  have hex := execActivated_of_unaligned ha hle ht hal
  generalize ({ s.dev with ract := none } : Dev).corrFrom s.dev = e at *
  obtain ⟨_, _, hrd⟩ := raisedOn_raiseAt e 1 8 (frmCode e.frm.st) 0
  refine runs_of_eq hex (State.runHeld_of_none ((congrArg Steady.held hstays.raise).trans hh))
    ⟨⟨rfl, rfl, rfl⟩, hroute.raise.ract, hroute.raise.ovl, fun x hx => (hrd x hx).trans ?_⟩
  exact congrArg (mapGet (regRst x) · x) hregs

end

end Sys2Proof.Claim
end

section
/-! PROOFS. What the new lookup of a parked packet changes, and what it finds (R202, R206, R220, R225; log 14). -/

namespace Sys2Proof.Machine

/-! ## What parking is about (R225) -/

/-- The packets, the output queues, what is parked, and the cells that parked packets presented in the frame stay. -/
structure Dev.SameParking (d e : Dev) : Prop where
  pkts : e.pkts = d.pkts
  queue : e.queue = d.queue
  oxbow : e.oxbow = d.oxbow
  reps : e.reps = d.reps

namespace Dev.SameParking

theorem refl (d : Dev) : d.SameParking d := ⟨rfl, rfl, rfl, rfl⟩

theorem trans {d e f : Dev} (h : d.SameParking e) (k : e.SameParking f) : d.SameParking f :=
  ⟨k.pkts.trans h.pkts, k.queue.trans h.queue, k.oxbow.trans h.oxbow, k.reps.trans h.reps⟩

theorem of_reports {d e : Dev} (h : d.OnlyReports e) : d.SameParking e := by
  obtain ⟨_, _, _, _, rfl⟩ := h
  exact ⟨rfl, rfl, rfl, rfl⟩

theorem of_holds {d e : Dev} (h : d.OnlyHolds e) : d.SameParking e := by
  obtain ⟨_, _, _, _, rfl⟩ := h
  exact ⟨rfl, rfl, rfl, rfl⟩

theorem ite {d e f : Dev} {c : Prop} [Decidable c] (h : d.SameParking e) (k : d.SameParking f) : d.SameParking (if c then e else f) := by
  split
  · exact h
  · exact k

theorem stackTake {d : Dev} {us : List Nat} {cur : Bool} : ∀ x ∈ d.stackTake us cur, d.SameParking x := by
  refine List.foldlRecOn us _ (motive := fun m : Option Dev => ∀ x ∈ m, d.SameParking x) ?_ fun m hm u _ => ?_
  · intro x hx
    obtain rfl := Option.some.inj hx
    exact refl _
  · intro x hx
    cases m with
    | none => nomatch hx
    | some y =>
      obtain ⟨-, hx⟩ := Option.ite_none_left_eq_some.mp hx
      exact Option.some.inj hx ▸ (hm y rfl).trans ⟨rfl, rfl, rfl, rfl⟩

theorem drawUnits (d : Dev) (a n : Nat) : d.SameParking (d.drawUnits a n) := by
  unfold Dev.drawUnits
  split
  next x hx => exact stackTake x hx
  next => exact ⟨rfl, rfl, rfl, rfl⟩

theorem oxDraw (d : Dev) (slot : Nat) (k : Pkt) : d.SameParking (d.oxDraw slot k) := drawUnits ..

theorem drawVia (d : Dev) (p : Nat) (h : Header) (e : DtE) : d.SameParking (d.drawVia p h e).1 := by
  unfold Dev.drawVia
  extract_lets k r l i d1
  split <;> exact ⟨rfl, rfl, rfl, rfl⟩

end Dev.SameParking

/-! ## Copies that are not made (R202, R220) -/

/-- The causes of copies that a next hop does not make. -/
def Way.lost : Way → List Cause
  | .out _ l => l
  | _ => []

/-- The causes for which a lookup may leave out a copy: there is no way, or no hop is left. -/
def Cause.ofCopy (c : Cause) : Prop := c = .unreach ∨ c = .pkt 9

theorem Cause.ofCopy.noted {c : Cause} (h : c.ofCopy) : c.noted = false := by rcases h with rfl | rfl <;> rfl

theorem Dev.ringCopy_lost (d : Dev) (ing : Option Nat) (h : Header) (g : Nat) : ∀ c ∈ (d.ringCopy ing h g).2, c.ofCopy := by
  unfold Dev.ringCopy
  split_ifs <;> simp [Cause.ofCopy]

theorem Dev.multicast_lost (d : Dev) (ing : Option Nat) (h : Header) (g : Nat) : ∀ c ∈ (d.multicast ing h g).lost, c.ofCopy := by
  unfold Dev.multicast
  extract_lets e locals gp gm ring
  have hring (x y : Bool) : ∀ c ∈ (ring x y).lost, c.ofCopy := by
    dsimp only [ring, Way.lost]
    intro c hc
    rcases List.mem_append.1 hc with hc | hc
    · split at hc
      · exact d.ringCopy_lost _ _ _ c hc
      · cases hc
    · split at hc
      · exact d.ringCopy_lost _ _ _ c hc
      · cases hc
  split
  · split
    · exact nofun
    · split
      · exact nofun
      · split_ifs
        · exact hring _ _
        · exact hring _ _
        · exact nofun
  · split
    · exact hring _ _
    · split <;> exact nofun

theorem Dev.unicast_lost (d : Dev) (ing : Option Nat) (h : Header) (coord : Nat) {here : Way} (hh : here.lost = []) :
    (d.unicast ing h coord here).2.lost = [] := by
  unfold Dev.unicast
  dsimp only
  split_ifs <;> (try exact hh) <;> split <;> rfl

theorem Dev.route_lost (d : Dev) (ing : Option Nat) (h : Header) (e : DtE) : ∀ c ∈ (d.route ing h e).2.lost, c.ofCopy := by
  have hnil {w : Way} (hw : w.lost = []) : ∀ c ∈ w.lost, c.ofCopy := by simp [hw]
  unfold Dev.route
  split
  · exact hnil (d.unicast_lost ing h _ rfl)
  · exact hnil (d.unicast_lost ing h _ rfl)
  · exact hnil (d.unicast_lost ing h _ rfl)
  · exact d.multicast_lost ing h _
  · extract_lets own
    split
    · split <;> exact hnil rfl
    · exact hnil rfl
  · exact hnil rfl

/-! ## The lookup (R157, R202, R206) -/

/-- What a lookup of packet `k` in `d` gives: a device that keeps what parking is about, and the same packet, dropped for a cause that aborts
nothing, or owing copies that are not made. -/
structure Dev.Finds (d : Dev) (k : Pkt) (r : Dev × Pkt) : Prop where
  same : d.SameParking r.1
  id : r.2.id = k.id
  conf : r.2.conf = k.conf
  dropped : ∀ dr, r.2.st = .dropped dr → r.2.dues = [] ∧ dr.cause.noted = false
  dues : ∀ dr ∈ r.2.dues, dr.cause.ofCopy

theorem Dev.finds_dropped {d e : Dev} {k : Pkt} {dr : Drop} (h : d.SameParking e) (hc : dr.cause.noted = false) :
    d.Finds k (e, { k with st := .dropped dr, dues := [] }) :=
  ⟨h, rfl, rfl, fun _ hdr => ⟨rfl, by cases hdr; exact hc⟩, nofun⟩

theorem Dev.finds_resolve (d : Dev) (p : Nat) (k : Pkt) : d.Finds k (d.resolve p k) := by
  unfold Dev.resolve
  extract_lets h0 gone e
  split
  · exact Dev.finds_dropped (.refl d) rfl
  · have hvia : d.SameParking (if d.valiant p h0 e then d.drawVia p h0 e else (d, h0)).1 := by
      split
      · exact .drawVia ..
      · exact .refl d
    generalize (if d.valiant p h0 e then d.drawVia p h0 e else (d, h0)) = r at hvia
    obtain ⟨d1, h1⟩ := r
    have hlost := d1.route_lost (some p) h1 e
    dsimp only
    generalize d1.route (some p) h1 e = r at hlost
    obtain ⟨h2, w⟩ := r
    dsimp only
    split
    · exact Dev.finds_dropped hvia rfl
    · split
      · exact Dev.finds_dropped hvia rfl
      · split
        · exact Dev.finds_dropped hvia rfl
        · exact ⟨hvia, rfl, rfl, nofun, nofun⟩
        · next ts lost =>
          refine ⟨hvia, rfl, rfl, fun dr hdr => ?_, fun dr hdr => ?_⟩
          · split at hdr <;> cases hdr
          · obtain ⟨c, hc, rfl⟩ := List.mem_map.1 hdr
            exact hlost c hc

end Sys2Proof.Machine
end

section
/-! PROOFS. PARKED_REPRESENT: a parked packet presents again and stays, or leaves Oxbow (R186, R223, R225; log 46). -/

namespace Sys2Proof.Machine

/-! ## What acceptance changes of Oxbow (R186, R192) -/

namespace Dev.SameParking

theorem sample (d : Dev) (p dir : Nat) (pk : Packet) : d.SameParking (d.sample p dir pk) := by
  unfold Dev.sample
  extract_lets r n cnt d1 k size tail head rec_ d2
  have h1 : d.SameParking d1 := ⟨rfl, rfl, rfl, rfl⟩
  have hsat : d1.SameParking (d1.addSat (ra 5 (0x400F10 + 0x1000 * k)) 1) := ⟨rfl, rfl, rfl, rfl⟩
  have hfull := (h1.trans hsat).trans (of_reports (.raiseOnce _ 0xFFFF 5 7 (k * 0x4000)))
  exact .ite (refl d) (.ite h1 (.ite hfull ⟨rfl, rfl, rfl, rfl⟩))

theorem countInj (d : Dev) (k : Pkt) (o : Nat) : d.SameParking (d.countInj k o) := .ite (refl d) ⟨rfl, rfl, rfl, rfl⟩

theorem wmark (d : Dev) (a n : Nat) : d.SameParking (d.wmark a n) := .ite ⟨rfl, rfl, rfl, rfl⟩ (refl d)

theorem patAccepted (d : Dev) (k : Pkt) : d.SameParking (d.patAccepted k) := by
  unfold Dev.patAccepted
  split
  · exact .ite ⟨rfl, rfl, rfl, rfl⟩ (refl d)
  · exact refl d

end Dev.SameParking

/-- From `d` to `e` one entry of packet `k`, for target `t` at output `o`, has joined the queues; packets and Oxbow stay. -/
structure Dev.Enters (d e : Dev) (k : Pkt) (t : Tgt) (o : Nat) : Prop where
  pkts : e.pkts = d.pkts
  oxbow : e.oxbow = d.oxbow
  reps : e.reps = d.reps
  length : e.queue.length = d.queue.length + 1
  entry : ∃ q ∈ e.queue, q.pid = k.id ∧ q.out = o ∧ q.vc = t.vc

theorem Dev.Enters.then_same {d e f : Dev} {k : Pkt} {t : Tgt} {o : Nat} (h : d.Enters e k t o) (m : e.SameParking f) : d.Enters f k t o :=
  ⟨m.pkts.trans h.pkts, m.oxbow.trans h.oxbow, m.reps.trans h.reps, m.queue ▸ h.length, m.queue ▸ h.entry⟩

/-- A packet of any class that is granted joins its output's queue. -/
theorem Dev.enqueue_enters (d : Dev) (k : Pkt) (t : Tgt) (o : Nat) (next : Bool) : d.Enters (d.enqueue k t o next) k t o := by
  unfold Dev.enqueue
  extract_lets hd c n cid b b' d1 _ _ q d2 mk d3 d4 _ d5
  have h1 : d.SameParking d1 := .ite ⟨rfl, rfl, rfl, rfl⟩ ⟨rfl, rfl, rfl, rfl⟩
  have hjoin : d.Enters { d1 with queue := d1.queue ++ [q], nextId := d1.nextId + 1 } k t o :=
    ⟨h1.pkts, h1.oxbow, h1.reps, by simp [h1.queue], q, by simp, rfl, rfl, rfl⟩
  have h2 : d.Enters d2 k t o := (hjoin.then_same ⟨rfl, rfl, rfl, rfl⟩).then_same (.of_holds (.handOut ..))
  have h3 : d.Enters d3 k t o := by
    dsimp only [d3]
    split
    · obtain ⟨x, hx, hpid, hout, hvc⟩ := h2.entry
      exact ⟨h2.pkts, h2.oxbow, h2.reps, (List.length_map _).trans h2.length, _, List.mem_map_of_mem hx,
        by split <;> exact ⟨hpid, hout, hvc⟩⟩
    · exact h2
  have h4 : d.Enters d4 k t o := (h3.then_same (.countInj ..)).then_same (.patAccepted ..)
  have h5 : d.Enters d5 k t o := by
    dsimp only [d5]
    split
    · exact h4.then_same ⟨rfl, rfl, rfl, rfl⟩
    · exact h4
  exact h5.then_same (.wmark ..)

/-- The packet's record is gone from Oxbow. -/
def Dev.unparked (d : Dev) (id : Nat) : Dev := { d with oxbow := d.oxbow.filter (fun e => e.2 != id) }

theorem Dev.SameParking.unparked {d e : Dev} (h : d.SameParking e) (id : Nat) : (d.unparked id).SameParking (e.unparked id) :=
  ⟨h.pkts, h.queue, congrArg (List.filter _) h.oxbow, h.reps⟩

theorem Dev.unparked_unparked (d : Dev) (id : Nat) : (d.unparked id).unparked id = d.unparked id := by
  simp [Dev.unparked, List.filter_filter]

/-- A confirmed packet that is accepted and not watched leaves the device's packets and Oxbow. -/
theorem Dev.accepted_unparks {d : Dev} {k : Pkt} (hconf : k.conf = true) (hwatch : isWatched k.pk.hdr = false) (o : Nat) :
    ((d.rmPkt k.id).unparked k.id).SameParking (d.accepted k o) := by
  unfold Dev.accepted
  extract_lets hd cnt d1 d2 d3
  have h1 : d.SameParking d1 := .ite ⟨rfl, rfl, rfl, rfl⟩ (.refl d)
  have h2 : d.SameParking d2 := by
    dsimp only [d2]
    split
    · exact (h1.trans (.sample ..)).ite h1
    · exact h1
  rw [if_pos (by simp [hd, hconf, hwatch])]
  exact ⟨congrArg (List.filter _) h2.pkts, h2.queue, congrArg (List.filter _) h2.oxbow, h2.reps⟩

/-! ## What is owed for copies (R71, R220) -/

theorem Dev.noteLoss_of_unnoted (d : Dev) (pk : Packet) {dr : Drop} (h : dr.cause.noted = false) : d.noteLoss pk dr = d := by
  unfold Dev.noteLoss
  rw [lossWord_of_unnoted h]
  exact ite_self d

/-- Copies that a lookup left out are counted and raised. -/
theorem Dev.settleDues_reports {d : Dev} {k : Pkt} {l : List Drop} (h : ∀ dr ∈ l, dr.cause.ofCopy) : d.OnlyReports (d.settleDues k l) := by
  induction l generalizing d with
  | nil => exact .refl d
  | cons dr l ih =>
    have hdr : dr.cause.ofCopy := h dr List.mem_cons_self
    have hstep : (if dr.cause = .fenced then d.countFenced k dr.port else (d.settleDrop k.ing k.pk.hdr dr).noteLoss k.pk dr) =
        d.settleDrop k.ing k.pk.hdr dr := by
      rw [if_neg (by rcases hdr with hc | hc <;> simp [hc]), Dev.noteLoss_of_unnoted _ _ hdr.noted]
    rw [Dev.settleDues, List.foldl_cons, hstep]
    exact (Dev.OnlyReports.settleDrop d k.ing k.pk.hdr dr).trans (ih fun x hx => h x (List.mem_cons_of_mem _ hx))

theorem Dev.settleDues_nil (d : Dev) (k : Pkt) : d.settleDues k [] = d := rfl

/-! ## One parked packet presents (R225) -/

/-- The watch for losses alone. -/
def Watch.lossless : Watch := { counted := false, settled := true, calm := none }

theorem Dev.sound_lossless_iff {d : Dev} : d.Sound Watch.lossless ↔ d.lost = [] :=
  ⟨fun h => h.lost rfl, fun h => ⟨nofun, nofun, fun _ => h, nofun⟩⟩

theorem Dev.finds_relook (d : Dev) (k : Pkt) : d.Finds k (d.relook k) := by
  unfold Dev.relook
  extract_lets p
  obtain ⟨hsame, hid, hconf, hdropped, hdues⟩ := d.finds_resolve p { k with pk := { k.pk with hdr := d.lookHdr p k.arrived.hdr } }
  exact ⟨hsame, hid, hconf, hdropped, hdues⟩

/-- The lookup of parked packet `k` anew, once its record is read from Oxbow. -/
def Dev.relooked (d : Dev) (k : Pkt) : Dev × Pkt := (d.oxDraw (d.oxbow.findIdx (fun e => e.2 == k.id)) k).relook k

theorem Dev.finds_relooked (d : Dev) (k : Pkt) : d.Finds k (d.relooked k) := by
  unfold Dev.relooked
  have hdraw := Dev.SameParking.oxDraw d (d.oxbow.findIdx (fun e => e.2 == k.id)) k
  generalize d.oxDraw (d.oxbow.findIdx (fun e => e.2 == k.id)) k = e at hdraw
  obtain ⟨hsame, hid, hconf, hdropped, hdues⟩ := e.finds_relook k
  exact ⟨hdraw.trans hsame, hid, hconf, hdropped, hdues⟩

/-- The packet with the copies it owes settled. -/
def Pkt.settled (k : Pkt) : Pkt := { k with dues := [] }

theorem Pkt.settled_id (k : Pkt) : k.settled.id = k.id := rfl
theorem Pkt.settled_st (k : Pkt) : k.settled.st = k.st := rfl

theorem Pkt.settled_of_no_dues {k : Pkt} (h : k.dues = []) : k.settled = k := by
  unfold Pkt.settled
  rw [← h]

/-- A packet presents as its lookup `r` gives it, the copies it owes settled, and the cells of its port come to `l`. -/
def presentedAs (r : Dev × Pkt) (l : List (Nat × Nat)) : Dev := { r.1.onPkt r.2.id (fun _ => r.2.settled) with reps := l }

/-- The cells that each port's parked packets have presented in the frame, with those of packet `k`. -/
def Dev.repsWith (d : Dev) (p : Nat) (k : Pkt) : List (Nat × Nat) := mapSet 0 d.reps p (mapGet 0 d.reps p + cellsOfPkt k.pk.hdr)

/-- The device in which packet `k` of port `p` presents. -/
def Dev.presented (d : Dev) (p : Nat) (k : Pkt) : Dev := presentedAs (d.relooked k) (d.repsWith p k)

theorem presentedAs_queue (r : Dev × Pkt) (l : List (Nat × Nat)) : (presentedAs r l).queue = r.1.queue := rfl
theorem presentedAs_oxbow (r : Dev × Pkt) (l : List (Nat × Nat)) : (presentedAs r l).oxbow = r.1.oxbow := rfl
theorem presentedAs_lost (r : Dev × Pkt) (l : List (Nat × Nat)) : (presentedAs r l).lost = r.1.lost := rfl

theorem Dev.presented_lost {d : Dev} (h : d.lost = []) (p : Nat) (k : Pkt) : (d.presented p k).lost = [] := by
  have hs : (d.relooked k).1.Sound Watch.lossless := (Dev.Sound.oxDraw (Dev.sound_lossless_iff.2 h)).relook
  exact (presentedAs_lost ..).trans (Dev.sound_lossless_iff.1 hs)

theorem Dev.presented_queue (d : Dev) (p : Nat) (k : Pkt) : (d.presented p k).queue = d.queue :=
  (presentedAs_queue ..).trans (d.finds_relooked k).same.queue

theorem Dev.presented_oxbow (d : Dev) (p : Nat) (k : Pkt) : (d.presented p k).oxbow = d.oxbow :=
  (presentedAs_oxbow ..).trans (d.finds_relooked k).same.oxbow

theorem Dev.presented_reps (d : Dev) (p : Nat) (k : Pkt) : (d.presented p k).reps = d.repsWith p k := rfl

/-- Where the lookup owes no copy, the packet presents as the lookup gives it. -/
theorem Dev.presented_of_no_dues {d : Dev} {k : Pkt} (p : Nat) (h : (d.relooked k).2.dues = []) :
    d.presented p k = { (d.relooked k).1.onPkt k.id (fun _ => (d.relooked k).2) with reps := d.repsWith p k } := by
  have hid := (d.finds_relooked k).id
  unfold Dev.presented
  generalize d.relooked k = r at h hid ⊢
  rw [presentedAs, Pkt.settled_of_no_dues h, hid]

/-- A packet of the device presents as its lookup gives it. -/
theorem Dev.mem_presented {d : Dev} {k : Pkt} (h : k ∈ d.pkts) (p : Nat) : (d.relooked k).2.settled ∈ (d.presented p k).pkts := by
  obtain ⟨hsame, hid, _, _, _⟩ := d.finds_relooked k
  unfold Dev.presented
  generalize d.relooked k = r at hsame hid ⊢
  exact List.mem_map.2 ⟨k, hsame.pkts ▸ h, if_pos hid.symm⟩

/-- What becomes of packet `k` that presents in `e`, its owed copies settled: dropped, its engine's, or offered; without room it stays parked
as `d` has it. -/
def Dev.outcome (e d : Dev) (k : Pkt) : Dev × Bool :=
  match k.st with
  | .dropped dr => (e.dropPkt k dr, true)
  | .engine => (e.unparked k.id, true)
  | _ =>
    let f := match e.orderPort k with
      | some o => e.orderPresent 0 k o
      | none => (e.offer 0 k).1
    match f.pkt k.id with
    | some x => if x.st = .hold then ({ d with ports := f.ports, stackU := f.stackU }, false) else (f.unparked k.id, true)
    | none => (f.unparked k.id, true)

theorem Dev.outcome_of_dropped (e d : Dev) {k : Pkt} {dr : Drop} (h : k.st = .dropped dr) : e.outcome d k = (e.dropPkt k dr, true) := by
  unfold Dev.outcome
  rw [h]

theorem Dev.outcome_of_engine (e d : Dev) {k : Pkt} (h : k.st = .engine) : e.outcome d k = (e.unparked k.id, true) := by
  unfold Dev.outcome
  rw [h]

/-- Output `o` grants the unwatched, unordered unicast `k` to its target `t`. -/
structure Dev.Grants (d : Dev) (k : Pkt) (t : Tgt) (o : Nat) (next : Bool) : Prop where
  hold : k.st = .hold
  unicast : k.mcast = false
  tgts : k.tgts = [t]
  unordered : d.orderPort k = none
  unwatched : isWatched k.pk.hdr = false
  grant : d.tryTgt 0 k t = .ok o next

/-- From `d` to `e` packet `id` has left the device and Oxbow, and one entry of it, for target `t` at output `o`, has joined the queues. -/
structure Dev.Departs (d e : Dev) (id : Nat) (t : Tgt) (o : Nat) : Prop where
  gone : ∀ x ∈ e.pkts, x.id ≠ id
  oxbow : e.oxbow = d.oxbow.filter (fun x => x.2 != id)
  reps : e.reps = d.reps
  length : e.queue.length = d.queue.length + 1
  entry : ∃ q ∈ e.queue, q.pid = id ∧ q.out = o ∧ q.vc = t.vc

theorem Dev.outcome_of_grant {e : Dev} (d : Dev) {k : Pkt} {t : Tgt} {o : Nat} {next : Bool} (hconf : k.conf = true) (hg : e.Grants k t o next) :
    e.outcome d k = (((e.enqueue k t o next).accepted k o).unparked k.id, true) := by
  have hgone : ((e.enqueue k t o next).accepted k o).pkt k.id = none := by
    refine List.find?_eq_none.2 fun x hx => ?_
    rw [(Dev.accepted_unparks hconf hg.unwatched o).pkts] at hx
    simpa using (e.enqueue k t o next).not_mem_rmPkt k.id x hx
  unfold Dev.outcome
  rw [hg.hold, hg.unordered, Dev.offer_of_grant hg.unicast hg.tgts hg.grant]
  dsimp only
  rw [hgone]

/-- The port may present the packet in this frame: no drain affects it, and it is the first or within the port's cells. -/
structure Dev.MayPresent (d : Dev) (p : Nat) (k : Pkt) : Prop where
  free : d.affected k = none
  room : mapGet 0 d.reps p = 0 ∨ mapGet 0 d.reps p + cellsOfPkt k.pk.hdr ≤ d.cap p

theorem Dev.representOne_of_affected {d : Dev} {k : Pkt} (p : Nat) (h : d.affected k ≠ none) : d.representOne p k = (d, false) := by
  unfold Dev.representOne
  extract_lets n used
  exact if_pos (.inl (Option.isSome_iff_ne_none.2 h))

theorem Dev.representOne_of_room {d : Dev} {p : Nat} {k : Pkt} (hm : d.MayPresent p k) :
    d.representOne p k = ((d.presented p k).settleDues (d.relooked k).2 (d.relooked k).2.dues).outcome d (d.relooked k).2 := by
  have hmay : ¬ ((d.affected k).isSome = true ∨ mapGet 0 d.reps p ≠ 0 ∧ d.cap p < mapGet 0 d.reps p + cellsOfPkt k.pk.hdr) := by
    have := hm.room
    simp only [hm.free, Option.isSome_none, Bool.false_eq_true, false_or]
    omega
  unfold Dev.presented Dev.relooked Dev.representOne
  extract_lets n used
  rw [if_neg hmay]
  split
  next d0 k0 hd =>
    rw [hd]
    rfl

/-- The packets that port `p` has parked, in the order they were. -/
def Dev.parkedOf (d : Dev) (p : Nat) : List Pkt := ((d.oxbow.map (·.2)).filterMap d.pkt).filter (fun x => x.st == .parked && x.ing == some p)

theorem Dev.represent_of_one {d : Dev} {p : Nat} {k : Pkt} (h : d.parkedOf p = [k]) :
    d.represent p = (d.representOne p k).1.settleLoss.holdsMoved := by
  have hfold : d.represent p =
      ((d.parkedOf p).foldl (fun (x : Dev × Bool) k => if x.2 then x.1.representOne p k else x) (d, true)).1.settleLoss.holdsMoved := rfl
  rw [hfold, h]
  rfl

/-- Where its one packet presents without a loss to settle, what it comes to stays. -/
theorem Dev.represent_same {d e : Dev} {p : Nat} {k : Pkt} (h : d.parkedOf p = [k]) (he : (d.representOne p k).1 = e) (hlost : e.lost = []) :
    e.SameParking (d.represent p) := by
  rw [Dev.represent_of_one h, he, Dev.settleLoss_of_none hlost]
  exact .of_holds (.holdsMoved e)

/-- A packet of Oxbow is in the device. -/
theorem Dev.mem_pkts_of_parkedOf {d : Dev} {p : Nat} {k : Pkt} (h : k ∈ d.parkedOf p) : k ∈ d.pkts := by
  obtain ⟨i, _, hi⟩ := List.mem_filterMap.1 (List.mem_of_mem_filter h)
  exact List.mem_of_find?_eq_some hi

section
variable {d : Dev} {p : Nat} {k : Pkt} (h : d.parkedOf p = [k]) (hlost : d.lost = [])
include h hlost

/-- One that drains again stays parked. -/
theorem Dev.represent_of_affected (ha : d.affected k ≠ none) : d.represent p = d.holdsMoved := by
  rw [Dev.represent_of_one h, Dev.representOne_of_affected p ha]
  exact congrArg Dev.holdsMoved (Dev.settleLoss_of_none hlost)

variable (hm : d.MayPresent p k)
include hm

/-- One that its lookup drops leaves the device. -/
theorem Dev.represent_of_dropped (hconf : k.conf = true) {dr : Drop} (hst : (d.relooked k).2.st = .dropped dr) :
    ∀ x ∈ (d.represent p).pkts, x.id ≠ k.id := by
  obtain ⟨_, hid, hk, hdropped, _⟩ := d.finds_relooked k
  obtain ⟨hdues, hnoted⟩ := hdropped dr hst
  have hout : (d.representOne p k).1 = (d.presented p k).dropPkt (d.relooked k).2 dr := by
    rw [Dev.representOne_of_room hm, Dev.outcome_of_dropped _ _ hst, hdues]
    rfl
  have hsound := (Dev.sound_lossless_iff.2 (Dev.presented_lost hlost p k)).dropPkt (k := (d.relooked k).2) (dr := dr) fun _ => hnoted
  rw [(Dev.represent_same h hout (Dev.sound_lossless_iff.1 hsound)).pkts, ← hid]
  exact Dev.dropPkt_of_conf (hk.trans hconf) dr

omit hm in
/-- One that presents, some reports aside, and leaves Oxbow, has its record gone there and stays among the packets as its lookup gives it. -/
theorem Dev.represent_of_unparked {e : Dev} (hreports : (d.presented p k).OnlyReports e) (hout : (d.representOne p k).1 = e.unparked k.id) :
    (d.represent p).oxbow = d.oxbow.filter (fun x => x.2 != k.id) ∧ (d.represent p).queue = d.queue ∧
      (d.relooked k).2.settled ∈ (d.represent p).pkts := by
  have hk : k ∈ d.parkedOf p := h ▸ List.mem_singleton_self k
  have hsame := Dev.SameParking.of_reports hreports
  have hend := Dev.represent_same h hout (hreports.lost.trans (Dev.presented_lost hlost p k))
  have hpkts : (d.represent p).pkts = (d.presented p k).pkts := hend.pkts.trans hsame.pkts
  exact ⟨hend.oxbow.trans (congrArg (List.filter _) (hsame.oxbow.trans (d.presented_oxbow p k))),
    hend.queue.trans (hsame.queue.trans (d.presented_queue p k)), hpkts ▸ Dev.mem_presented (Dev.mem_pkts_of_parkedOf hk) p⟩

/-- One that its lookup finds to be for an engine waits there, its record out of Oxbow. -/
theorem Dev.represent_of_engine (hst : (d.relooked k).2.st = .engine) :
    (d.represent p).oxbow = d.oxbow.filter (fun x => x.2 != k.id) ∧ (d.represent p).queue = d.queue ∧
      ∃ x ∈ (d.represent p).pkts, x.id = k.id ∧ x.st = .engine := by
  obtain ⟨_, hid, _, _, hdues⟩ := d.finds_relooked k
  have hout : (d.representOne p k).1 = ((d.presented p k).settleDues (d.relooked k).2 (d.relooked k).2.dues).unparked k.id := by
    rw [Dev.representOne_of_room hm, Dev.outcome_of_engine _ _ hst, hid]
  obtain ⟨hoxbow, hqueue, hmem⟩ := Dev.represent_of_unparked h hlost (Dev.settleDues_reports hdues) hout
  exact ⟨hoxbow, hqueue, _, hmem, (Pkt.settled_id _).trans hid, (Pkt.settled_st _).trans hst⟩

omit hlost hm in
/-- One that comes to be granted in `e` is accepted there. -/
theorem Dev.represent_of_granted {e : Dev} {k1 : Pkt} (hlost : e.lost = []) (hconf : k1.conf = true) {t : Tgt} {o : Nat} {next : Bool}
    (hg : e.Grants k1 t o next) (hone : d.representOne p k = e.outcome d k1) : e.Departs (d.represent p) k1.id t o := by
  have hout : (d.representOne p k).1 = ((e.enqueue k1 t o next).accepted k1 o).unparked k1.id := by
    rw [hone, Dev.outcome_of_grant d hconf hg]
  have hend := Dev.represent_same h hout (Dev.sound_lossless_iff.1 (Dev.sound_lossless_iff.2 hlost).enqueue.accepted)
  have hjoin := e.enqueue_enters k1 t o next
  have hleft := Dev.accepted_unparks (d := e.enqueue k1 t o next) hconf hg.unwatched o
  have hqueue : (d.represent p).queue = (e.enqueue k1 t o next).queue := hend.queue.trans hleft.queue
  refine ⟨fun x hx => ?_, ?_, ?_, ?_, ?_⟩
  · rw [hend.pkts] at hx
    exact (e.enqueue k1 t o next).not_mem_rmPkt k1.id x (hleft.pkts ▸ hx)
  · rw [hend.oxbow, (hleft.unparked k1.id).oxbow, Dev.unparked_unparked]
    exact congrArg (List.filter _) hjoin.oxbow
  · exact hend.reps.trans (hleft.reps.trans hjoin.reps)
  · exact (congrArg List.length hqueue).trans hjoin.length
  · exact hqueue ▸ hjoin.entry

/-- One that its output grants is accepted there, and leaves the device and Oxbow. -/
theorem Dev.represent_of_grant (hconf : k.conf = true) (hdues : (d.relooked k).2.dues = []) {t : Tgt} {o : Nat} {next : Bool}
    (hg : (d.presented p k).Grants (d.relooked k).2 t o next) : (d.presented p k).Departs (d.represent p) k.id t o := by
  obtain ⟨_, hid, hk, _, _⟩ := d.finds_relooked k
  have hone := Dev.representOne_of_room hm
  rw [hdues, Dev.settleDues_nil] at hone
  exact hid ▸ Dev.represent_of_granted h (Dev.presented_lost hlost p k) (hk.trans hconf) hg hone

end

end Sys2Proof.Machine
end

section
/-! PROOFS. O36: activation in frame T, and parked packets that present. -/

namespace Sys2Proof.Claim
open Sys2Proof Sys2Proof.Machine

theorem runs_parkedRepresent {s : State} {p : BitVec 7} {P : State → Prop} (hP : P { s with dev := s.dev.represent p.toNat }) :
    Runs (.parkedRepresent p) s P :=
  runs_dev rfl rfl hP

section
variable {s : State} {p : BitVec 7} {k : Pkt} (hpark : s.dev.parkedOf p.toNat = [k]) (hconf : k.conf = true) (hlost : s.dev.lost = [])
  (hm : s.dev.MayPresent p.toNat k)
include hpark hlost hm

theorem runs_parkedRepresent_of_engine (hst : (s.dev.relooked k).2.st = .engine) :
    Runs (.parkedRepresent p) s fun t => Kept s t ∧ t.dev.oxbow = s.dev.oxbow.filter (fun e => e.2 != k.id) ∧ t.dev.queue = s.dev.queue ∧
      ∃ x ∈ t.dev.pkts, x.id = k.id ∧ x.st = .engine :=
  runs_parkedRepresent ⟨⟨rfl, rfl, rfl⟩, Dev.represent_of_engine hpark hlost hm hst⟩

include hconf

theorem runs_parkedRepresent_of_dropped (dr : Drop) (hst : (s.dev.relooked k).2.st = .dropped dr) :
    Runs (.parkedRepresent p) s fun t => Gone s t k.id :=
  runs_parkedRepresent ⟨⟨rfl, rfl, rfl⟩, Dev.represent_of_dropped hpark hlost hm hconf hst⟩

theorem runs_parkedRepresent_of_grant {d0 : Dev} {t : Tgt} {o : Nat} {next : Bool} (hdues : (s.dev.relooked k).2.dues = [])
    (hd0 : s.dev.presented p.toNat k = d0) (hg : d0.Grants (s.dev.relooked k).2 t o next) : Runs (.parkedRepresent p) s fun e => Gone s e k.id ∧
      e.dev.queue.length = s.dev.queue.length + 1 ∧ (∃ q ∈ e.dev.queue, q.pid = k.id ∧ q.out = o ∧ q.vc = t.vc) ∧
      e.dev.oxbow = s.dev.oxbow.filter (fun x => x.2 != k.id) ∧ e.dev.reps = s.dev.repsWith p.toNat k := by
  obtain ⟨hgone, hoxbow, hreps, hlen, hentry⟩ := Dev.represent_of_grant hpark hlost hm hconf hdues (hd0.symm ▸ hg)
  rw [s.dev.presented_oxbow] at hoxbow
  rw [s.dev.presented_queue] at hlen
  exact runs_parkedRepresent ⟨⟨⟨rfl, rfl, rfl⟩, hgone⟩, hlen, hentry, hoxbow, hreps.trans (s.dev.presented_reps ..)⟩

end

/-- Settles O36: what activation does to the device keeps the overlay, the words and flash's amendment; the one parked packet of the port
comes to what its lookup finds. -/
theorem routingChangesInFrameT : Obligations.RoutingChangesInFrameT := by
  unfold Obligations.RoutingChangesInFrameT
  refine ⟨fun s a ha hle ht hh hal => ?_, fun s a ha hle ht hh hal => runs_activated_of_unaligned ha hle ht hh hal,
    fun s p k hpark hconf hlost => ⟨fun haff => ?_, fun hfree hroom => ⟨?_, ?_, fun tg o nx hst hone hdues htgts horder hwatch hgrant => ?_⟩⟩⟩
  · obtain ⟨hpend, hmem, hract, hovl, hword, _⟩ := s.routeActivated_spec a
    refine runs_activated_of_aligned ha hle ht hh hal
      ⟨hpend, hmem, hract, hovl, hword, State.routeActivated_nv_of_no_amend s, fun ham hact hbase hfour => ?_⟩
    obtain ⟨hnv, hplat⟩ := State.routeActivated_of_amend ham hact hbase hfour
    exact ⟨hnv, congrArg Plat.epoch hplat, congrArg Plat.load hplat⟩
  · exact runs_parkedRepresent ⟨⟨rfl, rfl, rfl⟩, Dev.represent_of_affected hpark hlost haff⟩
  · exact runs_parkedRepresent_of_engine hpark hlost ⟨hfree, hroom⟩
  · exact runs_parkedRepresent_of_dropped hpark hconf hlost ⟨hfree, hroom⟩
  · exact runs_parkedRepresent_of_grant hpark hconf hlost ⟨hfree, hroom⟩ hdues (Dev.presented_of_no_dues _ hdues)
      ⟨hst, hone, htgts, horder, hwatch, hgrant⟩

end Sys2Proof.Claim
end

section
/-! PROOFS. O37: a Bypass overlay is armed, after a detection and after a message (R227, R229). -/

namespace Sys2Proof.Machine

/-! ## What a Bypass arms (R229) -/

/-- The activation of Bypass overlay `n` for frame `t`, with the classes and parking of ROUTE_BYP_CFG. -/
def Dev.bypassSlot (d : Dev) (n t drain : Nat) : Act :=
  { t := t, drain := drain, ovl := some n, classes := Machine.fld (d.rd (ra 6 0x54)) 0 7, park := Machine.bit (d.rd (ra 6 0x54)) 7, byBypass := true }

/-- The drain of ROUTE_BYP_TIME. -/
def Dev.bypassDrain (d : Dev) : Nat := drainOf (d.fld (ra 6 0x50) 0 6)

/-- That drain, cut to what is left before frame `t`. -/
def Dev.bypassCut (d : Dev) (t : Nat) : Nat := if t ≤ d.fno + d.bypassDrain then t - (d.fno + 1) else d.bypassDrain

theorem Dev.raise_bypassSlot (d : Dev) (c det n t drain : Nat) : (d.raise 6 c det).bypassSlot n t drain = d.bypassSlot n t drain := by
  have hrd : (d.raise 6 c det).rd (ra 6 0x54) = d.rd (ra 6 0x54) := d.raiseAt_rd 6 c det 0 (by decide) (by decide)
  rw [Dev.bypassSlot, hrd, Dev.bypassSlot]

theorem Dev.raise_bypassCut (d : Dev) (c det t : Nat) : (d.raise 6 c det).bypassCut t = d.bypassCut t := by
  have hrd : (d.raise 6 c det).rd (ra 6 0x50) = d.rd (ra 6 0x50) := d.raiseAt_rd 6 c det 0 (by decide) (by decide)
  have hfno : (d.raise 6 c det).fno = d.fno := congrArg (·.no.toNat) (d.raiseAt_frm 6 c det 0)
  rw [Dev.bypassCut, Dev.bypassCut, Dev.bypassDrain, Dev.bypassDrain, Dev.fld, Dev.fld, hrd, hfno]

theorem Dev.bypassIgnored_word (d : Dev) (n : Nat) : condWord 6 0xA (n * 4096 + d.ovlFor n) ∈ (d.bypassIgnored n).words := by
  simp [Dev.bypassIgnored]

theorem Dev.bypassArm_ract_of_free {d : Dev} (h : d.ract = none) (n t drain : Nat) :
    (d.bypassArm n t drain).ract = some (d.bypassSlot n t drain) := by
  rw [Dev.bypassArm, h]
  rfl

theorem Dev.bypassArm_ract_of_armed {d : Dev} {a : Act} (h : d.ract = some a) (n t drain : Nat) :
    (d.bypassArm n t drain).ract = some { d.bypassSlot n t drain with draining := a.draining } := by
  rw [Dev.bypassArm, h]
  rfl

/-! ## A packet that has left does not come back -/

/-- No packet has number `id`, and none will: it has been given. -/
structure Dev.Without (d : Dev) (id : Nat) : Prop where
  gone : ∀ x ∈ d.pkts, x.id ≠ id
  given : id < d.nextId

namespace Dev.Without
variable {d e : Dev} {id : Nat} (h : d.Without id)
include h

theorem keep (hp : e.pkts = d.pkts := by rfl) (hn : e.nextId = d.nextId := by rfl) : e.Without id := ⟨hp ▸ h.gone, hn ▸ h.given⟩

theorem addPkt (k : Pkt) : (d.addPkt k).Without id := by
  refine ⟨fun x hx => ?_, Nat.lt_succ_of_lt h.given⟩
  rcases List.mem_append.1 hx with hx | hx
  · exact h.gone x hx
  · rw [List.mem_singleton.1 hx]
    exact Nat.ne_of_gt h.given

theorem originate (pk : Packet) (dir cin : Option Nat) (col : Bool) : (d.originate pk dir cin col).Without id := by
  obtain ⟨e, he, hadd⟩ := d.originate_cases pk dir cin col
  have h1 : e.Without id := h.keep he.pkts he.nextId
  rcases hadd with hadd | ⟨k, hadd⟩
  · exact hadd ▸ h1
  · exact hadd ▸ h1.addPkt k

theorem bypassFlood (n t v : Nat) : (d.bypassFlood n t v).Without id :=
  List.foldlRecOn (motive := fun e : Dev => e.Without id) _ _ h fun x hx g _ => by
    split
    · exact hx.originate ..
    · exact hx

end Dev.Without

theorem Dev.rmPkt_without {d : Dev} {id : Nat} (h : id < d.nextId) : (d.rmPkt id).Without id := ⟨d.not_mem_rmPkt id, h⟩

/-! ## A proposal (R229) -/

/-- From `d` to `e` activation `a` is armed; the active overlay stays, no condition word is taken back, and no packet that left returns. -/
structure Dev.Arms (d e : Dev) (a : Act) : Prop where
  ract : e.ract = some a
  ovl : e.ovl = d.ovl
  words : d.words ⊆ e.words
  without : ∀ id, d.Without id → e.Without id

theorem Dev.bypassFlood_arms {d : Dev} {n t drain : Nat} {a : Act} (h : (d.bypassArm n t drain).ract = some a) (v : Nat) :
    d.Arms ((d.bypassArm n t drain).bypassFlood n t v) a := by
  obtain ⟨hract, hovl, hwords⟩ := (Dev.RouteStays.refl (d.bypassArm n t drain)).bypassFlood (n := n) (p := t) (v := v)
  have hkeep {id : Nat} (hid : d.Without id) : (d.bypassArm n t drain).Without id := hid.keep
  exact ⟨hract.trans h, hovl, hwords, fun _ hid => (hkeep hid).bypassFlood n t v⟩

/-- A proposal of a Bypass overlay that comes while no overlay is active and no plat is to be activated. -/
structure Dev.Open (d : Dev) (n : Nat) : Prop where
  lo : 1 ≤ n
  hi : n ≤ 3
  ovl : d.ovl = 0
  act : d.plat.act = none

section
variable {d : Dev} {n : Nat} (ho : d.Open n)
include ho

/-- One such proposal is left to what is armed. -/
theorem Dev.bypassPropose_of_open (t v : Nat) : d.bypassPropose n t v =
    match d.ract with
    | none => if t ≤ d.fno then d.bypassIgnored n else (d.bypassArm n t (d.bypassCut t)).bypassFlood n t v
    | some a =>
      if ! a.byBypass then d.bypassIgnored n
      else if t < a.t ∨ (t = a.t ∧ n < a.ovl.getD 0) then
        ((d.bypassIgnored (a.ovl.getD 0)).bypassArm n t d.bypassDrain).bypassFlood n t v
      else d := by
  obtain ⟨hlo, hhi, hovl, hact⟩ := ho
  unfold Dev.bypassPropose
  dsimp only
  rw [if_neg (by omega), if_neg (by simp [hact, hovl])]
  rfl

theorem Dev.bypassPropose_of_free (hr : d.ract = none) {t : Nat} (ht : d.fno < t) (v : Nat) :
    d.Arms (d.bypassPropose n t v) (d.bypassSlot n t (d.bypassCut t)) := by
  have hpropose : d.bypassPropose n t v = (d.bypassArm n t (d.bypassCut t)).bypassFlood n t v := by
    rw [Dev.bypassPropose_of_open ho, hr]
    exact if_neg (Nat.not_le.2 ht)
  exact hpropose ▸ Dev.bypassFlood_arms (Dev.bypassArm_ract_of_free hr ..) v

variable {a : Act} {m t : Nat} (hr : d.ract = some a) (hby : a.byBypass = true) (hm : a.ovl = some m)
include hr hby hm

/-- A proposal for an earlier frame, or a lower overlay for the same, takes the place of the other, which ROUTE 0Ah names. -/
theorem Dev.bypassPropose_of_before (ht : t < a.t ∨ (t = a.t ∧ n < m)) (v : Nat) :
    (d.bypassIgnored m).Arms (d.bypassPropose n t v) { d.bypassSlot n t d.bypassDrain with draining := a.draining } := by
  have hpropose : d.bypassPropose n t v = ((d.bypassIgnored m).bypassArm n t d.bypassDrain).bypassFlood n t v := by
    rw [Dev.bypassPropose_of_open ho, hr]
    dsimp only
    rw [if_neg (by simp [hby]), if_pos (by simpa [hm] using ht), hm]
    rfl
  have hslot : (d.bypassIgnored m).bypassSlot n t d.bypassDrain = d.bypassSlot n t d.bypassDrain := d.raise_bypassSlot ..
  have hr1 : (d.bypassIgnored m).ract = some a := (d.raiseAt_ract ..).trans hr
  exact hpropose ▸ Dev.bypassFlood_arms (hslot ▸ Dev.bypassArm_ract_of_armed hr1 ..) v

theorem Dev.bypassPropose_of_after (ht : ¬ (t < a.t ∨ (t = a.t ∧ n < m))) (v : Nat) : d.bypassPropose n t v = d := by
  rw [Dev.bypassPropose_of_open ho, hr]
  dsimp only
  rw [if_neg (by simp [hby]), if_neg (by simpa [hm] using ht)]

end

/-! ## BYPASS_DETECT (R227) -/

/-- This frame completes the dwell since the ports to `v` have all left UP. -/
structure Dev.BypassDue (d : Dev) (v : Nat) : Prop where
  ports : d.portsTo v ≠ []
  left : ∀ p ∈ d.portsTo v, (d.port p).st ≠ .up
  wasUp : ∃ p ∈ d.portsTo v, (d.port p).wasUp = true
  dwell : ((d.portsTo v).map (fun p => (d.port p).tOut)).foldl max 0 + max 1 (Machine.fld (d.rd (ra 6 0x50)) 8 8) = d.now + 1

theorem execBypassDetect_of_due {s : State} {v : BitVec 12} {n : Nat} (h : s.dev.BypassDue v.toNat)
    (hn : [1, 2, 3].find? (fun k => s.dev.ovlOn k && s.dev.bit (ra 6 (0x10 + 4 * k)) 30 && s.dev.ovlFor k == v.toNat) = some n) :
    execBypassDetect v s = .next (s.onDev fun d =>
      (d.raise 6 9 v.toNat).bypassPropose n ((d.fno + Machine.fld (d.rd (ra 6 0x50)) 16 16) % 2 ^ 48) v.toNat) := by
  obtain ⟨hports, hleft, ⟨p, hp, hwas⟩, hdwell⟩ := h
  have hany : (s.dev.portsTo v.toNat).any (fun p => (s.dev.port p).wasUp) = true := List.any_eq_true.2 ⟨p, hp, hwas⟩
  have hup : (s.dev.portsTo v.toNat).any s.dev.isUp = false := List.any_eq_false.2 fun p hp => by simpa [Dev.isUp] using hleft p hp
  simp only [execBypassDetect, devStep, State.onDev]
  rw [if_neg (by simp [hports, hup, hany, hdwell]), hn]

/-! ## BYPASS_MESSAGE (R229) -/

/-- A message for the Bypass is its proposal, once its packet is gone. -/
theorem Dev.actMessage_of_bypass {d : Dev} {id : Nat} {k : Pkt} (hk : d.pkt id = some k) (hctl : ctlMsg 6 k = true)
    (hone : leAt k.pk.payload 1 1 = 1) :
    d.actMessage id = (d.rmPkt id).bypassPropose (leAt k.pk.payload 2 1) (leAt k.pk.payload 3 6) (leAt k.pk.payload 9 2 % 4096) := by
  have hop : k.pk.hdr.op.toNat = 0x40 := by
    have : k.pk.hdr.op = 0x40 := by simp_all [ctlMsg]
    rw [this]
    rfl
  simp only [Dev.actMessage, hk]
  rw [if_neg (by omega), if_neg (by omega), if_neg (by omega), if_pos hctl, Dev.bypassAct, Dev.onPacket_of_pkt _ _ hk,
    if_pos (by simp [hctl, hone]), Dev.id_of_pkt hk]

end Sys2Proof.Machine

namespace Sys2Proof.Claim
open Sys2Proof Sys2Proof.Machine

/-- A confirmed message that an engine holds is sampled as one action, which acts on it. -/
theorem takes_message {c : Instr} {s : State} {id : Nat} {k : Pkt} (hex : exec c s = .next (s.wait c)) (hw : writeOf c = none)
    (hm : messageOf c = some id) (hk : s.dev.pkt id = some k) (hst : k.st = .engine) (hconf : k.conf = true) {P : State → Prop}
    (hP : P { s with dev := s.dev.actMessage id }) : Takes c s P := by
  refine ⟨hex, { who := .inBand (k.ing.getD 128), op := .message id, cmd := s.dev.obvo.nextCmd, idx := 0 }, ?_, hP⟩
  simp only [State.takeInput, hw, hm, State.onDev, Dev.takeMessage, hk]
  rw [if_pos ⟨hconf, hst⟩]
  rfl

/-- A Bypass message takes effect as its proposal. -/
theorem takes_bypassMessage {s : State} {id : Nat} {k : Pkt} (hk : s.dev.pkt id = some k) (hst : k.st = .engine) (hconf : k.conf = true)
    (hctl : ctlMsg 6 k = true) (hone : leAt k.pk.payload 1 1 = 1) {e : Dev} {P : State → Prop}
    (he : (s.dev.rmPkt id).bypassPropose (leAt k.pk.payload 2 1) (leAt k.pk.payload 3 6) (leAt k.pk.payload 9 2 % 4096) = e)
    (hP : P { s with dev := e }) : Takes (.bypassMessage id) s P :=
  takes_message rfl rfl rfl hk hst hconf (by rwa [Dev.actMessage_of_bypass hk hctl hone, he])

/-- Settles O37: the detection and the message come to a proposal, which arms its overlay, or stands behind the one that is armed. -/
theorem bypassArmsItsOverlay : Obligations.BypassArmsItsOverlay := by
  unfold Obligations.BypassArmsItsOverlay
  refine ⟨fun s v n hports hleft hwas hdwell hfind hovl hact hr ht => ?_, fun s id k hk hst hconf hctl hone hid hlo hhi hovl hact =>
    ⟨fun hr ht => ?_, fun a m hr hby hm => ⟨fun hbefore => ?_, fun hafter => ?_⟩⟩⟩
  · have hn : n = 1 ∨ n = 2 ∨ n = 3 := by simpa using List.mem_of_find?_eq_some hfind
    have ho : (s.dev.raise 6 9 v.toNat).Open n :=
      ⟨by omega, by omega, (s.dev.raiseAt_ovl ..).trans hovl, (congrArg Plat.act (s.dev.raiseAt_plat ..)).trans hact⟩
    obtain ⟨hract, hkeep, hwords, _⟩ := Dev.bypassPropose_of_free ho ((s.dev.raiseAt_ract ..).trans hr)
      (t := (s.dev.fno + Machine.fld (s.dev.rd (ra 6 0x50)) 16 16) % 2 ^ 48) (by simpa [Dev.fno] using ht) v.toNat
    rw [Dev.raise_bypassSlot, Dev.raise_bypassCut] at hract
    exact runs_of_eq (execBypassDetect_of_due ⟨hports, hleft, hwas, hdwell⟩ hfind) rfl
      ⟨⟨rfl, rfl, rfl⟩, hkeep.trans (s.dev.raiseAt_ovl ..), hwords (by simp), hract⟩
  · obtain ⟨hract, hkeep, _, hwithout⟩ := Dev.bypassPropose_of_free (d := s.dev.rmPkt id) ⟨hlo, hhi, hovl, hact⟩ hr ht
      (leAt k.pk.payload 9 2 % 4096)
    exact takes_bypassMessage hk hst hconf hctl hone rfl
      ⟨⟨⟨rfl, rfl, rfl⟩, (hwithout id (Dev.rmPkt_without hid)).gone⟩, hkeep, hract⟩
  · obtain ⟨hract, hkeep, hwords, hwithout⟩ := Dev.bypassPropose_of_before (d := s.dev.rmPkt id) ⟨hlo, hhi, hovl, hact⟩ hr hby hm hbefore
      (leAt k.pk.payload 9 2 % 4096)
    have hgone : ((s.dev.rmPkt id).bypassIgnored m).Without id := (Dev.rmPkt_without hid).keep (Dev.raiseAt_pkts ..) (Dev.raiseAt_nextId ..)
    exact takes_bypassMessage hk hst hconf hctl hone rfl
      ⟨⟨⟨rfl, rfl, rfl⟩, (hwithout id hgone).gone⟩, hkeep.trans (Dev.raiseAt_ovl ..), hwords (Dev.bypassIgnored_word _ m), hract⟩
  · exact takes_bypassMessage hk hst hconf hctl hone (Dev.bypassPropose_of_after (d := s.dev.rmPkt id) ⟨hlo, hhi, hovl, hact⟩ hr hby hm hafter _)
      ⟨⟨⟨rfl, rfl, rfl⟩, (Dev.rmPkt_without hid).gone⟩, hr⟩

end Sys2Proof.Claim
end
